-- ==== Sys2Proof/Word.lean ====
section
/-! DEFINITION. Bytes, the numbers that name things (section 4 of 00_scope.md), and the fixed-size
tables in which the blocks hold one record for each of them. -/

namespace Sys2Proof

/-- A byte clocked on a control link (R180). -/
abbrev Byte := BitVec 8
/-- A two-byte quantity of a frame (R190), or one 16-bit slot of a highway (R193). -/
abbrev Half := BitVec 16
/-- A time base value or a sequence number (R166). -/
abbrev Word := BitVec 32

/-- Positions 0..47. -/
abbrev PosId := Fin 48
/-- Lines 0..191. -/
abbrev LineId := Fin 192
/-- Bridges 0..95; a hoot and an intercom call are named by their bridge. -/
abbrev BridgeId := Fin 96
/-- Sources 0..335. -/
abbrev SourceId := Fin 336
/-- Sinks 0..383. -/
abbrev SinkId := Fin 384
/-- Recording channels 0..63. -/
abbrev ChanId := Fin 64
/-- Intercom groups 0..31. -/
abbrev GroupId := Fin 32
/-- Speaker keys 0..7 of a position. -/
abbrev KeyId := Fin 8
/-- Highways 0..3 of one sort (position or line). -/
abbrev HwId := Fin 4

/-- A table with exactly `n` entries: the list together with the proof of its length. -/
structure Tab (α : Type) (n : Nat) where
  list : List α
  len : list.length = n
  deriving DecidableEq, Repr

/-- The table whose `n` entries are all `v`. -/
def Tab.fill {α : Type} (n : Nat) (v : α) : Tab α n := ⟨List.replicate n v, List.length_replicate⟩

/-- The table whose entry `i` is `f i`. -/
def Tab.ofFn {α : Type} {n : Nat} (f : Fin n → α) : Tab α n := ⟨List.ofFn f, List.length_ofFn⟩

/-- Entry `i`. -/
def Tab.get {α : Type} {n : Nat} (t : Tab α n) (i : Fin n) : α := t.list.get (i.cast t.len.symm)

/-- Entry `i` replaced by `v`. -/
def Tab.set {α : Type} {n : Nat} (t : Tab α n) (i : Fin n) (v : α) : Tab α n :=
  ⟨t.list.set i.val v, (List.length_set).trans t.len⟩

/-- Entry `i` changed by `f`. -/
def Tab.modify {α : Type} {n : Nat} (t : Tab α n) (i : Fin n) (f : α → α) : Tab α n :=
  t.set i (f (t.get i))

/-- Every entry changed by `f`. -/
def Tab.map {α β : Type} {n : Nat} (t : Tab α n) (f : α → β) : Tab β n :=
  ⟨t.list.map f, (List.length_map f).trans t.len⟩

/-- Every entry changed by `f`, which also sees the entry's number. -/
def Tab.mapIdx {α β : Type} {n : Nat} (t : Tab α n) (f : Fin n → α → β) : Tab β n :=
  Tab.ofFn fun i => f i (t.get i)

/-- The numbers `0 .. n-1`, ascending. -/
def ids (n : Nat) : List (Fin n) := List.finRange n

end Sys2Proof
end

