-- ==== Sys2Proof/Syntax.lean ====
section
/-! DEFINITION. The commands of the GV48: one constructor of `Instr` for each row of
spec/opcode_table.json. A request carries the link it arrives on and the raw bytes and quantities of
its body (R190), so that a value out of range can be sent and is refused as the rules say. An event
names the part of the machine it happens to. -/

namespace Sys2Proof

/-- The six control links (section 2.1 of 00_scope.md): PC0..PC3, ADM and REC. -/
inductive LinkId where
  | pc (n : Fin 4)
  | adm
  | recorder
  deriving DecidableEq, Repr

/-- The eight optional fields of LEVEL_SET, in the order of the table of R12. -/
structure LevelFields where
  ea : Option Half
  eb : Option Half
  icmT : Option Half
  icmSide : Option Byte
  gainHA : Option Half
  gainHB : Option Half
  gainMIC : Option Half
  duck : Option Half
  deriving DecidableEq, Repr

/-- The five parts of a permission record, each present or absent (R143, R144). A set is a membership
map, member `m` being bit `m` (R190). -/
structure PermParts where
  appearance : Option (BitVec 192)
  monitor : Option (BitVec 192)
  listen : Option (BitVec 96)
  talk : Option (BitVec 96)
  icm : Option Byte
  deriving DecidableEq, Repr

/-- The fourteen optional fields of LINE_DEFINE, in the order of R58 and R89. -/
structure LineFields where
  ltype : Option Byte
  privacy : Option Byte
  policy : Option Byte
  guardMs : Option Half
  offerS : Option Half
  recallS : Option Half
  alertS : Option Half
  autoReleaseS : Option Half
  reload : Option Byte
  preQuiet : Option Half
  minBurst : Option Half
  gapAllow : Option Half
  postQuiet : Option Half
  outBurst : Option Half
  deriving DecidableEq, Repr

/-- The seven optional fields of HOOT_DEFINE, in the order of R121. A leg is a line and a gain. -/
structure HootFields where
  slots : Option Half
  talkIdleS : Option Half
  quietS : Option Half
  policy : Option Byte
  shift : Option Half
  record : Option Byte
  legs : Option (List (Byte × Half))
  deriving DecidableEq, Repr

/-- The four optional fields of VAD_SET, in the order of R49. -/
structure VadFields where
  ton : Option Half
  toff : Option Half
  onset : Option Half
  hangover : Option Half
  deriving DecidableEq, Repr

/-- What the eight inbound highways bring in one frame: 64 slots of 16 bits each (R193). -/
structure InFrame where
  position : Tab (Tab Half 64) 4
  line : Tab (Tab Half 64) 4
  deriving DecidableEq, Repr

/-- The commands: the rows of spec/opcode_table.json, in the table's order. -/
inductive Instr where
  | powerOn
  | reset
  | chipSelectAsserted (l : LinkId)
  | chipSelectDeasserted (l : LinkId)
  | malformed (l : LinkId) (kind : Byte)
  | noticeRead (l : LinkId) (n : Half)
  | noticeMask (l : LinkId) (mask : BitVec 24)
  | query (l : LinkId) (target : Byte) (id : Byte) (option : Byte)
  | linkReset (l : LinkId)
  | latchClear (l : LinkId) (target : Byte)
  | posOpen (l : LinkId) (p : Byte)
  | posClose (l : LinkId) (p : Byte)
  | lineTake (l : LinkId) (p : Byte) (ep : Byte) (line : Byte) (flags : Byte)
  | lineDrop (l : LinkId) (p : Byte) (ep : Byte)
  | linePark (l : LinkId) (p : Byte) (ep : Byte)
  | lineSignal (l : LinkId) (p : Byte) (line : Byte)
  | campCancel (l : LinkId) (p : Byte) (line : Byte)
  | keySet (l : LinkId) (p : Byte) (key : Byte) (code : Byte) (bridge : Byte) (level : Half) (side : Byte) (priority : Byte)
  | levelSet (l : LinkId) (p : Byte) (f : LevelFields)
  | talkOn (l : LinkId) (p : Byte) (key : Byte)
  | talkOff (l : LinkId) (p : Byte) (key : Byte)
  | icmDial (l : LinkId) (p : Byte) (ep : Byte) (target : Byte) (mode : Byte)
  | icmGroup (l : LinkId) (p : Byte) (ep : Byte) (group : Byte) (mode : Byte)
  | icmPickup (l : LinkId) (p : Byte) (ep : Byte) (choice : Byte)
  | icmHangup (l : LinkId) (p : Byte)
  | narrow (l : LinkId) (p : Byte) (parts : PermParts)
  | lineDefine (l : LinkId) (line : Byte) (f : LineFields)
  | hootDefine (l : LinkId) (bridge : Byte) (f : HootFields)
  | hootRemove (l : LinkId) (bridge : Byte)
  | groupDefine (l : LinkId) (group : Byte) (members : List Byte)
  | grant (l : LinkId) (p : Byte) (parts : PermParts)
  | watchSet (l : LinkId) (lines : BitVec 192) (route : Byte)
  | vadSet (l : LinkId) (cls : Byte) (f : VadFields)
  | logLimits (l : LinkId) (hw : Option Half) (lw : Option Half)
  | icmPolicy (l : LinkId) (policy : Option Byte) (alertS : Option Half)
  | timeSet (l : LinkId) (value : Word)
  | forceDrop (l : LinkId) (line : Byte)
  | partClear (l : LinkId)
  | bridgeJoin (l : LinkId) (bridge : Byte) (line : Byte) (gain : Half)
  | bridgeLeave (l : LinkId) (bridge : Byte) (line : Byte)
  | logRead (l : LinkId) (n : Half)
  | logReadAgain (l : LinkId) (n : Half)
  | logStatus (l : LinkId)
  | gapClear (l : LinkId)
  | frameSyncPulse (f : InFrame)
  | frameSyncAbsent
  | activityStart (src : SourceId)
  | activityEnd (src : SourceId)
  | positionHighwayDown (n : HwId)
  | positionHighwayUp (n : HwId)
  | lineHighwayDown (n : HwId)
  | lineHighwayUp (n : HwId)
  | signallingSample (bits : BitVec 192)
  | detectorArmed (L : LineId)
  | inboundBurstEnd (L : LineId)
  | ringStart (L : LineId)
  | ringEnd (L : LineId)
  | guardExpiry (L : LineId)
  | offerExpiry (L : LineId)
  | alertExpiry (L : LineId)
  | recallExpiry (L : LineId)
  | bridgeIdle (b : BridgeId)
  | talkIdleExpiry (b : BridgeId) (p : PosId)
  | icmAlertExpiry (c : BridgeId)
  | outboundBurstEnd (L : LineId)
  | byteClocked (l : LinkId) (byte : Byte)
  | millisecondTick
  deriving DecidableEq, Repr

end Sys2Proof
end

