-- ==== Sys2Proof/WellFormed.lean ====
section
/-! DEFINITION. Which commands a request frame can carry (R190): a list holds no more entries than its
stated maximum, and a body is at most 60 bytes. Every other operand is held by its type. The link
answers a command that fails here with MALFORMED (R181, R190). -/

namespace Sys2Proof

/-- The bytes that the present parts of GRANT and NARROW take (R190). -/
def PermParts.size (f : PermParts) : Nat :=
  (if f.appearance.isSome then 24 else 0) + (if f.monitor.isSome then 24 else 0) +
    (if f.listen.isSome then 12 else 0) + (if f.talk.isSome then 12 else 0) +
    (if f.icm.isSome then 1 else 0)

/-- The body of a GRANT or NARROW with these parts fits in a frame: position, presence mask and parts
take at most 60 bytes (R190). -/
def PermParts.fits (f : PermParts) : Bool := 2 + f.size ≤ 60

/-- A leg list of HOOT_DEFINE holds at most four entries (R121). -/
def HootFields.fits (f : HootFields) : Bool := (f.legs.getD []).length ≤ 4

/-- A member list of GROUP_DEFINE holds at most twelve (R104). -/
def groupFits (members : List Byte) : Bool := members.length ≤ 12

/-- The command can stand in a well-formed request frame, or is no request. -/
def Instr.wellFormed : Instr → Bool
  | .narrow _ _ parts => parts.fits
  | .grant _ _ parts => parts.fits
  | .hootDefine _ _ f => f.fits
  | .groupDefine _ _ members => groupFits members
  | _ => true

end Sys2Proof
end

