-- ==== Sys2Proof/Decode.lean ====
section
/-! DEFINITION. Request frames (R190): from the bytes of a complete frame to the command it carries,
and back. A frame that names no request kind, or whose body has not the length that its kind's
fields, presence mask and count bytes make, reads as nothing: the link answers it MALFORMED (R181).
spec/opcode_table.json gives no row any bits, so `decodeTableWord` reads nothing. -/

namespace Sys2Proof

/-- A byte string read least significant byte first, as a membership map is laid out (R190). -/
def natOfBytes : List Byte → Nat
  | [] => 0
  | b :: r => b.toNat + 256 * natOfBytes r

/-- The first `n` bytes of a number, least significant first. -/
def bytesOfNat : Nat → Nat → List Byte
  | 0, _ => []
  | n + 1, v => BitVec.ofNat 8 v :: bytesOfNat n (v / 256)

/-- A two-byte quantity, most significant byte first (R190). -/
def halfBytes (v : Half) : List Byte := [v.extractLsb' 8 8, v.extractLsb' 0 8]

/-- A four-byte value, most significant byte first (R190). -/
def wordBytes (v : Word) : List Byte :=
  [v.extractLsb' 24 8, v.extractLsb' 16 8, v.extractLsb' 8 8, v.extractLsb' 0 8]

/-- A membership map of `n` bytes: member `m` stands in byte `m / 8`, bit `m % 8` (R190). -/
def mapBytes (n : Nat) (m : BitVec (8 * n)) : List Byte := bytesOfNat n m.toNat

/-! ## Reading fields off a body -/

/-- One byte. -/
def rdByte : List Byte → Option (Byte × List Byte)
  | b :: r => some (b, r)
  | [] => none

/-- One quantity of two bytes. -/
def rdHalf : List Byte → Option (Half × List Byte)
  | a :: b :: r => some (a ++ b, r)
  | _ => none

/-- One value of four bytes. -/
def rdWord : List Byte → Option (Word × List Byte)
  | a :: b :: c :: d :: r => some (a ++ b ++ c ++ d, r)
  | _ => none

/-- A membership map of `n` bytes. -/
def rdMap (n : Nat) (bs : List Byte) : Option (BitVec (8 * n) × List Byte) :=
  if n ≤ bs.length then some (BitVec.ofNat (8 * n) (natOfBytes (bs.take n)), bs.drop n) else none

/-- An optional field: read when its bit of the presence mask is set (R190). -/
def rdOpt {α : Type} (present : Bool) (rd : List Byte → Option (α × List Byte)) (bs : List Byte) :
    Option (Option α × List Byte) :=
  if present then (rd bs).map fun x => (some x.1, x.2) else some (none, bs)

/-- The entries of a leg list: a line and a gain each (R121). -/
def rdLegs : Nat → List Byte → Option (List (Byte × Half) × List Byte)
  | 0, bs => some ([], bs)
  | n + 1, bs => do
    let (line, bs) ← rdByte bs
    let (gain, bs) ← rdHalf bs
    let (rest, bs) ← rdLegs n bs
    return ((line, gain) :: rest, bs)

/-- A leg list: a count byte of at most four, and its entries (R121, R190). -/
def rdLegList (bs : List Byte) : Option (List (Byte × Half) × List Byte) := do
  let (n, bs) ← rdByte bs
  if n.toNat ≤ 4 then rdLegs n.toNat bs else none

/-- The whole body has been read. -/
def rdEnd (i : Instr) (bs : List Byte) : Option Instr := if bs.isEmpty then some i else none

/-- The five parts of GRANT and NARROW, after their presence mask (R143, R190). -/
def rdParts (bs : List Byte) : Option (PermParts × List Byte) := do
  let (m, bs) ← rdByte bs
  let (appearance, bs) ← rdOpt (m.getLsbD 0) (rdMap 24) bs
  let (monitor, bs) ← rdOpt (m.getLsbD 1) (rdMap 24) bs
  let (listen, bs) ← rdOpt (m.getLsbD 2) (rdMap 12) bs
  let (talk, bs) ← rdOpt (m.getLsbD 3) (rdMap 12) bs
  let (icm, bs) ← rdOpt (m.getLsbD 4) rdByte bs
  return (⟨appearance, monitor, listen, talk, icm⟩, bs)

/-- The optional fields of LEVEL_SET, after their presence mask (R12, R190). -/
def rdLevels (bs : List Byte) : Option (LevelFields × List Byte) := do
  let (m, bs) ← rdByte bs
  let (ea, bs) ← rdOpt (m.getLsbD 0) rdHalf bs
  let (eb, bs) ← rdOpt (m.getLsbD 1) rdHalf bs
  let (icmT, bs) ← rdOpt (m.getLsbD 2) rdHalf bs
  let (icmSide, bs) ← rdOpt (m.getLsbD 3) rdByte bs
  let (gainHA, bs) ← rdOpt (m.getLsbD 4) rdHalf bs
  let (gainHB, bs) ← rdOpt (m.getLsbD 5) rdHalf bs
  let (gainMIC, bs) ← rdOpt (m.getLsbD 6) rdHalf bs
  let (duck, bs) ← rdOpt (m.getLsbD 7) rdHalf bs
  return (⟨ea, eb, icmT, icmSide, gainHA, gainHB, gainMIC, duck⟩, bs)

/-- The optional fields of LINE_DEFINE, after their presence mask of two bytes (R58, R89, R190). -/
def rdLine (bs : List Byte) : Option (LineFields × List Byte) := do
  let (m, bs) ← rdHalf bs
  let (ltype, bs) ← rdOpt (m.getLsbD 0) rdByte bs
  let (privacy, bs) ← rdOpt (m.getLsbD 1) rdByte bs
  let (policy, bs) ← rdOpt (m.getLsbD 2) rdByte bs
  let (guardMs, bs) ← rdOpt (m.getLsbD 3) rdHalf bs
  let (offerS, bs) ← rdOpt (m.getLsbD 4) rdHalf bs
  let (recallS, bs) ← rdOpt (m.getLsbD 5) rdHalf bs
  let (alertS, bs) ← rdOpt (m.getLsbD 6) rdHalf bs
  let (autoReleaseS, bs) ← rdOpt (m.getLsbD 7) rdHalf bs
  let (reload, bs) ← rdOpt (m.getLsbD 8) rdByte bs
  let (preQuiet, bs) ← rdOpt (m.getLsbD 9) rdHalf bs
  let (minBurst, bs) ← rdOpt (m.getLsbD 10) rdHalf bs
  let (gapAllow, bs) ← rdOpt (m.getLsbD 11) rdHalf bs
  let (postQuiet, bs) ← rdOpt (m.getLsbD 12) rdHalf bs
  let (outBurst, bs) ← rdOpt (m.getLsbD 13) rdHalf bs
  return (⟨ltype, privacy, policy, guardMs, offerS, recallS, alertS, autoReleaseS, reload, preQuiet,
    minBurst, gapAllow, postQuiet, outBurst⟩, bs)

/-- The optional fields of HOOT_DEFINE, after their presence mask (R121, R190). -/
def rdHoot (bs : List Byte) : Option (HootFields × List Byte) := do
  let (m, bs) ← rdByte bs
  let (slots, bs) ← rdOpt (m.getLsbD 0) rdHalf bs
  let (talkIdleS, bs) ← rdOpt (m.getLsbD 1) rdHalf bs
  let (quietS, bs) ← rdOpt (m.getLsbD 2) rdHalf bs
  let (policy, bs) ← rdOpt (m.getLsbD 3) rdByte bs
  let (shift, bs) ← rdOpt (m.getLsbD 4) rdHalf bs
  let (record, bs) ← rdOpt (m.getLsbD 5) rdByte bs
  let (legs, bs) ← rdOpt (m.getLsbD 6) rdLegList bs
  return (⟨slots, talkIdleS, quietS, policy, shift, record, legs⟩, bs)

/-- The optional fields of VAD_SET, after their presence mask (R49, R190). -/
def rdVad (bs : List Byte) : Option (VadFields × List Byte) := do
  let (m, bs) ← rdByte bs
  let (ton, bs) ← rdOpt (m.getLsbD 0) rdHalf bs
  let (toff, bs) ← rdOpt (m.getLsbD 1) rdHalf bs
  let (onset, bs) ← rdOpt (m.getLsbD 2) rdHalf bs
  let (hangover, bs) ← rdOpt (m.getLsbD 3) rdHalf bs
  return (⟨ton, toff, onset, hangover⟩, bs)

/-- A body of one byte, of two, of three and of four, read into a command. -/
def body1 (f : Byte → Instr) (bs : List Byte) : Option Instr := do
  let (a, bs) ← rdByte bs
  rdEnd (f a) bs
def body2 (f : Byte → Byte → Instr) (bs : List Byte) : Option Instr := do
  let (a, bs) ← rdByte bs
  body1 (f a) bs
def body3 (f : Byte → Byte → Byte → Instr) (bs : List Byte) : Option Instr := do
  let (a, bs) ← rdByte bs
  body2 (f a) bs
def body4 (f : Byte → Byte → Byte → Byte → Instr) (bs : List Byte) : Option Instr := do
  let (a, bs) ← rdByte bs
  body3 (f a) bs

/-- The body of KEY_SET: position, key, binding, T, side, priority (R10, R190). -/
def bodyKeySet (l : LinkId) (bs : List Byte) : Option Instr := do
  let (p, bs) ← rdByte bs
  let (key, bs) ← rdByte bs
  let (code, bs) ← rdByte bs
  let (bridge, bs) ← rdByte bs
  let (level, bs) ← rdHalf bs
  let (side, bs) ← rdByte bs
  let (priority, bs) ← rdByte bs
  rdEnd (.keySet l p key code bridge level side priority) bs

/-- The body of NOTICE_MASK: three bytes, most significant first (R190, R191). -/
def bodyMask (l : LinkId) (bs : List Byte) : Option Instr := do
  let (a, bs) ← rdByte bs
  let (b, bs) ← rdByte bs
  let (c, bs) ← rdByte bs
  rdEnd (.noticeMask l (a ++ b ++ c)) bs

/-- The body of LOG_READ: the count, then the flags byte whose bit 0 is AGAIN (R172, R173, R190). -/
def bodyLogRead (l : LinkId) (bs : List Byte) : Option Instr := do
  let (n, bs) ← rdHalf bs
  let (flags, bs) ← rdByte bs
  rdEnd (if flags.getLsbD 0 then .logReadAgain l n else .logRead l n) bs

/-- The body of LOG_LIMITS (R176). -/
def bodyLimits (l : LinkId) (bs : List Byte) : Option Instr := do
  let (m, bs) ← rdByte bs
  let (hw, bs) ← rdOpt (m.getLsbD 0) rdHalf bs
  let (lw, bs) ← rdOpt (m.getLsbD 1) rdHalf bs
  rdEnd (.logLimits l hw lw) bs

/-- The body of ICM_POLICY (R105). -/
def bodyPolicy (l : LinkId) (bs : List Byte) : Option Instr := do
  let (m, bs) ← rdByte bs
  let (policy, bs) ← rdOpt (m.getLsbD 0) rdByte bs
  let (alertS, bs) ← rdOpt (m.getLsbD 1) rdHalf bs
  rdEnd (.icmPolicy l policy alertS) bs

/-- The body of GROUP_DEFINE: the group, a count byte of at most twelve, the members (R104, R190). -/
def bodyGroup (l : LinkId) (bs : List Byte) : Option Instr := do
  let (g, bs) ← rdByte bs
  let (n, bs) ← rdByte bs
  if n.toNat ≤ 12 && bs.length == n.toNat then some (.groupDefine l g bs) else none

/-- The command of a body, by its kind code: the codes number the request kinds from 1 in the order of
the table of R147 (R190). -/
def decodeBody (l : LinkId) (kind : Nat) (bs : List Byte) : Option Instr :=
  match kind with
  | 1 => do let (n, bs) ← rdHalf bs; rdEnd (.noticeRead l n) bs
  | 2 => bodyMask l bs
  | 3 => body3 (.query l) bs
  | 4 => rdEnd (.linkReset l) bs
  | 5 => body1 (.latchClear l) bs
  | 6 => body1 (.posOpen l) bs
  | 7 => body1 (.posClose l) bs
  | 8 => body4 (.lineTake l) bs
  | 9 => body2 (.lineDrop l) bs
  | 10 => body2 (.linePark l) bs
  | 11 => body2 (.lineSignal l) bs
  | 12 => body2 (.campCancel l) bs
  | 13 => bodyKeySet l bs
  | 14 => do let (p, bs) ← rdByte bs; let (f, bs) ← rdLevels bs; rdEnd (.levelSet l p f) bs
  | 15 => body2 (.talkOn l) bs
  | 16 => body2 (.talkOff l) bs
  | 17 => body4 (.icmDial l) bs
  | 18 => body4 (.icmGroup l) bs
  | 19 => body3 (.icmPickup l) bs
  | 20 => body1 (.icmHangup l) bs
  | 21 => do let (p, bs) ← rdByte bs; let (f, bs) ← rdParts bs; rdEnd (.narrow l p f) bs
  | 22 => do let (n, bs) ← rdByte bs; let (f, bs) ← rdLine bs; rdEnd (.lineDefine l n f) bs
  | 23 => do let (b, bs) ← rdByte bs; let (f, bs) ← rdHoot bs; rdEnd (.hootDefine l b f) bs
  | 24 => body1 (.hootRemove l) bs
  | 25 => bodyGroup l bs
  | 26 => do let (p, bs) ← rdByte bs; let (f, bs) ← rdParts bs; rdEnd (.grant l p f) bs
  | 27 => do let (m, bs) ← rdMap 24 bs; let (r, bs) ← rdByte bs; rdEnd (.watchSet l m r) bs
  | 28 => do let (c, bs) ← rdByte bs; let (f, bs) ← rdVad bs; rdEnd (.vadSet l c f) bs
  | 29 => bodyLimits l bs
  | 30 => bodyPolicy l bs
  | 31 => do let (v, bs) ← rdWord bs; rdEnd (.timeSet l v) bs
  | 32 => body1 (.forceDrop l) bs
  | 33 => rdEnd (.partClear l) bs
  | 34 => do
    let (b, bs) ← rdByte bs
    let (n, bs) ← rdByte bs
    let (g, bs) ← rdHalf bs
    rdEnd (.bridgeJoin l b n g) bs
  | 35 => body2 (.bridgeLeave l) bs
  | 36 => bodyLogRead l bs
  | 37 => rdEnd (.logStatus l) bs
  | 38 => rdEnd (.gapClear l) bs
  | _ => none

/-- The command that a complete frame carries: kind code, body length, body (R190). -/
def decodeFrame (l : LinkId) : List Byte → Option Instr
  | kind :: len :: body =>
    if len.toNat ≤ 60 && body.length == len.toNat then decodeBody l kind.toNat body else none
  | _ => none

/-! ## Writing frames -/

/-- A presence mask: bit `i` marks the `i`-th optional field (R190). -/
def presence (w : Nat) : List Bool → BitVec w
  | [] => 0#w
  | b :: r => (presence w r <<< 1) ||| (if b then 1#w else 0#w)

/-- An optional field, written when present. -/
def wrOpt {α : Type} (f : α → List Byte) : Option α → List Byte
  | some x => f x
  | none => []

/-- A one-byte field. -/
def wrByte (b : Byte) : List Byte := [b]

/-- A leg list (R121, R190). -/
def wrLegs (legs : List (Byte × Half)) : List Byte :=
  BitVec.ofNat 8 legs.length :: legs.flatMap fun x => x.1 :: halfBytes x.2

/-- The presence mask and the parts of GRANT and NARROW. -/
def wrParts (f : PermParts) : List Byte :=
  [presence 8 [f.appearance.isSome, f.monitor.isSome, f.listen.isSome, f.talk.isSome, f.icm.isSome]] ++
    wrOpt (mapBytes 24) f.appearance ++ wrOpt (mapBytes 24) f.monitor ++ wrOpt (mapBytes 12) f.listen ++
    wrOpt (mapBytes 12) f.talk ++ wrOpt wrByte f.icm

/-- The presence mask and the fields of LEVEL_SET. -/
def wrLevels (f : LevelFields) : List Byte :=
  [presence 8 [f.ea.isSome, f.eb.isSome, f.icmT.isSome, f.icmSide.isSome, f.gainHA.isSome,
      f.gainHB.isSome, f.gainMIC.isSome, f.duck.isSome]] ++
    wrOpt halfBytes f.ea ++ wrOpt halfBytes f.eb ++ wrOpt halfBytes f.icmT ++ wrOpt wrByte f.icmSide ++
    wrOpt halfBytes f.gainHA ++ wrOpt halfBytes f.gainHB ++ wrOpt halfBytes f.gainMIC ++
    wrOpt halfBytes f.duck

/-- The presence mask and the fields of LINE_DEFINE. -/
def wrLine (f : LineFields) : List Byte :=
  halfBytes (presence 16 [f.ltype.isSome, f.privacy.isSome, f.policy.isSome, f.guardMs.isSome,
      f.offerS.isSome, f.recallS.isSome, f.alertS.isSome, f.autoReleaseS.isSome, f.reload.isSome,
      f.preQuiet.isSome, f.minBurst.isSome, f.gapAllow.isSome, f.postQuiet.isSome, f.outBurst.isSome]) ++
    wrOpt wrByte f.ltype ++ wrOpt wrByte f.privacy ++ wrOpt wrByte f.policy ++
    wrOpt halfBytes f.guardMs ++ wrOpt halfBytes f.offerS ++ wrOpt halfBytes f.recallS ++
    wrOpt halfBytes f.alertS ++ wrOpt halfBytes f.autoReleaseS ++ wrOpt wrByte f.reload ++
    wrOpt halfBytes f.preQuiet ++ wrOpt halfBytes f.minBurst ++ wrOpt halfBytes f.gapAllow ++
    wrOpt halfBytes f.postQuiet ++ wrOpt halfBytes f.outBurst

/-- The presence mask and the fields of HOOT_DEFINE. -/
def wrHoot (f : HootFields) : List Byte :=
  [presence 8 [f.slots.isSome, f.talkIdleS.isSome, f.quietS.isSome, f.policy.isSome, f.shift.isSome,
      f.record.isSome, f.legs.isSome]] ++
    wrOpt halfBytes f.slots ++ wrOpt halfBytes f.talkIdleS ++ wrOpt halfBytes f.quietS ++
    wrOpt wrByte f.policy ++ wrOpt halfBytes f.shift ++ wrOpt wrByte f.record ++ wrOpt wrLegs f.legs

/-- The presence mask and the fields of VAD_SET. -/
def wrVad (f : VadFields) : List Byte :=
  [presence 8 [f.ton.isSome, f.toff.isSome, f.onset.isSome, f.hangover.isSome]] ++
    wrOpt halfBytes f.ton ++ wrOpt halfBytes f.toff ++ wrOpt halfBytes f.onset ++
    wrOpt halfBytes f.hangover

/-- The kind code and the body of a request; nothing for a command that is no request (R190). -/
def encodeBody : Instr → Option (Nat × List Byte)
  | .noticeRead _ n => some (1, halfBytes n)
  | .noticeMask _ m => some (2, [m.extractLsb' 16 8, m.extractLsb' 8 8, m.extractLsb' 0 8])
  | .query _ t i o => some (3, [t, i, o])
  | .linkReset _ => some (4, [])
  | .latchClear _ t => some (5, [t])
  | .posOpen _ p => some (6, [p])
  | .posClose _ p => some (7, [p])
  | .lineTake _ p ep line flags => some (8, [p, ep, line, flags])
  | .lineDrop _ p ep => some (9, [p, ep])
  | .linePark _ p ep => some (10, [p, ep])
  | .lineSignal _ p line => some (11, [p, line])
  | .campCancel _ p line => some (12, [p, line])
  | .keySet _ p key code bridge level side priority =>
    some (13, [p, key, code, bridge] ++ halfBytes level ++ [side, priority])
  | .levelSet _ p f => some (14, p :: wrLevels f)
  | .talkOn _ p key => some (15, [p, key])
  | .talkOff _ p key => some (16, [p, key])
  | .icmDial _ p ep target mode => some (17, [p, ep, target, mode])
  | .icmGroup _ p ep group mode => some (18, [p, ep, group, mode])
  | .icmPickup _ p ep choice => some (19, [p, ep, choice])
  | .icmHangup _ p => some (20, [p])
  | .narrow _ p parts => some (21, p :: wrParts parts)
  | .lineDefine _ line f => some (22, line :: wrLine f)
  | .hootDefine _ bridge f => some (23, bridge :: wrHoot f)
  | .hootRemove _ bridge => some (24, [bridge])
  | .groupDefine _ group members => some (25, group :: BitVec.ofNat 8 members.length :: members)
  | .grant _ p parts => some (26, p :: wrParts parts)
  | .watchSet _ lines route => some (27, mapBytes 24 lines ++ [route])
  | .vadSet _ cls f => some (28, cls :: wrVad f)
  | .logLimits _ hw lw =>
    some (29, [presence 8 [hw.isSome, lw.isSome]] ++ wrOpt halfBytes hw ++ wrOpt halfBytes lw)
  | .icmPolicy _ policy alertS =>
    some (30, [presence 8 [policy.isSome, alertS.isSome]] ++ wrOpt wrByte policy ++ wrOpt halfBytes alertS)
  | .timeSet _ v => some (31, wordBytes v)
  | .forceDrop _ line => some (32, [line])
  | .partClear _ => some (33, [])
  | .bridgeJoin _ bridge line gain => some (34, [bridge, line] ++ halfBytes gain)
  | .bridgeLeave _ bridge line => some (35, [bridge, line])
  | .logRead _ n => some (36, halfBytes n ++ [0#8])
  | .logReadAgain _ n => some (36, halfBytes n ++ [1#8])
  | .logStatus _ => some (37, [])
  | .gapClear _ => some (38, [])
  | _ => none

/-- The frame of a request (R190). -/
def encodeFrame (i : Instr) : Option (List Byte) :=
  (encodeBody i).map fun x => BitVec.ofNat 8 x.1 :: BitVec.ofNat 8 x.2.length :: x.2

/-- The link a request arrives on; nothing for a command that is no request. -/
def Instr.link? : Instr → Option LinkId
  | .noticeRead l _ | .noticeMask l _ | .query l _ _ _ | .linkReset l | .latchClear l _
  | .posOpen l _ | .posClose l _ | .lineTake l _ _ _ _ | .lineDrop l _ _ | .linePark l _ _
  | .lineSignal l _ _ | .campCancel l _ _ | .keySet l _ _ _ _ _ _ _ | .levelSet l _ _
  | .talkOn l _ _ | .talkOff l _ _ | .icmDial l _ _ _ _ | .icmGroup l _ _ _ _ | .icmPickup l _ _ _
  | .icmHangup l _ | .narrow l _ _ | .lineDefine l _ _ | .hootDefine l _ _ | .hootRemove l _
  | .groupDefine l _ _ | .grant l _ _ | .watchSet l _ _ | .vadSet l _ _ | .logLimits l _ _
  | .icmPolicy l _ _ | .timeSet l _ | .forceDrop l _ | .partClear l | .bridgeJoin l _ _ _
  | .bridgeLeave l _ _ | .logRead l _ | .logReadAgain l _ | .logStatus l | .gapClear l => some l
  | _ => none

/-- The command that a word spells by the bits of spec/opcode_table.json: the table gives no row any
bits, so no word spells a command. -/
def decodeTableWord (_nbits _w : Nat) : Option Instr := none

end Sys2Proof
end

