-- ==== Sys2Proof/Config.lean ====
section
/-! DEFINITION. The constants of the part, and its one free value. -/

namespace Sys2Proof.Config

/-- Contributors per bridge (R18, R22). -/
def maxContributors : Nat := 12
/-- Bridges of kind HOOT (R19). -/
def maxHoots : Nat := 32
/-- Camp queue entries of a line (R63), and talk queue entries of a hoot (R126). -/
def maxWaiting : Nat := 8
/-- Holders of a SHARED line (R56), and monitors of a line (R64). -/
def maxSharing : Nat := 4
/-- Parties and presented positions of an intercom call, members of a group (R103, R104). -/
def maxParties : Nat := 12
/-- Records of the detail log (R166). -/
def logCapacity : Nat := 1024
/-- Notices of a link queue (R179). -/
def queueCapacity : Nat := 64
/-- The pattern of the check slot (R194). -/
def checkPattern : BitVec 16 := 0x6C93#16
/-- Consecutive wrong frames that take a highway DOWN, and correct ones that bring it UP (R194). -/
def badLimit : Nat := 8
def goodLimit : Nat := 64
/-- The largest value of the clip counts, dropped counts and total lost counts (R33, R179, R170). -/
def countTop : Nat := 65535
/-- The start byte of a response and the filler (R180). -/
def startByte : BitVec 8 := 0x5A#8
def filler : BitVec 8 := 0xFF#8

/-- FREE VALUE. Where events fall together and the spec says that either may be taken first (R51,
R192, R194), this says which is: number `k` is drawn for the `k`-th such choice the machine makes.
It has no body, so nothing can be proved from a value of it (notes/assumptions/4.md). -/
opaque freeOrder : Nat → Nat

end Sys2Proof.Config
end

