-- ==== Sys2Proof/Machine/State.lean ====
section
/-! DEFINITION. The state of the GV48: one record for everything that the rules R1..R196 say a block
holds, as plain data, and its value at power-on (R196). -/

namespace Sys2Proof.Machine

/-! ## Names shared by the blocks -/

/-- An endpoint: a talk endpoint, or a speaker key (R1, R55). -/
inductive Endpoint where
  | ha | hb | mic
  | key (k : KeyId)
  deriving DecidableEq, Repr

/-- What an endpoint is connected to (R2); the codes of R191 run in this order. -/
inductive Binding where
  | none
  | holder (L : LineId)
  | monitor (L : LineId)
  | icm (c : BridgeId)
  | talk (k : KeyId)
  | listen (b : BridgeId)
  deriving DecidableEq, Repr

/-- A loudspeaker side (R2). -/
inductive Side where
  | l | r
  deriving DecidableEq, Repr

/-- The results of 11.2.1, in code order. -/
inductive Result where
  | done | camped | queued | granted | busy | guard | noBridge | noRecording | inUse | full | duplicate
  | notPermitted | wrongLink | latched | closed | facility | active | wrongKind | notBound
  | notConnected | range | malformed
  deriving DecidableEq, Repr

/-- The request kinds, in code order from 1 (R147, R190). -/
inductive ReqKind where
  | noticeRead | noticeMask | query | linkReset | latchClear
  | posOpen | posClose | lineTake | lineDrop | linePark | lineSignal | campCancel | keySet | levelSet
  | talkOn | talkOff | icmDial | icmGroup | icmPickup | icmHangup | narrow
  | lineDefine | hootDefine | hootRemove | groupDefine | grant | watchSet | vadSet | logLimits
  | icmPolicy | timeSet | forceDrop | partClear | bridgeJoin | bridgeLeave
  | logRead | logStatus | gapClear
  deriving DecidableEq, Repr

/-- The causes of R191, in code order, and the two groups of codes of PERMISSION records. -/
inductive Cause where
  | none | closed | facility | admin | farClear | idleRelease | permission | talkIdle | monitorEnd
  | keyChanged | ended | expired | cancelled | ring | declined | callerLeft | partyLeft | hungUp
  | answeredElsewhere | stale | start | endOf | move | retarget | noChannel | take | park | abandoned
  | guardEnd | offerEnd | define | facilityRestored | appearance | monitor | listen | talk | intercom
  | overflow | readLost | partClear
  | latchCleared (l : LinkId)
  | wrongLink (l : LinkId)
  | notPermitted (l : LinkId)
  deriving DecidableEq, Repr

/-! ## Position block (R2) -/

/-- One speaker key: its binding, tap multiplier T, side and priority. -/
structure Key where
  binding : Binding
  level : Nat
  side : Side
  priority : Bool
  deriving DecidableEq, Repr

/-- A position record. `feed` is the intercom tap feed. -/
structure Position where
  isOpen : Bool
  ha : Binding
  hb : Binding
  mic : Binding
  keys : Tab Key 8
  icmSide : Side
  icmT : Nat
  feed : Option BridgeId
  ea : Nat
  eb : Nat
  gainHA : Nat
  gainHB : Nat
  gainMIC : Nat
  duck : Nat
  deriving DecidableEq, Repr

/-! ## Bridge pool (R18) -/

/-- Kind and owner of a bridge: an ICM or HOOT bridge is its own owner. -/
inductive BridgeUse where
  | free
  | line (L : LineId)
  | icm
  | hoot
  deriving DecidableEq, Repr

/-- Who joined a contributor: the owner block, or BRIDGE_JOIN. -/
inductive Origin where
  | owner | conference
  deriving DecidableEq, Repr

/-- A contributor entry: source, gain G, reduction shift r, origin. -/
structure Contrib where
  source : SourceId
  gain : Nat
  shift : Nat
  origin : Origin
  deriving DecidableEq, Repr

/-- The idle timer's reload mask: the source classes it selects. -/
inductive ReloadMask where
  | line | position | both
  deriving DecidableEq, Repr

/-- A bridge record. `idle` is the time remaining of a RUNNING idle timer, none when STOPPED; `period`
and `idle` are in milliseconds; `active` is the activity flag. -/
structure Bridge where
  use : BridgeUse
  contributors : List Contrib
  period : Nat
  mask : ReloadMask
  idle : Option Nat
  active : Bool
  deriving DecidableEq, Repr

/-! ## Activity detector (R43) -/

/-- A detector record: energy estimate E, ACTIVE or QUIET, onset count, hangover count. -/
structure Detector where
  energy : Nat
  active : Bool
  onset : Nat
  hang : Nat
  deriving DecidableEq, Repr

/-- A parameter set: Ton, Toff, onset in frames, hangover in milliseconds. -/
structure VadParams where
  ton : Nat
  toff : Nat
  onset : Nat
  hangMs : Nat
  deriving DecidableEq, Repr

/-! ## Line block (R55) -/

inductive LineType where
  | none | mr | ar | ht
  deriving DecidableEq, Repr

inductive Privacy where
  | single | shared
  deriving DecidableEq, Repr

/-- A record policy. Hoots and intercom use NONE and RECORD alone. -/
inductive RecordPolicy where
  | none | record | required
  deriving DecidableEq, Repr

inductive LineState where
  | disabled | outOfService | idle | offered | alerting | connected | held | clearing
  deriving DecidableEq, Repr

inductive TimerKind where
  | guard | offer | alert | recall
  deriving DecidableEq, Repr

/-- A running line timer, with the milliseconds remaining. -/
structure LineTimer where
  kind : TimerKind
  remaining : Nat
  deriving DecidableEq, Repr

/-- The five signalling parameters, as stored in milliseconds (R89). -/
structure SigParams where
  preQuiet : Nat
  minBurst : Nat
  gapAllow : Nat
  postQuiet : Nat
  outBurst : Nat
  deriving DecidableEq, Repr

/-- A line record. `guardMs` is in milliseconds; the periods named in `S` are in seconds. -/
structure Line where
  ltype : LineType
  privacy : Privacy
  policy : RecordPolicy
  state : LineState
  holders : List (PosId × Endpoint)
  monitors : List (PosId × Endpoint)
  holdOwner : Option PosId
  camp : List PosId
  bridge : Option BridgeId
  farPresent : Bool
  pendingRing : Bool
  guardMs : Nat
  offerS : Nat
  recallS : Nat
  alertS : Nat
  autoReleaseS : Nat
  reload : ReloadMask
  timer : Option LineTimer
  sig : SigParams
  watch : Bool
  deriving DecidableEq, Repr

/-! ## Signalling unit (R91, R97) -/

inductive RingState where
  | quiet | armed | burst | ringing | tail
  deriving DecidableEq, Repr

/-- An inbound ring detector with its glitch filter. Whether it is running follows from the line's type
and highway (R88), and is not stored. -/
structure RingDet where
  state : RingState
  quiet : Nat
  burst : Nat
  gap : Nat
  tail : Nat
  held : Bool
  lastPresent : Bool
  deriving DecidableEq, Repr

/-- An outbound generator: burst time remaining in milliseconds, and sustained presence. -/
structure Generator where
  burst : Nat
  sustained : Bool
  deriving DecidableEq, Repr

/-! ## Intercom block (R102, R103) -/

/-- A position's intercom state, with its current call. -/
inductive IcmState where
  | idle
  | calling (c : BridgeId)
  | alerted (c : BridgeId)
  | active (c : BridgeId)
  deriving DecidableEq, Repr

/-- The intercom side of a position: its state and its waiting slot. -/
structure IcmPos where
  state : IcmState
  waiting : Option BridgeId
  deriving DecidableEq, Repr

/-- The mode of a call. VOICE and TONE are modes of a DIRECT call, the others of a GROUP call. -/
inductive CallMode where
  | voice | tone | announceFirst | conference
  deriving DecidableEq, Repr

/-- An entry of a presented list; `waiting` marks a call that waits at the position. -/
structure Presented where
  pos : PosId
  waiting : Bool
  deriving DecidableEq, Repr

/-- An intercom call record. `group` is present for a GROUP call alone; `active` is the state ACTIVE;
`alert` is the time remaining of a RUNNING alert timer, in milliseconds. -/
structure Call where
  mode : CallMode
  group : Option GroupId
  caller : PosId × Endpoint
  presented : List Presented
  parties : List (PosId × Endpoint)
  active : Bool
  alert : Option Nat
  deriving DecidableEq, Repr

/-! ## Speaker-box block (R120) -/

inductive ClashPolicy where
  | localPriority | remotePriority
  deriving DecidableEq, Repr

/-- A trunk leg; `joined` is the leg state JOINED, otherwise OUT. -/
structure Leg where
  line : LineId
  gain : Nat
  joined : Bool
  deriving DecidableEq, Repr

/-- A granted entry; `timer` is the time remaining of a RUNNING talk-idle timer, in milliseconds. -/
structure Talker where
  pos : PosId
  key : KeyId
  timer : Option Nat
  deriving DecidableEq, Repr

/-- A hoot record. -/
structure Hoot where
  slots : Nat
  talkIdleS : Nat
  quietS : Nat
  policy : ClashPolicy
  shift : Nat
  record : Bool
  legs : List Leg
  granted : List Talker
  queue : List (PosId × KeyId)
  clashing : Bool
  live : Bool
  deriving DecidableEq, Repr

/-! ## Permission block (R141, R149, R152) -/

/-- A permission record. A set is held as its membership map: member `m` is bit `m`. -/
structure Perm where
  appearance : BitVec 192
  monitor : BitVec 192
  listen : BitVec 96
  talk : BitVec 96
  icm : Bool
  deriving DecidableEq, Repr

/-- The first violation a latch caught: the request kind and the refusal. -/
structure Violation where
  kind : ReqKind
  refusal : Result
  deriving DecidableEq, Repr

/-- A watch route. -/
inductive Route where
  | none | adm | recorder | both
  deriving DecidableEq, Repr

/-! ## Recording block (R154) -/

/-- An ASSIGNED recording channel record; a FREE channel is `none` in the table. -/
structure Channel where
  pos : PosId
  endpoint : Endpoint
  key : Option KeyId
  bridge : BridgeId
  since : Option Word
  deriving DecidableEq, Repr

/-! ## Detail log (R166, R167, R170) -/

/-- The kinds of detail record, in code order from 1 (R167, R191). -/
inductive RecordKind where
  | connect | retrieve | disconnect | hold | segment | talkGrant | talkEnd | icmStart | icmEnd
  | unrecorded | gap | clear
  | ringIn | ringOut | abandoned | permission | activity | clash
  deriving DecidableEq, Repr

/-- A detail record: its kind, and each optional field present or absent. `seq` and `time` are what the
log gives it when it is created. -/
structure Record where
  kind : RecordKind
  seq : Word := 0#32
  time : Option Word := none
  line : Option LineId := none
  bridge : Option BridgeId := none
  pos : Option PosId := none
  endpoint : Option Endpoint := none
  key : Option KeyId := none
  channel : Option ChanId := none
  hoot : Option BridgeId := none
  group : Option GroupId := none
  cause : Option Cause := none
  request : Option ReqKind := none
  parties : Option (List (PosId × Endpoint)) := none
  firstLost : Option Word := none
  lost : Option Word := none
  deriving DecidableEq, Repr

inductive LogLevel where
  | normal | throttled | lost
  deriving DecidableEq, Repr

/-- The loss episode: first-lost sequence and episode count. -/
structure Episode where
  first : Word
  count : Nat
  deriving DecidableEq, Repr

/-- The captured record of the gap capture, with the replaced flag. -/
structure Captured where
  seq : Word
  kind : RecordKind
  time : Option Word
  line : Option LineId
  pos : Option PosId
  replaced : Bool
  deriving DecidableEq, Repr

/-- The detail log. The fill is the length of `queue`; `captured` and `totalLost` are the gap capture. -/
structure Log where
  queue : List Record
  seq : Word
  time : Word
  hw : Nat
  lw : Nat
  level : LogLevel
  episode : Option Episode
  captured : Option Captured
  totalLost : Nat
  lastBatch : List Record
  deriving DecidableEq, Repr

/-! ## Control links (R179, R191) -/

/-- A talk state, as TALK_STATE carries it (R191). -/
inductive TalkState where
  | none | granted
  | queued (index : Nat)
  deriving DecidableEq, Repr

/-- The notices, in the order of their kind codes (R191). -/
inductive Notice where
  | lineState (L : LineId) (state : LineState) (holders : Nat) (owner : Option PosId) (camp : Nat)
  | ringIn (L : LineId)
  | farRing (L : LineId)
  | offer (L : LineId) (periodS : Nat)
  | offerLapsed (L : LineId) (cause : Cause) (offered : Bool)
  | recall (L : LineId) (owner : PosId)
  | icmAlert (c : BridgeId) (caller : PosId × Endpoint) (mode : CallMode) (voice : Bool)
  | icmWaiting (c : BridgeId) (caller : PosId × Endpoint)
  | icmState (p : PosId) (state : IcmState) (cause : Cause) (parties : Nat)
  | noAnswer (c : BridgeId) (cause : Cause)
  | talkState (hoot : Option BridgeId) (k : KeyId) (state : TalkState) (clashing : Bool) (cause : Cause)
  | talkDropped (hoot : BridgeId) (k : KeyId) (cause : Cause) (reason : Option Result)
  | clash (hoot : BridgeId) (cause : Cause) (policy : Option ClashPolicy)
  | hootState (hoot : BridgeId) (live : Bool)
  | keyCleared (p : PosId) (k : KeyId) (hoot : BridgeId)
  | bindingLost (p : PosId) (e : Endpoint) (was : Binding) (cause : Cause)
  | watch (L : LineId) (old new : LineState) (cause : Cause)
  | logLevel (old new : LogLevel) (fill : Nat)
  | resync (cause : Cause) (dropped : Nat)
  deriving DecidableEq, Repr

/-- The transaction state of a link. In WAIT, the number of filler bytes already driven. -/
inductive TxState where
  | idle
  | request
  | wait (fillers : Nat)
  | response
  | trailing
  deriving DecidableEq, Repr

/-- A link record. `resync` is resync-pending with its cause; in `mask`, bit `code - 1` of a notice kind
is 1 while the kind is enabled. The last three fields are the response in flight: its bytes not yet
driven, the number of notices it returns when it answers a NOTICE_READ, and the byte SDO drives (none
while the chip select is deasserted and SDO is high-impedance). -/
structure Link where
  tx : TxState
  frame : List Byte
  queue : List Notice
  mask : BitVec 18
  resync : Option Cause
  dropped : Nat
  attention : Bool
  response : List Byte
  readCount : Nat
  sdo : Option Byte
  deriving DecidableEq, Repr

/-! ## Highway interface (R192, R194) -/

/-- The state of a position or line highway: UP or DOWN, bad count, good count. -/
structure Highway where
  up : Bool
  bad : Nat
  good : Nat
  deriving DecidableEq, Repr

/-! ## The whole machine -/

/-- The state of the GV48, block by block, after the queue of commands that wait. -/
structure State where
  /-- The commands waiting, first in, first out. -/
  pending : List Instr
  positions : Tab Position 48
  bridges : Tab Bridge 96
  clips : Tab Nat 384
  detectors : Tab Detector 336
  vadLine : VadParams
  vadPos : VadParams
  lines : Tab Line 192
  rings : Tab RingDet 192
  gens : Tab Generator 192
  /-- The signalling unit's frame count (R88). -/
  frameCount : Nat
  icm : Tab IcmPos 48
  calls : Tab (Option Call) 96
  groups : Tab (List PosId) 32
  /-- The intercom alert period, in seconds (R105). -/
  icmAlertS : Nat
  hoots : Tab (Option Hoot) 96
  perms : Tab Perm 48
  latches : Tab (Option Violation) 6
  routes : Tab Route 192
  channels : Tab (Option Channel) 64
  /-- The intercom record policy is RECORD (R154). -/
  icmRecord : Bool
  /-- The time base is VALID (R162). -/
  timeValid : Bool
  log : Log
  links : Tab Link 6
  posHw : Tab Highway 4
  lineHw : Tab Highway 4
  /-- The frame sync is PRESENT (R192). -/
  syncPresent : Bool
  /-- A frame-sync pulse has arrived since the last millisecond of the reference clock: the time without a pulse that
  R192 measures, in the grain of the tick (notes/assumptions/7.md). -/
  pulsed : Bool
  /-- What the highways drive: the sample of each sink, the left and right sample of each recording
  channel, and the outbound presence bits (R32, R34, R97). -/
  sinkOut : Tab Half 384
  recOut : Tab (Half × Half) 64
  presenceOut : BitVec 192
  /-- The MODEL's own: the link whose request was taken last, none after an event (R186). -/
  origin : Option LinkId
  /-- The MODEL's own: the channels released in the request or event taken last (R156, R161). -/
  released : List ChanId
  /-- The MODEL's own: how many free choices of order have been drawn (Config.freeOrder). -/
  drawn : Nat
  deriving DecidableEq, Repr

/-- The faults of the block: none. Every command of the part has an effect in every state, by the rules
of the spec, so no command faults. -/
inductive Fault where
  deriving DecidableEq, Repr

/-- The refusals of the block. -/
inductive Refusal where
  /-- Raised by an arm of `exec` whose command has no meaning yet. Safe: nothing is claimed of it. -/
  | notModelled (mnemonic : String)
  deriving DecidableEq, Repr

/-! ## Power-on values -/

/-- Power-on value of key `k` (R2): side L for keys 0..3, R for keys 4..7. -/
def Key.reset (k : KeyId) : Key := ⟨.none, 1024, if k.val < 4 then .l else .r, false⟩

/-- R2. -/
def Position.reset : Position :=
  { isOpen := false, ha := .none, hb := .none, mic := .none, keys := Tab.ofFn Key.reset, icmSide := .l,
    icmT := 1024, feed := none, ea := 1024, eb := 1024, gainHA := 1024, gainHB := 1024, gainMIC := 1024,
    duck := 3 }

/-- R18: the record of a FREE bridge. -/
def Bridge.reset : Bridge :=
  { use := .free, contributors := [], period := 0, mask := .both, idle := none, active := false }

/-- R43. -/
def Detector.reset : Detector := ⟨0, false, 0, 0⟩

/-- R43. -/
def VadParams.reset : VadParams := ⟨600, 400, 8, 400⟩

/-- R55, R89. -/
def Line.reset : Line :=
  { ltype := .none, privacy := .single, policy := .none, state := .disabled, holders := [], monitors := [],
    holdOwner := none, camp := [], bridge := none, farPresent := false, pendingRing := false,
    guardMs := 300, offerS := 4, recallS := 0, alertS := 20, autoReleaseS := 0, reload := .both,
    timer := none, sig := ⟨200, 100, 40, 300, 1000⟩, watch := false }

/-- R91: the starting state of a detector whose pre-quiet is `preQuiet` samples. -/
def RingDet.start (preQuiet : Nat) : RingDet :=
  { state := if preQuiet = 0 then .armed else .quiet, quiet := 0, burst := 0, gap := 0, tail := 0,
    held := false, lastPresent := false }

/-- R141. -/
def Perm.reset : Perm := ⟨0#192, 0#192, 0#96, 0#96, false⟩

/-- R166. -/
def Log.reset : Log :=
  { queue := [], seq := 0#32, time := 0#32, hw := 768, lw := 512, level := .normal, episode := none,
    captured := none, totalLost := 0, lastBatch := [] }

/-- R179; no response is in flight and SDO is high-impedance. -/
def Link.reset : Link :=
  { tx := .idle, frame := [], queue := [], mask := BitVec.allOnes 18, resync := none, dropped := 0,
    attention := false, response := [], readCount := 0, sdo := none }

/-- R194. -/
def Highway.reset : Highway := ⟨false, 0, 0⟩

/-- The machine right after power-on or RESET_N (R196): every block at the power-on values that its
chapter gives, and no command waiting. -/
def State.reset : State :=
  { pending := []
    positions := Tab.fill 48 Position.reset
    bridges := Tab.fill 96 Bridge.reset
    clips := Tab.fill 384 0
    detectors := Tab.fill 336 Detector.reset
    vadLine := VadParams.reset
    vadPos := VadParams.reset
    lines := Tab.fill 192 Line.reset
    rings := Tab.fill 192 (RingDet.start 50)
    gens := Tab.fill 192 ⟨0, false⟩
    frameCount := 0
    icm := Tab.fill 48 ⟨.idle, none⟩
    calls := Tab.fill 96 none
    groups := Tab.fill 32 []
    icmAlertS := 15
    hoots := Tab.fill 96 none
    perms := Tab.fill 48 Perm.reset
    latches := Tab.fill 6 none
    routes := Tab.fill 192 .none
    channels := Tab.fill 64 none
    icmRecord := false
    timeValid := false
    log := Log.reset
    links := Tab.fill 6 Link.reset
    posHw := Tab.fill 4 Highway.reset
    lineHw := Tab.fill 4 Highway.reset
    syncPresent := false
    pulsed := false
    sinkOut := Tab.fill 384 0#16
    recOut := Tab.fill 64 (0#16, 0#16)
    presenceOut := 0#192
    origin := none
    released := []
    drawn := 0 }

end Sys2Proof.Machine
end

