-- ==== Sys2Proof/Machine/Ops.lean ====
section
/-! DEFINITION. The numbers of section 4 (which source, sink and link belong to what), reading and
changing one record of each table, and the start of a step. -/

namespace Sys2Proof.Machine

/-! ## Numbering (section 4 of 00_scope.md, R1, R55) -/

/-- Source `3p + e` of position `p`. -/
def posSource (p : PosId) (e : Fin 3) : SourceId := ⟨3 * p.val + e.val, by omega⟩

/-- The MIC source of position `p`. -/
def micSource (p : PosId) : SourceId := posSource p 2

/-- Source `144 + L` of line `L`. -/
def lineSource (L : LineId) : SourceId := ⟨144 + L.val, by omega⟩

/-- The source of a talk endpoint; a key contributes none (R5). -/
def endpointSource (p : PosId) : Endpoint → Option SourceId
  | .ha => some (posSource p 0)
  | .hb => some (posSource p 1)
  | .mic => some (posSource p 2)
  | .key _ => none

/-- Sink `4p + s` of position `p`. -/
def posSink (p : PosId) (k : Fin 4) : SinkId := ⟨4 * p.val + k.val, by omega⟩

/-- Sink `192 + L` of line `L`. -/
def lineSink (L : LineId) : SinkId := ⟨192 + L.val, by omega⟩

/-- The loudspeaker of a side. -/
def speakerSink (p : PosId) : Side → SinkId
  | .l => posSink p 2
  | .r => posSink p 3

/-- The link's number: PC0..PC3, ADM, REC (R191). -/
def linkIdx : LinkId → Fin 6
  | .pc n => ⟨n.val, by omega⟩
  | .adm => 4
  | .recorder => 5

/-- The link of a number. -/
def linkOfIdx (i : Fin 6) : LinkId :=
  if h : i.val < 4 then .pc ⟨i.val, h⟩ else if i.val = 4 then .adm else .recorder

/-- The six links, in the order of their numbers. -/
def allLinks : List LinkId := (ids 6).map linkOfIdx

/-- The highway, and the PC link, that serves position `p` (R1). -/
def hwOfPos (p : PosId) : HwId := ⟨p.val / 12, by omega⟩
def linkOfPos (p : PosId) : LinkId := .pc (hwOfPos p)

/-- The line highway that carries line `L` (R55). -/
def hwOfLine (L : LineId) : HwId := ⟨L.val / 48, by omega⟩

/-- The positions of position highway `n`, and the lines of line highway `n`, ascending. -/
def positionsOf (n : HwId) : List PosId := (ids 48).filter fun p => hwOfPos p = n
def linesOf (n : HwId) : List LineId := (ids 192).filter fun L => hwOfLine L = n

/-! ## Bindings of a position record (R2) -/

/-- The binding value of an endpoint or key. -/
def Position.binding (r : Position) : Endpoint → Binding
  | .ha => r.ha
  | .hb => r.hb
  | .mic => r.mic
  | .key k => (r.keys.get k).binding

/-- The binding value of an endpoint or key replaced; a key keeps its T, side and priority (R11). -/
def Position.setBinding (r : Position) (e : Endpoint) (v : Binding) : Position :=
  match e with
  | .ha => { r with ha := v }
  | .hb => { r with hb := v }
  | .mic => { r with mic := v }
  | .key k => { r with keys := r.keys.modify k fun x => { x with binding := v } }

/-- The stored gain of a talk endpoint (R2). -/
def Position.gain (r : Position) : Endpoint → Nat
  | .ha => r.gainHA
  | .hb => r.gainHB
  | .mic => r.gainMIC
  | .key _ => 0

/-! ## Changing one record of a table -/

def State.modPos (s : State) (p : PosId) (f : Position → Position) : State :=
  { s with positions := s.positions.modify p f }
def State.modBridge (s : State) (b : BridgeId) (f : Bridge → Bridge) : State :=
  { s with bridges := s.bridges.modify b f }
def State.modDet (s : State) (x : SourceId) (f : Detector → Detector) : State :=
  { s with detectors := s.detectors.modify x f }
def State.modLine (s : State) (L : LineId) (f : Line → Line) : State :=
  { s with lines := s.lines.modify L f }
def State.modRing (s : State) (L : LineId) (f : RingDet → RingDet) : State :=
  { s with rings := s.rings.modify L f }
def State.modGen (s : State) (L : LineId) (f : Generator → Generator) : State :=
  { s with gens := s.gens.modify L f }
def State.modIcm (s : State) (p : PosId) (f : IcmPos → IcmPos) : State :=
  { s with icm := s.icm.modify p f }
def State.modCall (s : State) (c : BridgeId) (f : Call → Call) : State :=
  { s with calls := s.calls.modify c (Option.map f) }
def State.modHoot (s : State) (b : BridgeId) (f : Hoot → Hoot) : State :=
  { s with hoots := s.hoots.modify b (Option.map f) }
def State.setCall (s : State) (c : BridgeId) (v : Option Call) : State :=
  { s with calls := s.calls.set c v }
def State.setHoot (s : State) (b : BridgeId) (v : Option Hoot) : State :=
  { s with hoots := s.hoots.set b v }
def State.modPerm (s : State) (p : PosId) (f : Perm → Perm) : State :=
  { s with perms := s.perms.modify p f }
def State.setLatch (s : State) (l : LinkId) (v : Option Violation) : State :=
  { s with latches := s.latches.set (linkIdx l) v }
def State.setChan (s : State) (c : ChanId) (v : Option Channel) : State :=
  { s with channels := s.channels.set c v }
def State.modLink (s : State) (l : LinkId) (f : Link → Link) : State :=
  { s with links := s.links.modify (linkIdx l) f }
def State.modLog (s : State) (f : Log → Log) : State := { s with log := f s.log }

/-! ## Reading -/

/-- The link record. -/
def State.link (s : State) (l : LinkId) : Link := s.links.get (linkIdx l)

/-- The latch of a link. -/
def State.latch (s : State) (l : LinkId) : Option Violation := s.latches.get (linkIdx l)

/-- The binding value of an endpoint or key of a position. -/
def State.binding (s : State) (p : PosId) (e : Endpoint) : Binding := (s.positions.get p).binding e

/-- Line `L` stands in `p`'s appearance set, in its monitor set; bridge `b` in its listen set, in its
talk set (R141). -/
def State.appears (s : State) (p : PosId) (L : LineId) : Bool := (s.perms.get p).appearance.getLsbD L.val
def State.mayMonitor (s : State) (p : PosId) (L : LineId) : Bool := (s.perms.get p).monitor.getLsbD L.val
def State.mayListen (s : State) (p : PosId) (b : BridgeId) : Bool := (s.perms.get p).listen.getLsbD b.val
def State.mayTalk (s : State) (p : PosId) (b : BridgeId) : Bool := (s.perms.get p).talk.getLsbD b.val

/-- The position's highway is UP. -/
def State.posUp (s : State) (p : PosId) : Bool := (s.posHw.get (hwOfPos p)).up

/-- The line's highway is UP. -/
def State.lineUp (s : State) (L : LineId) : Bool := (s.lineHw.get (hwOfLine L)).up

/-- The talk endpoints and keys of a position, in the order HA, HB, MIC, key 0 to key 7. -/
def allEndpoints : List Endpoint := [.ha, .hb, .mic] ++ (ids 8).map .key

/-- The endpoints that can hold a line, in the order of R14 step 5. -/
def lineEndpoints : List Endpoint := [.ha, .hb] ++ (ids 8).map .key

/-- The key of `p` that listens to hoot `b`, if one does: a position has one key per hoot at most (R10). -/
def Position.keyOn (r : Position) (b : BridgeId) : Option KeyId :=
  (ids 8).find? fun k => (r.keys.get k).binding == .listen b

/-- A fold over the numbers of a list, left to right. -/
def State.each {α : Type} (s : State) (xs : List α) (f : α → State → State) : State :=
  xs.foldl (fun t x => f x t) s

/-! ## The start of a step, and free choices of order -/

/-- A request arriving on link `o`, or an event (`none`), is about to be taken: it is the one that
routing (R186) and assignment (R156) look at. -/
def State.begin (s : State) (o : Option LinkId) : State := { s with origin := o, released := [] }

/-- `xs` in an order that the free value decides: each entry is put at a place that `Config.freeOrder`
names among those already placed. One entry or none leaves nothing to decide. -/
def arrange {α : Type} : Nat → List α → List α
  | _, [] => []
  | _, [x] => [x]
  | seed, x :: y :: r =>
    let t := arrange (seed + 1) (y :: r)
    let k := Config.freeOrder seed % (t.length + 1)
    t.take k ++ x :: t.drop k

/-- Events that fall together are taken one after another, in an order the spec does not fix (R51,
R194): the free value decides it. -/
def State.inFreeOrder {α : Type} (s : State) (xs : List α) (f : α → State → State) : State :=
  ({ s with drawn := s.drawn + (xs.length - 1) } : State).each (arrange s.drawn xs) f

end Sys2Proof.Machine
end

