-- ==== Sys2Proof/Machine/Layout.lean ====
section
/-! DEFINITION. The byte layouts of responses, notice entries and delivered detail records (R190, R191).
Where the rules fix no form (a field of a response that is absent, a time remaining, a source or sink
id), the form is the model's choice: notes/assumptions/8.md and 9.md. -/

namespace Sys2Proof.Machine

/-- A number in one, two and four bytes, most significant byte first (R190). -/
def b1 (n : Nat) : List Byte := [BitVec.ofNat 8 n]
def b2 (n : Nat) : List Byte := halfBytes (BitVec.ofNat 16 n)
def b4 (n : Nat) : List Byte := wordBytes (BitVec.ofNat 32 n)

/-- A yes-or-no field (R191). -/
def bYes (b : Bool) : List Byte := b1 (if b then 1 else 0)

/-- A one-byte field that may be none: 0xFF then (R191). -/
def bOpt : Option Nat → List Byte
  | some n => b1 n
  | none => [0xFF#8]

/-- A four-byte field that may be none: 0xFF in each byte then (R191). -/
def b4Opt : Option Nat → List Byte
  | some n => b4 n
  | none => [0xFF#8, 0xFF#8, 0xFF#8, 0xFF#8]

/-- A list: a count byte and the entries (R190). -/
def bList {α : Type} (f : α → List Byte) (xs : List α) : List Byte := b1 xs.length ++ xs.flatMap f

/-! ## Codes (R190, R191) -/

def Result.code (r : Result) : Nat := r.ctorIdx
def ReqKind.code (k : ReqKind) : Nat := k.ctorIdx + 1
def RecordKind.code (k : RecordKind) : Nat := k.ctorIdx + 1
def LineType.code (t : LineType) : Nat := t.ctorIdx
def Privacy.code (t : Privacy) : Nat := t.ctorIdx
def RecordPolicy.code (t : RecordPolicy) : Nat := t.ctorIdx
def LineState.code (t : LineState) : Nat := t.ctorIdx
def ReloadMask.code (t : ReloadMask) : Nat := t.ctorIdx
def RingState.code (t : RingState) : Nat := t.ctorIdx
def ClashPolicy.code (t : ClashPolicy) : Nat := t.ctorIdx
def LogLevel.code (t : LogLevel) : Nat := t.ctorIdx
def Route.code (t : Route) : Nat := t.ctorIdx
def Side.code (t : Side) : Nat := t.ctorIdx
def Origin.code (t : Origin) : Nat := t.ctorIdx

/-- None 0, GUARD 1, OFFER 2, ALERT 3, RECALL 4 (R55). -/
def timerCode : Option LineTimer → Nat
  | none => 0
  | some t => t.kind.ctorIdx + 1

/-- FREE 0, LINE 1, ICM 2, HOOT 3 (R18). -/
def BridgeUse.code : BridgeUse → Nat
  | .free => 0
  | .line _ => 1
  | .icm => 2
  | .hoot => 3

/-- IDLE 0, CALLING 1, ALERTED 2, ACTIVE 3 (R102). -/
def IcmState.code : IcmState → Nat
  | .idle => 0
  | .calling _ => 1
  | .alerted _ => 2
  | .active _ => 3

/-- The current call of an intercom state (R102). -/
def IcmState.call : IcmState → Option BridgeId
  | .idle => none
  | .calling c => some c
  | .alerted c => some c
  | .active c => some c

/-- DIRECT 0, GROUP 1 (R103). -/
def CallMode.kindCode : CallMode → Nat
  | .voice => 0
  | .tone => 0
  | .announceFirst => 1
  | .conference => 1

/-- VOICE 0 and TONE 1, ANNOUNCE_FIRST 0 and CONFERENCE 1 (R103). -/
def CallMode.code : CallMode → Nat
  | .voice => 0
  | .tone => 1
  | .announceFirst => 0
  | .conference => 1

/-- The cause codes: in the order of R191, then the two groups of PERMISSION records. -/
def Cause.code : Cause → Nat
  | .latchCleared l => 0x40 + (linkIdx l).val
  | .wrongLink l => 0x80 + 2 * (linkIdx l).val
  | .notPermitted l => 0x81 + 2 * (linkIdx l).val
  | c => c.ctorIdx

/-- HA 0, HB 1, MIC 2, key k 8+k (R190). -/
def Endpoint.code : Endpoint → Nat
  | .ha => 0
  | .hb => 1
  | .mic => 2
  | .key k => 8 + k.val

/-- A position and an endpoint. -/
def bParty (x : PosId × Endpoint) : List Byte := b1 x.1.val ++ b1 x.2.code

/-- A binding value: a code and what it names (R191). -/
def bBinding : Binding → List Byte
  | .none => [0#8, 0xFF#8]
  | .holder L => b1 1 ++ b1 L.val
  | .monitor L => b1 2 ++ b1 L.val
  | .icm c => b1 3 ++ b1 c.val
  | .talk k => b1 4 ++ b1 k.val
  | .listen b => b1 5 ++ b1 b.val

/-- A membership map (R190). -/
def bMap192 (m : BitVec 192) : List Byte := mapBytes 24 m
def bMap96 (m : BitVec 96) : List Byte := mapBytes 12 m

/-! ## Responses (R190) -/

/-- A result and the body that goes with it. -/
structure Response where
  result : Result
  body : List Byte
  deriving DecidableEq, Repr

/-- A response without a body. -/
def Response.bare (r : Result) : Response := ⟨r, []⟩

/-- The response frame after its start byte: the kind echoed, the result, the body length, the body. -/
def Response.bytes (kind : Byte) (r : Response) : List Byte :=
  kind :: BitVec.ofNat 8 r.result.code :: (b2 r.body.length ++ r.body)

/-! ## Notice entries (R191) -/

/-- The kind code of a notice, 1..19. -/
def Notice.code (n : Notice) : Nat := n.ctorIdx + 1

/-- NONE 0, GRANTED 1, QUEUED 2 (R191). -/
def TalkState.code : TalkState → Nat
  | .none => 0
  | .granted => 1
  | .queued _ => 2

/-- The index byte of a talk state: 0xFF unless QUEUED (R191). -/
def TalkState.index : TalkState → List Byte
  | .queued i => b1 i
  | _ => [0xFF#8]

/-- The fields of a notice, in the order its rule names them (R191). -/
def Notice.fields : Notice → List Byte
  | .lineState L st holders owner camp =>
    b1 L.val ++ b1 st.code ++ b2 holders ++ bOpt (owner.map (·.val)) ++ b2 camp
  | .ringIn L => b1 L.val
  | .farRing L => b1 L.val
  | .offer L period => b1 L.val ++ b2 period
  | .offerLapsed L cause offered => b1 L.val ++ b1 cause.code ++ bYes offered
  | .recall L owner => b1 L.val ++ b1 owner.val
  | .icmAlert c caller mode voice =>
    b1 c.val ++ bParty caller ++ b1 mode.kindCode ++ b1 mode.code ++ bYes voice
  | .icmWaiting c caller => b1 c.val ++ bParty caller
  | .icmState p st cause parties =>
    b1 p.val ++ b1 st.code ++ bOpt (st.call.map (·.val)) ++ b1 cause.code ++ b2 parties
  | .noAnswer c cause => b1 c.val ++ b1 cause.code
  | .talkState hoot k st clashing cause =>
    bOpt (hoot.map (·.val)) ++ b1 k.val ++ b1 st.code ++ st.index ++ bYes clashing ++ b1 cause.code
  | .talkDropped hoot k cause reason =>
    b1 hoot.val ++ b1 k.val ++ b1 cause.code ++ bOpt (reason.map Result.code)
  | .clash hoot cause policy => b1 hoot.val ++ b1 cause.code ++ bOpt (policy.map ClashPolicy.code)
  | .hootState hoot live => b1 hoot.val ++ b1 (if live then 0 else 1)
  | .keyCleared p k hoot => b1 p.val ++ b1 k.val ++ b1 hoot.val
  | .bindingLost p e was cause => b1 p.val ++ b1 e.code ++ bBinding was ++ b1 cause.code
  | .watch L old new cause => b1 L.val ++ b1 old.code ++ b1 new.code ++ b1 cause.code
  | .logLevel old new fill => b1 old.code ++ b1 new.code ++ b2 fill
  | .resync cause dropped => b1 cause.code ++ b2 dropped

/-- A notice entry as NOTICE_READ delivers it. -/
def Notice.bytes (n : Notice) : List Byte := b1 n.code ++ b1 n.fields.length ++ n.fields

/-! ## Delivered detail records (R191) -/

/-- A one-byte field of a record, written when present. -/
def recByte : Option Nat → List Byte
  | some n => b1 n
  | none => []

/-- Everything of a delivered record after its length byte. -/
def Record.tailBytes (r : Record) : List Byte :=
  wordBytes r.seq ++ b1 r.kind.code ++
    halfBytes (presence 16 [r.time.isSome, r.line.isSome, r.bridge.isSome, r.pos.isSome,
      r.endpoint.isSome, r.key.isSome, r.channel.isSome, r.hoot.isSome, r.group.isSome,
      r.cause.isSome, r.request.isSome, r.parties.isSome, r.firstLost.isSome, r.lost.isSome]) ++
    wrOpt wordBytes r.time ++ recByte (r.line.map (·.val)) ++ recByte (r.bridge.map (·.val)) ++
    recByte (r.pos.map (·.val)) ++ recByte (r.endpoint.map Endpoint.code) ++
    recByte (r.key.map (·.val)) ++ recByte (r.channel.map (·.val)) ++ recByte (r.hoot.map (·.val)) ++
    recByte (r.group.map (·.val)) ++ recByte (r.cause.map Cause.code) ++
    recByte (r.request.map ReqKind.code) ++ wrOpt (bList bParty) r.parties ++
    wrOpt wordBytes r.firstLost ++ wrOpt wordBytes r.lost

/-- A detail record as LOG_READ delivers it. -/
def Record.bytes (r : Record) : List Byte := b1 r.tailBytes.length ++ r.tailBytes

end Sys2Proof.Machine
end

