-- ==== Sys2Proof/Machine/Notices.lean ====
section
/-! DEFINITION. The notice queues of the links: taking one notice (R183), and routing (R186). -/

namespace Sys2Proof.Machine

/-- The queue replaced; the attention output follows it (R187). -/
def Link.setQueue (k : Link) (q : List Notice) : Link := { k with queue := q, attention := !q.isEmpty }

/-- The kind of notice is enabled in the link's mask; RESYNC cannot be disabled (R183, R185). -/
def Link.enabled (k : Link) (n : Notice) : Bool := n.code == 19 || k.mask.getLsbD (n.code - 1)

/-- A count that stops at its largest value (R179, R33, R170). -/
def satCount (n : Nat) : Nat := min n Config.countTop

/-- How a link takes a notice (R183): masked, dropped with resync-pending, or appended at the tail. -/
def Link.enqueue (k : Link) (n : Notice) : Link :=
  if !k.enabled n then k
  else if k.resync.isSome || Config.queueCapacity ≤ k.queue.length then
    { k with resync := some (k.resync.getD .overflow), dropped := satCount (k.dropped + 1) }
  else k.setQueue (k.queue ++ [n])

/-- A notice submitted to the links of `dest`: each takes one copy, independently (R183, R186). -/
def post (dest : LinkId → Bool) (n : Notice) (s : State) : State :=
  { s with links := s.links.mapIdx fun i k => if dest (linkOfIdx i) then k.enqueue n else k }

/-- Routing key LINE: the links of every position whose appearance set holds the line (R142, R186). -/
def lineRoute (s : State) (L : LineId) (l : LinkId) : Bool :=
  (ids 48).any fun p => linkOfPos p = l && s.appears p L

/-- Routing key POSITION: the link of each position named; also ADM, while a request that arrived on ADM
is being taken (R186). -/
def posRoute (s : State) (ps : List PosId) (l : LinkId) : Bool :=
  ps.any (fun p => linkOfPos p = l) || (!ps.isEmpty && l = .adm && s.origin = some .adm)

/-- Routing key LISTENERS: the links of the positions that have a key bound to the hoot (R186). -/
def listenerRoute (s : State) (b : BridgeId) (l : LinkId) : Bool :=
  (ids 48).any fun p => linkOfPos p = l && ((s.positions.get p).keyOn b).isSome

/-- Routing key WATCH: the links of a watch route (R153, R186). -/
def watchRoute : Route → LinkId → Bool
  | .none, _ => false
  | .adm, l => l = .adm
  | .recorder, l => l = .recorder
  | .both, l => l = .adm || l = .recorder

/-- A notice with routing key LINE, POSITION, LISTENERS and RECORDER. -/
def postLine (L : LineId) (n : Notice) (s : State) : State := post (lineRoute s L) n s
def postPos (p : PosId) (n : Notice) (s : State) : State := post (posRoute s [p]) n s
def postMany (ps : List PosId) (n : Notice) (s : State) : State := post (posRoute s ps) n s
def postListeners (b : BridgeId) (n : Notice) (s : State) : State := post (listenerRoute s b) n s
def postRecorder (n : Notice) (s : State) : State := post (fun l => l = .recorder) n s

end Sys2Proof.Machine
end

