-- ==== Sys2Proof/Machine/Log.lean ====
section
/-! DEFINITION. The detail log: submission and admission of a record (R167..R170), its states (R177), and
leaving LOST (R171). -/

namespace Sys2Proof.Machine

/-- The CALL class (R167); every other kind is of the OTHER class. -/
def RecordKind.isCall : RecordKind → Bool
  | .connect | .retrieve | .disconnect | .hold | .segment | .talkGrant | .talkEnd | .icmStart | .icmEnd
  | .unrecorded | .gap | .clear => true
  | .ringIn | .ringOut | .abandoned | .permission | .activity | .clash => false

/-- ACTIVITY and CLASH are suppressible (R167). -/
def RecordKind.suppressible : RecordKind → Bool
  | .activity | .clash => true
  | _ => false

/-- The number of records in the queue (R166). -/
def Log.fill (g : Log) : Nat := g.queue.length

/-- The log state changed, with its LOG_LEVEL notice (R177). -/
def setLevel (new : LogLevel) (s : State) : State :=
  postRecorder (.logLevel s.log.level new s.log.fill) (s.modLog fun g => { g with level := new })

/-- A created record: its sequence number, and its time while the time base is VALID (R167). -/
def stamp (s : State) (r : Record) : Record :=
  { r with seq := s.log.seq, time := if s.timeValid then some s.log.time else none }

/-- A record created and admitted at the tail (R167, R168). -/
def admitRecord (r : Record) (s : State) : State :=
  s.modLog fun g => { g with queue := g.queue ++ [stamp s r], seq := g.seq + 1 }

/-- What the gap capture holds of a record (R170). -/
def capturedOf (r : Record) (replaced : Bool) : Captured := ⟨r.seq, r.kind, r.time, r.line, r.pos, replaced⟩

/-- How the capture takes a lost record (R170). -/
def capture (r : Record) : Option Captured → Option Captured
  | none => some (capturedOf r false)
  | some c => some (if !c.kind.isCall && !c.replaced && r.kind.isCall then capturedOf r true else c)

/-- The loss episode counts a lost record of number `n`; the first loss opens it (R169). -/
def Episode.count1 (n : Word) : Option Episode → Option Episode
  | none => some ⟨n, 1⟩
  | some e => some { e with count := min (e.count + 1) (2 ^ 32 - 1) }

/-- A record created and lost (R167, R169, R170). -/
def lose (r : Record) (s : State) : State :=
  s.modLog fun g => { g with
    seq := g.seq + 1
    episode := Episode.count1 g.seq g.episode
    captured := capture (stamp s r) g.captured
    totalLost := satCount (g.totalLost + 1) }

/-- NORMAL with a fill of Hw or more becomes THROTTLED (R168, R171 step 4, R176). -/
def throttle (s : State) : State :=
  if s.log.level = .normal ∧ s.log.hw ≤ s.log.fill then setLevel .throttled s else s

/-- A record submitted to the log, taken by the log state that stands (R168, R169). -/
def submit (r : Record) (s : State) : State :=
  match s.log.level with
  | .normal => throttle (admitRecord r s)
  | .throttled =>
    if r.kind.suppressible then s
    else if s.log.fill < Config.logCapacity then admitRecord r s
    else setLevel .lost (lose r s)
  | .lost => lose r s

/-- The GAP record of a loss episode (R171 step 1). -/
def gapRecord (g : Log) : Record :=
  { kind := .gap, firstLost := g.episode.map (·.first),
    lost := g.episode.map fun e => BitVec.ofNat 32 e.count }

/-- Leaving LOST (R171): GAP is created and admitted, the episode ends, the log becomes NORMAL, and
THROTTLED at once when the fill is then Hw. -/
def leaveLost (s : State) : State :=
  admitRecord (gapRecord s.log) s
    |>.modLog (fun g => { g with episode := none })
    |> setLevel .normal
    |> throttle

/-- The state re-evaluated against the fill, after a read (R172 step 3) or new limits (R176). -/
def reevaluate (s : State) : State :=
  match s.log.level with
  | .normal => throttle s
  | .throttled => if s.log.fill ≤ s.log.lw then setLevel .normal s else s
  | .lost => if s.log.fill ≤ s.log.lw then leaveLost s else s

end Sys2Proof.Machine
end

