-- ==== Sys2Proof/Machine/Flags.lean ====
section
/-! DEFINITION. What a bridge computes from the activity of its contributors: the activity flag (R37),
and the idle timer (R39). -/

namespace Sys2Proof.Machine

/-- A source of class LINE; the others are of class POSITION (R38, R43). -/
def isLineSource (x : SourceId) : Bool := 144 ≤ x.val

/-- The reload mask selects a source by its class (R38). -/
def ReloadMask.selects : ReloadMask → SourceId → Bool
  | .line, x => isLineSource x
  | .position, x => !isLineSource x
  | .both, _ => true

/-- The activity state of a source, as the detector holds it. -/
def State.active (s : State) (x : SourceId) : Bool := (s.detectors.get x).active

/-- The source stands on the contributor list. -/
def Bridge.has (r : Bridge) (x : SourceId) : Bool := r.contributors.any fun c => c.source = x

/-- The activity flag of a list: some entry is ACTIVE (R37). -/
def anyActive (s : State) (cs : List Contrib) : Bool := cs.any fun c => s.active c.source

/-- Some entry of the bridge that its reload mask selects is ACTIVE. -/
def selectedActive (s : State) (r : Bridge) : Bool :=
  r.contributors.any fun c => r.mask.selects c.source && s.active c.source

/-- A timer started from a period; a period of 0 leaves it STOPPED (R39). -/
def startIdle (period : Nat) : Option Nat := if period = 0 then none else some period

/-- The flag re-evaluated (R37). -/
def Bridge.reflag (s : State) (r : Bridge) : Bridge := { r with active := anyActive s r.contributors }

/-- The idle timer taken as after a join, or at a timer ask (R39). -/
def Bridge.rearm (s : State) (r : Bridge) : Bridge :=
  { r with idle := if selectedActive s r then none else startIdle r.period }

/-- How a bridge takes an activity event of an entry (R37, R39): ACTIVITY_START of a selected entry stops
the timer, and the ACTIVITY_END that leaves no selected entry ACTIVE starts it. -/
def Bridge.takeActivity (s : State) (x : SourceId) (started : Bool) (r : Bridge) : Bridge :=
  let r := r.reflag s
  if !r.mask.selects x then r
  else if started then { r with idle := none }
  else if selectedActive s r then r
  else { r with idle := startIdle r.period }

end Sys2Proof.Machine
end

