-- ==== Sys2Proof/Machine/Pool.lean ====
section
/-! DEFINITION. The bridge pool: allocation, joins and leaves, gains and reduction shifts, conference
entries, the timer ask, and the release of a bridge (R19..R26, R38). -/

namespace Sys2Proof.Machine

/-- The lowest-numbered FREE bridge, as the pool answers an allocation ask (R20). -/
def freeBridge (s : State) : Option BridgeId :=
  (ids 96).find? fun b => (s.bridges.get b).use = .free

/-- A bridge taken by a kind and owner, with an empty list and a STOPPED timer (R19, R20). -/
def claimBridge (b : BridgeId) (use : BridgeUse) (period : Nat) (mask : ReloadMask) (s : State) : State :=
  s.modBridge b fun _ => { Bridge.reset with use := use, period := period, mask := mask }

/-- A bridge freed: its entries, timer, flag and owner go (R21). -/
def dropBridge (b : BridgeId) (s : State) : State := s.modBridge b fun _ => Bridge.reset

/-- The pool's answer to a join ask: none when it accepts (R22). -/
def joinAnswer (s : State) (b : BridgeId) (x : SourceId) : Option Result :=
  if (s.bridges.get b).has x then some .duplicate
  else if Config.maxContributors ≤ (s.bridges.get b).contributors.length then some .full
  else none

/-- A join ask: an accepted source is appended, its activity is taken into the flag, and the idle timer
is restarted (R22, R39). A refused one changes nothing. -/
def join (b : BridgeId) (x : SourceId) (gain shift : Nat) (origin : Origin) (s : State) : State :=
  match joinAnswer s b x with
  | some _ => s
  | none => s.modBridge b fun r =>
    ({ r with contributors := r.contributors ++ [⟨x, min gain 4095, min shift 12, origin⟩] } : Bridge)
      |>.reflag s |>.rearm s

/-- A leave ask: the entry is removed, the flag re-evaluated, and the idle timer started when the last
selected ACTIVE entry left (R23). A source that is not on the list changes nothing. -/
def leave (b : BridgeId) (x : SourceId) (s : State) : State :=
  s.modBridge b fun r =>
    if !r.has x then r
    else
      let t := ({ r with contributors := r.contributors.filter fun c => c.source ≠ x } : Bridge).reflag s
      if r.mask.selects x && s.active x && !selectedActive s t then { t with idle := startIdle t.period }
      else t

/-- An entry's gain set, wherever the source is a contributor (R24). -/
def setGain (x : SourceId) (gain : Nat) (s : State) : State :=
  { s with bridges := s.bridges.map fun r => { r with
      contributors := r.contributors.map fun c => if c.source = x then { c with gain := min gain 4095 } else c } }

/-- An entry's gain set on one bridge (R24). -/
def setGainOn (b : BridgeId) (x : SourceId) (gain : Nat) (s : State) : State :=
  s.modBridge b fun r => { r with
    contributors := r.contributors.map fun c => if c.source = x then { c with gain := min gain 4095 } else c }

/-- The reduction shift set on the entries of a bridge that `sel` picks (R24). -/
def setShift (b : BridgeId) (sel : SourceId → Bool) (shift : Nat) (s : State) : State :=
  s.modBridge b fun r => { r with
    contributors := r.contributors.map fun c => if sel c.source then { c with shift := min shift 12 } else c }

/-- The entry of a source on a bridge. -/
def entryOf (s : State) (b : BridgeId) (x : SourceId) : Option Contrib :=
  (s.bridges.get b).contributors.find? fun c => c.source = x

/-- The source stands on the bridge as a CONFERENCE entry. -/
def isConference (s : State) (b : BridgeId) (x : SourceId) : Bool :=
  (s.bridges.get b).contributors.any fun c => c.source = x && c.origin = .conference

/-- A CONFERENCE entry of a source leaves a bridge (R26). -/
def leaveConference (b : BridgeId) (x : SourceId) (s : State) : State :=
  if isConference s b x then leave b x s else s

/-- Every CONFERENCE entry of a line's source leaves, on every bridge (R26). -/
def endConferences (L : LineId) (s : State) : State :=
  s.each (ids 96) fun b => leaveConference b (lineSource L)

/-- Every CONFERENCE entry on a bridge leaves (R26). -/
def clearConference (b : BridgeId) (s : State) : State :=
  s.each ((s.bridges.get b).contributors.map (·.source)) fun x => leaveConference b x

/-- A timer ask: the period and mask are stored, and the timer is re-evaluated as for a join (R38). -/
def timerAsk (b : BridgeId) (period : Nat) (mask : ReloadMask) (s : State) : State :=
  s.modBridge b fun r => ({ r with period := period, mask := mask } : Bridge).rearm s

/-- How many bridges are of kind HOOT (R19). -/
def hootCount (s : State) : Nat := (s.bridges.list.filter fun r => r.use = .hoot).length

end Sys2Proof.Machine
end

