-- ==== Sys2Proof/Machine/Recording.lean ====
section
/-! DEFINITION. The recording channels: assignment, carrying, release, and the records of the recording
block (R154..R163). -/

namespace Sys2Proof.Machine

/-- The channel that the binding of an endpoint holds (R154): one endpoint holds one at most. -/
def channelAt (s : State) (p : PosId) (e : Endpoint) : Option ChanId :=
  (ids 64).find? fun c => match s.channels.get c with
    | some r => r.pos = p && r.endpoint = e
    | none => false

/-- The lowest FREE channel that was not released earlier in the same request or event (R156, R161). -/
def freeChannel (s : State) : Option ChanId :=
  (ids 64).find? fun c => (s.channels.get c).isNone && !s.released.contains c

/-- Some channel is FREE (R157). -/
def anyFree (s : State) : Bool := s.channels.list.any Option.isNone

/-- The time base value for a channel's since field (R156). -/
def since (s : State) : Option Word := if s.timeValid then some s.log.time else none

/-- The UNRECORDED record of a binding that found no FREE channel (R163). -/
def unrecorded (p : PosId) (e : Endpoint) (key : Option KeyId) (b : BridgeId) (line : Option LineId)
    (hoot : Option BridgeId) : Record :=
  { kind := .unrecorded, pos := some p, endpoint := some e, key := key, bridge := some b, line := line,
    hoot := hoot, cause := some .noChannel }

/-- A binding that wants a channel is recorded: the lowest FREE channel becomes ASSIGNED, or an UNRECORDED
record is written (R156, R163). -/
def assign (p : PosId) (e : Endpoint) (key : Option KeyId) (b : BridgeId) (line : Option LineId)
    (hoot : Option BridgeId) (s : State) : State :=
  match freeChannel s with
  | some c => s.setChan c (some ⟨p, e, key, b, since s⟩)
  | none => submit (unrecorded p e key b line hoot) s

/-- The channel of an endpoint's binding released (R161). -/
def releaseChan (p : PosId) (e : Endpoint) (s : State) : State :=
  match channelAt s p e with
  | some c => { s.setChan c none with released := s.released ++ [c] }
  | none => s

/-- A channel carried to a new binding: it keeps its number and since, its other fields are rewritten in
place, and a SEGMENT record is written (R158, R163). -/
def carry (c : ChanId) (p : PosId) (e : Endpoint) (b : BridgeId) (L : LineId) (s : State) : State :=
  match s.channels.get c with
  | some r =>
    submit { kind := .segment, channel := some c, pos := some p, endpoint := some e, bridge := some b,
             line := some L, cause := some (if r.bridge = b then .move else .retarget) }
      (s.setChan c (some { r with pos := p, endpoint := e, key := none, bridge := b }))
  | none => s

/-- The condition of R157 that fails first, with its place in the rule's list: NO_CHANNEL, LOG_LOST,
TIME_INVALID. -/
def admission (s : State) : Option Nat :=
  if !anyFree s then some 0
  else if s.log.level = .lost then some 1
  else if !s.timeValid then some 2
  else none

end Sys2Proof.Machine
end

