-- ==== Sys2Proof/Machine/Bindings.lean ====
section
/-! DEFINITION. Bind and unbind asks, the intercom tap feed, and the tests that every position request
passes (R3, R6, R8). -/

namespace Sys2Proof.Machine

/-- The answer of tests 1 and 2 of a bind ask: CLOSED, FACILITY, or none when they pass (R6). -/
def placeAnswer (s : State) (p : PosId) : Option Result :=
  if !(s.positions.get p).isOpen then some .closed
  else if !s.posUp p then some .facility
  else none

/-- The answer of a FREE ONLY bind ask: none when it is accepted (R6). -/
def freeAnswer (s : State) (p : PosId) (e : Endpoint) : Option Result :=
  match placeAnswer s p with
  | some r => some r
  | none => if s.binding p e = .none then none else some .inUse

/-- A binding stored, as a committed bind ask does (R6). -/
def bind (p : PosId) (e : Endpoint) (v : Binding) (s : State) : State :=
  s.modPos p fun r => r.setBinding e v

/-- NONE stored; with a key, a MIC that talks on it becomes NONE as well (R8). -/
def Position.clear (e : Endpoint) (r : Position) : Position :=
  let r := r.setBinding e .none
  match e with
  | .key k => if r.mic = .talk k then { r with mic := .none } else r
  | _ => r

/-- An unbind ask (R8): every cause but NONE produces one BINDING_LOST notice. An endpoint that is already
unbound changes nothing and produces no notice. -/
def unbind (p : PosId) (e : Endpoint) (cause : Cause) (s : State) : State :=
  let was := s.binding p e
  if was = .none then s
  else
    let t := s.modPos p (Position.clear e)
    if cause = .none then t else postPos p (.bindingLost p e was cause) t

/-- The intercom tap feed set or cleared (R5, R6). -/
def setFeed (p : PosId) (c : Option BridgeId) (s : State) : State :=
  s.modPos p fun r => { r with feed := c }

/-- The source of an endpoint joins a bridge as an OWNER entry, with the endpoint's gain and shift `r`; a
key has none to join (R5, R22). -/
def joinEndpoint (p : PosId) (e : Endpoint) (b : BridgeId) (shift : Nat) (s : State) : State :=
  match endpointSource p e with
  | some x => join b x ((s.positions.get p).gain e) shift .owner s
  | none => s

/-- The source of an endpoint leaves a bridge (R23). -/
def leaveEndpoint (p : PosId) (e : Endpoint) (b : BridgeId) (s : State) : State :=
  match endpointSource p e with
  | some x => leave b x s
  | none => s

/-- How many endpoints and keys of a position are bound (R2). -/
def boundCount (s : State) (p : PosId) : Nat :=
  (allEndpoints.filter fun e => s.binding p e ≠ .none).length

/-- How many entries other than endpoint bindings a position has: camps, talk queue entries, holds, and
intercom presentations, current or waiting (R14, R143). -/
def entryCount (s : State) (p : PosId) : Nat :=
  (s.lines.list.map fun r => (r.camp.filter (· = p)).length + (if r.holdOwner = some p then 1 else 0)).sum +
  (s.hoots.list.map fun h => match h with
    | some h => (h.queue.filter fun x => x.1 = p).length
    | none => 0).sum +
  (s.calls.list.map fun c => match c with
    | some c => (c.presented.filter fun x => x.pos = p).length
    | none => 0).sum

/-- The counts that the responses of POS_CLOSE, GRANT and NARROW carry: the endpoint bindings and the
other entries of `p` that ended between two states (R14, R143). -/
def endedCounts (p : PosId) (before after : State) : List Byte :=
  b2 (boundCount before p - boundCount after p) ++ b2 (entryCount before p - entryCount after p)

end Sys2Proof.Machine
end

