-- ==== Sys2Proof/Machine/Talk.lean ====
section
/-! DEFINITION. Talk: line talks (R129, R132), and the grants, queues, promotion and clash of hoots
(R127, R128, R130, R131, R134..R136). -/

namespace Sys2Proof.Machine

/-! ## Line talk -/

/-- The MIC of `p` talks on key `k` (R2). -/
def talksOn (s : State) (p : PosId) (k : KeyId) : Bool := (s.positions.get p).mic = .talk k

/-- The TALK_GRANT and TALK_END record of a line talk (R129, R132, R167). -/
def lineTalkRecord (kind : RecordKind) (p : PosId) (k : KeyId) (L : LineId) (b : BridgeId) : Record :=
  { kind := kind, line := some L, bridge := some b, pos := some p, endpoint := some .mic, key := some k }

/-- The end of the line talk of `p` on key `k`, which holds `L`, when there is one (R132). `bindCause` is
the cause of the MIC's unbind ask: NONE unless the talk ends before the key's binding, at step 2 of R14
or R15. -/
def endLineTalk (p : PosId) (k : KeyId) (L : LineId) (cause bindCause : Cause) (s : State) : State :=
  if talksOn s p k then
    match (s.lines.get L).bridge with
    | some b =>
      leave b (micSource p) s
        |> unbind p .mic bindCause
        |> submit { lineTalkRecord .talkEnd p k L b with cause := some cause }
        |> postPos p (.talkState none k .none false cause)
    | none => unbind p .mic bindCause s
  else s

/-- The line talk of an endpoint's binding, if the endpoint is a key whose MIC talks on it (R132). -/
def endTalkOfEndpoint (p : PosId) (e : Endpoint) (L : LineId) (cause : Cause) (s : State) : State :=
  match e with
  | .key k => endLineTalk p k L cause .none s
  | _ => s

/-! ## Clash (R135, R136) -/

/-- The clash condition: a JOINED leg is ACTIVE and a granted talker's MIC is ACTIVE (R135). -/
def clashCondition (s : State) (h : Hoot) : Bool :=
  (h.legs.any fun x => x.joined && s.active (lineSource x.line)) &&
    (h.granted.any fun x => s.active (micSource x.pos))

/-- The parties list of a granted set: each talker with its MIC (R127, R130, R136). -/
def Hoot.parties (h : Hoot) : List (PosId × Endpoint) := h.granted.map fun x => (x.pos, .mic)

/-- The sources that a clash turns down (R136). -/
def Hoot.reduced (h : Hoot) (x : SourceId) : Bool :=
  match h.policy with
  | .localPriority => h.legs.any fun y => y.joined && lineSource y.line = x
  | .remotePriority => h.granted.any fun y => micSource y.pos = x

/-- A clash begins (R136). -/
def startClash (b : BridgeId) (h : Hoot) (s : State) : State :=
  s.modHoot b (fun g => { g with clashing := true })
    |> setShift b h.reduced h.shift
    |> postMany (h.granted.map (·.pos)) (.clash b .start (some h.policy))
    |> submit { kind := .clash, hoot := some b, cause := some .start, parties := some h.parties }

/-- A clash ends (R136). -/
def endClash (b : BridgeId) (h : Hoot) (s : State) : State :=
  s.modHoot b (fun g => { g with clashing := false })
    |> setShift b (fun _ => true) 0
    |> postMany (h.granted.map (·.pos)) (.clash b .endOf none)
    |> submit { kind := .clash, hoot := some b, cause := some .endOf }

/-- The clash condition evaluated against the clash state (R135). -/
def evalClash (b : BridgeId) (s : State) : State :=
  match s.hoots.get b with
  | some h =>
    if clashCondition s h then (if h.clashing then s else startClash b h s)
    else if h.clashing then endClash b h s
    else s
  | none => s

/-! ## Grants -/

/-- The talk-idle timer of a new grant: RUNNING from the full period while the MIC is QUIET (R127 step 3,
R134). -/
def talkTimer (s : State) (h : Hoot) (p : PosId) : Option Nat :=
  if s.active (micSource p) then none else startIdle (1000 * h.talkIdleS)

/-- The shift with which a talker joins: the clash shift during a clash under REMOTE_PRIORITY (R127). -/
def Hoot.joinShift (h : Hoot) : Nat :=
  if h.clashing && h.policy = .remotePriority then h.shift else 0

/-- The TALK_GRANT record of a hoot grant, with the channel that the MIC then holds (R127 step 5). -/
def grantRecord (s : State) (b : BridgeId) (p : PosId) (k : KeyId) (h : Hoot) : Record :=
  { kind := .talkGrant, hoot := some b, pos := some p, endpoint := some .mic, key := some k,
    channel := channelAt s p .mic, parties := some h.parties }

/-- The recording step of a grant: a channel is asked for under RECORD (R127 step 4, R155). -/
def recordGrant (b : BridgeId) (p : PosId) (k : KeyId) (h : Hoot) (s : State) : State :=
  if h.record then assign p .mic (some k) b none (some b) s else s

/-- A grant on hoot `b` to `p` on key `k`, committed (R127 steps 1 to 6). -/
def grantTalk (b : BridgeId) (p : PosId) (k : KeyId) (s : State) : State :=
  match s.hoots.get b with
  | some h =>
    let h' := { h with granted := h.granted ++ [⟨p, k, talkTimer s h p⟩] }
    let t := bind p .mic (.talk k) s
      |> joinEndpoint p .mic b h.joinShift
      |>.setHoot b (some h')
      |> recordGrant b p k h
    submit (grantRecord t b p k h') t
      |> postPos p (.talkState (some b) k .granted h.clashing .none)
  | none => s

/-- The head of the talk queue decided, when a slot is open: it leaves the queue, and is granted when its key is
still on the hoot and its MIC free, otherwise dropped as STALE (R131). When the key has left, no bind ask is made and
the notice has no reason (DESIGN CHOICE, notes/assumptions/43.md). -/
def promoteHead (b : BridgeId) (s : State) : State :=
  match s.hoots.get b with
  | some h => match h.queue with
    | x :: rest =>
      if h.granted.length < h.slots then
        let t := s.modHoot b fun g => { g with queue := rest }
        if s.binding x.1 (.key x.2) ≠ .listen b then
          postPos x.1 (.talkDropped b x.2 .stale none) t
        else match freeAnswer s x.1 .mic with
          | none => grantTalk b x.1 x.2 t
          | some r => postPos x.1 (.talkDropped b x.2 .stale (some r)) t
      else s
    | [] => s
  | none => s

/-- Promotion: the queue's entries are tried from the head while a slot is open (R131). -/
def promote (b : BridgeId) (s : State) : State :=
  match s.hoots.get b with
  | some h => s.each h.queue fun _ => promoteHead b
  | none => s

/-- The talker entry of a position on a hoot (R120). -/
def Hoot.talker (h : Hoot) (p : PosId) : Option Talker := h.granted.find? fun x => x.pos = p

/-- The queue entry of a position on a hoot (R120). -/
def Hoot.queued (h : Hoot) (p : PosId) : Option (PosId × KeyId) := h.queue.find? fun x => x.1 = p

/-- The cause of the MIC's unbind ask at the end of a grant: NONE when the position's own request ended it
(R130 step 2). -/
def grantUnbindCause : Cause → Cause
  | .keyChanged => .none
  | c => c

/-- Steps 1 to 6 of the end of a grant: everything but the clash evaluation (R130). -/
def stopGrant (b : BridgeId) (p : PosId) (cause : Cause) (s : State) : State :=
  match s.hoots.get b with
  | some h => match h.talker p with
    | some x =>
      let h' := { h with granted := h.granted.filter fun y => y.pos ≠ p }
      let c := channelAt s p .mic
      s.setHoot b (some h')
        |> leave b (micSource p)
        |> unbind p .mic (grantUnbindCause cause)
        |> releaseChan p .mic
        |> submit { kind := .talkEnd, hoot := some b, pos := some p, endpoint := some .mic, key := some x.key,
                    channel := c, cause := some cause, parties := some h'.parties }
        |> postPos p (.talkState (some b) x.key .none h.clashing cause)
        |> promote b
    | none => s
  | none => s

/-- The end of a grant, with its clash evaluation (R130). A grant that has already ended changes nothing. -/
def endGrant (b : BridgeId) (p : PosId) (cause : Cause) (s : State) : State :=
  match s.hoots.get b with
  | some h => if (h.talker p).isSome then evalClash b (stopGrant b p cause s) else s
  | none => s

/-- JOINED legs and granted talkers of a hoot: what an evaluation of the clash condition looks at (R135). -/
def Hoot.voices (h : Hoot) : List LineId × List (PosId × KeyId) :=
  ((h.legs.filter (·.joined)).map (·.line), h.granted.map fun x => (x.pos, x.key))

/-- The hoots whose granted set or JOINED legs an event has changed, ascending (R135). -/
def changedHoots (s t : State) : List BridgeId :=
  (ids 96).filter fun b => (s.hoots.get b).map Hoot.voices ≠ (t.hoots.get b).map Hoot.voices

/-- The end of an event that may have changed a hoot more than once: the clash condition of each hoot that the
event, begun in `s`, has changed is evaluated once, by the values at its end (R135). Until then every grant takes the
clash state that stood at the start (R131). -/
def settleClash (s t : State) : State := t.each (changedHoots s t) evalClash

/-- The notice of a removed queue entry: TALK_STATE when the position's own request removed it, otherwise
TALK_DROPPED (R133, R138). -/
def queueEndNotice (b : BridgeId) (k : KeyId) (clashing : Bool) : Cause → Notice
  | .none => .talkState (some b) k .none clashing .none
  | .keyChanged => .talkState (some b) k .none clashing .keyChanged
  | c => .talkDropped b k c none

/-- A talk queue entry removed with a cause (R133, R138). -/
def endQueued (b : BridgeId) (p : PosId) (cause : Cause) (s : State) : State :=
  match s.hoots.get b with
  | some h => match h.queued p with
    | some x =>
      s.modHoot b (fun g => { g with queue := g.queue.filter (· ≠ x) })
        |> postPos p (queueEndNotice b x.2 h.clashing cause)
    | none => s
  | none => s

/-- The grant or queue entry of a position on a hoot, ended with a cause (R138). -/
def endTalkOn (b : BridgeId) (p : PosId) (cause : Cause) (s : State) : State :=
  match s.hoots.get b with
  | some h => if (h.talker p).isSome then endGrant b p cause s else endQueued b p cause s
  | none => s

/-- The same, with the clash evaluation left to the end of the event (R135, R138). -/
def stopTalkOn (b : BridgeId) (p : PosId) (cause : Cause) (s : State) : State :=
  match s.hoots.get b with
  | some h => if (h.talker p).isSome then stopGrant b p cause s else endQueued b p cause s
  | none => s

/-- When the clash condition of a hoot whose talk a teardown ends is evaluated: with the end itself, or at the end
of an event that ends the talk of several positions (R135, R138). -/
inductive ClashEval where
  | atOnce
  | atEnd
  deriving DecidableEq, Repr

/-- A position's talk on a hoot ended, with the clash evaluation where it belongs. -/
def ClashEval.endTalk : ClashEval → BridgeId → PosId → Cause → State → State
  | .atOnce => endTalkOn
  | .atEnd => stopTalkOn

/-- A key that leaves the hoot it listens to: the position's talk on that hoot ends (R10, R125, R138). The
key's binding is the caller's to change. -/
def keyLeaves (p : PosId) (k : KeyId) (cause : Cause) (s : State) : State :=
  match s.binding p (.key k) with
  | .listen b => endTalkOn b p cause s
  | _ => s

/-- The line talk of a position, on whichever key its MIC talks, ended at step 2 of R14 or R15 (R132). The MIC's
use is NONE after it, whatever it was. -/
def endLineTalkOf (p : PosId) (cause : Cause) (s : State) : State :=
  match (s.positions.get p).mic with
  | .none => s
  | .talk k => match s.binding p (.key k) with
    | .holder L => endLineTalk p k L cause cause s
    | _ => unbind p .mic cause s
  | _ => unbind p .mic cause s

/-- Step 2 of R14: every grant and queue entry of a position, hoot by hoot in ascending bridge order, then
its line talk. -/
def endAllTalk (w : ClashEval) (p : PosId) (cause : Cause) (s : State) : State :=
  s.each (ids 96) (fun b => w.endTalk b p cause) |> endLineTalkOf p cause

/-- A position appended to a talk queue, with its TALK_STATE (R128). -/
def queueTalk (b : BridgeId) (p : PosId) (k : KeyId) (h : Hoot) (s : State) : State :=
  s.setHoot b (some { h with queue := h.queue ++ [(p, k)] })
    |> postPos p (.talkState (some b) k (.queued h.queue.length) h.clashing .none)

/-- A channel for a line talk on a key that holds none, under RECORD (R129 step 2, R159). -/
def recordLineTalk (p : PosId) (k : KeyId) (L : LineId) (b : BridgeId) (s : State) : State :=
  if (channelAt s p (.key k)).isNone && (s.lines.get L).policy = .record then
    assign p (.key k) none b (some L) none s
  else s

/-- A line talk, committed (R129). -/
def startLineTalk (p : PosId) (k : KeyId) (L : LineId) (b : BridgeId) (s : State) : State :=
  let t := bind p .mic (.talk k) s |> joinEndpoint p .mic b 0 |> recordLineTalk p k L b
  submit { lineTalkRecord .talkGrant p k L b with channel := channelAt t p (.key k) } t
    |> postPos p (.talkState none k .granted false .none)

/-! ## Trunk legs (R122, R124) -/

/-- The leg entry of a line on a hoot changed. -/
def setLeg (b : BridgeId) (L : LineId) (f : Leg → Leg) (s : State) : State :=
  s.modHoot b fun h => { h with legs := h.legs.map fun x => if x.line = L then f x else x }

/-- A leg whose line is IDLE joins its hoot; during a clash under LOCAL_PRIORITY it takes the clash shift
in the same event (R122, R124, R136). -/
def joinLeg (b : BridgeId) (L : LineId) (s : State) : State :=
  match s.hoots.get b with
  | some h => match h.legs.find? fun x => x.line = L with
    | some x =>
      let t := join b (lineSource L) x.gain 0 .owner s |> setLeg b L fun y => { y with joined := true }
      if h.clashing && h.policy = .localPriority then setShift b (fun y => y = lineSource L) h.shift t else t
    | none => s
  | none => s

/-- A JOINED leg's source leaves its hoot, and the leg becomes OUT (R124). -/
def outLeg (b : BridgeId) (L : LineId) (s : State) : State :=
  leave b (lineSource L) s |> setLeg b L fun y => { y with joined := false }

/-- The hoot whose leg list names a line, if one does: a line is a leg of one hoot at most (R120). -/
def legOf (s : State) (L : LineId) : Option BridgeId :=
  (ids 96).find? fun b => match s.hoots.get b with
    | some h => h.legs.any fun x => x.line = L
    | none => false

end Sys2Proof.Machine
end

