-- ==== Sys2Proof/Machine/LineOps.lean ====
section
/-! DEFINITION. The line block's shared operations: reporting (R85, R153), alerting, offers and the guard
(R73..R79), holders and monitors leaving (R65, R66), release (R67, R72), parking (R69), and camp queues
(R63, R68, R74). -/

namespace Sys2Proof.Machine

/-! ## Reporting -/

/-- The LINE_STATE notice of a line as it stands (R85). -/
def lineNotice (s : State) (L : LineId) : Notice :=
  let r := s.lines.get L
  .lineState L r.state r.holders.length r.holdOwner r.camp.length

/-- LINE_STATE sent to the links whose positions show the line, and to the link of each position in
`extra` (R85, R72). -/
def reportLineTo (extra : List PosId) (L : LineId) (s : State) : State :=
  post (fun l => lineRoute s L l || posRoute s extra l) (lineNotice s L) s

/-- LINE_STATE sent (R85). -/
def reportLine (L : LineId) (s : State) : State := reportLineTo [] L s

/-- The WATCH notice of a change of state, to the links of the line's route (R153). -/
def reportWatch (L : LineId) (old new : LineState) (cause : Cause) (s : State) : State :=
  post (watchRoute (s.routes.get L)) (.watch L old new cause) s

/-- A change of state reported (R85, R153); no change reports nothing. -/
def reportChange (extra : List PosId) (L : LineId) (old : LineState) (cause : Cause) (s : State) : State :=
  if (s.lines.get L).state = old then s
  else reportLineTo extra L s |> reportWatch L old (s.lines.get L).state cause

/-- A line enters a state, and the change is reported. -/
def enterStateTo (extra : List PosId) (L : LineId) (new : LineState) (cause : Cause) (s : State) : State :=
  s.modLine L (fun r => { r with state := new })
    |> reportChange extra L (s.lines.get L).state cause
def enterState (L : LineId) (new : LineState) (cause : Cause) (s : State) : State :=
  enterStateTo [] L new cause s

/-- The line timer started with a period in milliseconds, or stopped. -/
def startTimer (L : LineId) (kind : TimerKind) (ms : Nat) (s : State) : State :=
  s.modLine L fun r => { r with timer := some ⟨kind, ms⟩ }
def stopTimer (L : LineId) (s : State) : State := s.modLine L fun r => { r with timer := none }

/-! ## Alerting and offers -/

/-- Entry to ALERTING, by RING_START or from pending-ring (R73, R77): the ALERT timer of an MR line starts,
far-present of an AR line is set; RING_IN, its record and LINE_STATE follow. -/
def enterAlerting (L : LineId) (s : State) : State :=
  let r := s.lines.get L
  let t := s.modLine L fun r => { r with
    state := .alerting
    timer := if r.ltype = .mr then some ⟨.alert, 1000 * r.alertS⟩ else none
    farPresent := r.farPresent || r.ltype = .ar }
  postLine L (.ringIn L) t
    |> submit { kind := .ringIn, line := some L }
    |> reportChange [] L r.state .ring

/-- An offer made to the head of the camp queue (R75). -/
def makeOffer (L : LineId) (s : State) : State :=
  match (s.lines.get L).camp with
  | q :: _ => postPos q (.offer L (s.lines.get L).offerS) s
      |> startTimer L .offer (1000 * (s.lines.get L).offerS)
  | [] => s

/-- OFFERED to the head of a queue that is not empty, otherwise IDLE (R73, R79). -/
def offerOrIdle (L : LineId) (cause : Cause) (s : State) : State :=
  if (s.lines.get L).camp.isEmpty then stopTimer L s |> enterState L .idle cause
  else stopTimer L s |> enterState L .offered cause |> makeOffer L

/-- The offer advances, after the head was removed (R75). -/
def advanceOffer (L : LineId) (s : State) : State :=
  if (s.lines.get L).camp.isEmpty then stopTimer L s |> enterState L .idle .offerEnd else makeOffer L s

/-- The end of CLEARING (R73). -/
def endClearing (L : LineId) (s : State) : State :=
  if (s.lines.get L).pendingRing then
    s.modLine L (fun r => { r with pendingRing := false, timer := none }) |> enterAlerting L
  else offerOrIdle L .guardEnd s

/-- The position is the offered party of an OFFERED line (R75). -/
def isOffered (r : Line) (p : PosId) : Bool := r.state = .offered && r.camp.head? = some p

/-- A position taken out of a camp queue. -/
def removeCamp (L : LineId) (p : PosId) (s : State) : State :=
  s.modLine L fun r => { r with camp := r.camp.filter (· ≠ p) }

/-- A position removed from a camp queue at the ask of another block, or by an offer's expiry: OFFER_LAPSED
is sent, and an offer made to it advances (R68, R75). A position not in the queue changes nothing. -/
def campRemove (L : LineId) (p : PosId) (cause : Cause) (s : State) : State :=
  let r := s.lines.get L
  if r.camp.contains p then
    let t := removeCamp L p s |> postPos p (.offerLapsed L cause (isOffered r p))
    if isOffered r p then advanceOffer L t else t
  else s

/-- A whole camp queue emptied, head first, with no offer passing on (R68, R83, R87). -/
def emptyCamp (L : LineId) (cause : Cause) (s : State) : State :=
  let r := s.lines.get L
  s.each r.camp fun p t => removeCamp L p t |> postPos p (.offerLapsed L cause (isOffered r p))

/-- An alerting line abandoned (R79). -/
def abandon (L : LineId) (s : State) : State :=
  submit { kind := .abandoned, line := some L } s
    |>.modLine L (fun r => { r with farPresent := false })
    |> offerOrIdle L .abandoned

/-! ## Monitors and holders leaving -/

/-- One monitor of a line ended (R65). -/
def endMonitor (L : LineId) (x : PosId × Endpoint) (cause : Cause) (s : State) : State :=
  s.modLine L (fun r => { r with monitors := r.monitors.filter (· ≠ x) }) |> unbind x.1 x.2 cause

/-- Every monitor of a line ended, in list order (R65). -/
def endMonitors (L : LineId) (cause : Cause) (s : State) : State :=
  s.each (s.lines.get L).monitors fun x => endMonitor L x cause

/-- The channel of an endpoint released at the step that ends its binding, unless it is held back for the
binding of the same request (R158, R161). -/
def releaseUnless (keep : Bool) (p : PosId) (e : Endpoint) (s : State) : State :=
  if keep then s else releaseChan p e s

/-- The channel that a closing record carries: none when it is held back (R161, R163). -/
def closingChannel (s : State) (keep : Bool) (p : PosId) (e : Endpoint) : Option ChanId :=
  if keep then none else channelAt s p e

/-- Steps 1 to 3 of a holder's leaving: the entry goes, its source leaves the bridge or its line talk ends,
and the endpoint is unbound (R66, R69). -/
def detachHolder (L : LineId) (x : PosId × Endpoint) (cause : Cause) (s : State) : State :=
  s.modLine L (fun r => { r with holders := r.holders.filter (· ≠ x) })
    |> (fun t => match (t.lines.get L).bridge with
        | some b => leaveEndpoint x.1 x.2 b t
        | none => t)
    |> endTalkOfEndpoint x.1 x.2 L cause
    |> unbind x.1 x.2 cause

/-- A holder leaves a line with a cause: the five steps of R66. -/
def endHolder (L : LineId) (x : PosId × Endpoint) (cause : Cause) (keep : Bool) (s : State) : State :=
  let t := detachHolder L x cause s
  let c := closingChannel t keep x.1 x.2
  releaseUnless keep x.1 x.2 t
    |> submit { kind := .disconnect, line := some L, pos := some x.1, endpoint := some x.2, channel := c,
                cause := some cause, parties := some (t.lines.get L).holders }

/-- Every holder of a line ended, in list order (R67). -/
def endHolders (L : LineId) (cause : Cause) (s : State) : State :=
  s.each (s.lines.get L).holders fun x => endHolder L x cause false

/-! ## Release -/

/-- The bridge of a line freed (R21, R67 step 4). -/
def dropLineBridge (L : LineId) (s : State) : State :=
  match (s.lines.get L).bridge with
  | some b => dropBridge b s |>.modLine L fun r => { r with bridge := none }
  | none => s

/-- Steps 1 to 5 of a release: monitors, conference entries, hold owner and timer, bridge, sustained
presence and far-present (R67). -/
def vacate (L : LineId) (monCause : Cause) (s : State) : State :=
  endMonitors L monCause s
    |> endConferences L
    |>.modLine L (fun r => { r with holdOwner := none, timer := none })
    |> dropLineBridge L
    |>.modGen L (fun g => { g with sustained := false })
    |>.modLine L (fun r => { r with farPresent := false })

/-- Entry to CLEARING: the GUARD timer starts, or CLEARING ends at once with a guard period of 0 (R67 step
6). -/
def enterClearing (extra : List PosId) (L : LineId) (cause : Cause) (s : State) : State :=
  let t := startTimer L .guard (s.lines.get L).guardMs s |> enterStateTo extra L .clearing cause
  if (s.lines.get L).guardMs = 0 then endClearing L t else t

/-- A line released (R67). `extra` is the hold owner that hears of a release for PERMISSION (R72). -/
def releaseLine (extra : List PosId) (L : LineId) (cause monCause : Cause) (s : State) : State :=
  vacate L monCause s |> enterClearing extra L cause

/-- The DISCONNECT record of a hold released without retrieval (R72). -/
def holdEndRecord (L : LineId) (p : PosId) (cause : Cause) : Record :=
  { kind := .disconnect, line := some L, pos := some p, cause := some cause, parties := some [] }

/-- A hold released without retrieval (R72). A line with no hold owner changes nothing. -/
def releaseHold (L : LineId) (cause : Cause) (s : State) : State :=
  match (s.lines.get L).holdOwner with
  | some p => submit (holdEndRecord L p cause) s
      |> releaseLine (if cause = .permission then [p] else []) L cause cause
  | none => s

/-- A whole-line teardown (R67, R72): holders and monitors, or the hold, with one cause. -/
def teardownLine (L : LineId) (cause : Cause) (s : State) : State :=
  match (s.lines.get L).state with
  | .connected => endHolders L cause s |> releaseLine [] L cause cause
  | .held => releaseHold L cause s
  | _ => s

/-- What R83 and R87 end on a line: holders and monitors or the hold, the bridge, the camp queue, the flags
and the timer. The line's new state is the caller's to enter. -/
def stripLine (L : LineId) (cause : Cause) (s : State) : State :=
  let t := match (s.lines.get L).state with
    | .connected => endHolders L cause s |> vacate L cause
    | .held => (match (s.lines.get L).holdOwner with
        | some p => submit (holdEndRecord L p cause) s
        | none => s) |> vacate L cause
    | _ => s
  emptyCamp L cause t
    |>.modLine L fun r => { r with pendingRing := false, farPresent := false, timer := none }

/-- A holder drops: the line stays CONNECTED while holders remain, and is released when none does (R66,
R67). A line that is not CONNECTED has no call to release. -/
def dropHolder (L : LineId) (x : PosId × Endpoint) (cause : Cause) (keep : Bool) (s : State) : State :=
  let t := endHolder L x cause keep s
  if (t.lines.get L).state ≠ .connected then t
  else if (t.lines.get L).holders.isEmpty then releaseLine [] L cause .monitorEnd t
  else reportLine L t

/-- The last holder parks: the line becomes HELD on its bridge (R69). -/
def holdLine (L : LineId) (x : PosId × Endpoint) (keep : Bool) (s : State) : State :=
  let t := detachHolder L x .none s
  let c := closingChannel t keep x.1 x.2
  let b := (t.lines.get L).bridge
  let u := releaseUnless keep x.1 x.2 t
    |> endMonitors L .monitorEnd
    |> endConferences L
    |> (match b with | some b => clearConference b | none => id)
    |>.modLine L fun r => { r with
        holdOwner := some x.1
        state := .held
        timer := if r.recallS = 0 then none else some ⟨.recall, 1000 * r.recallS⟩ }
  submit { kind := .hold, line := some L, bridge := b, pos := some x.1, channel := c } u
    |> reportChange [] L .connected .park

/-- A holder parks: it leaves as by LINE_DROP while others hold the line, otherwise the line is held (R69). -/
def parkHolder (L : LineId) (x : PosId × Endpoint) (keep : Bool) (s : State) : State :=
  if (s.lines.get L).holders.length ≤ 1 then holdLine L x keep s else dropHolder L x .none keep s

/-! ## Ring events -/

/-- RING_START taken by the line block (R77). -/
def takeRingStart (L : LineId) (s : State) : State :=
  let r := s.lines.get L
  match r.state with
  | .idle => enterAlerting L s
  | .offered =>
    (match r.camp with
      | q :: _ => postPos q (.offerLapsed L .ring true) s
      | [] => s) |> enterAlerting L
  | .alerting => if r.ltype = .mr then startTimer L .alert (1000 * r.alertS) s else s
  | .connected =>
    if r.ltype = .mr then postMany (r.holders.map (·.1)) (.farRing L) s
    else s.modLine L fun r => { r with farPresent := true }
  | .held =>
    if r.ltype = .mr then postMany r.holdOwner.toList (.farRing L) s
    else s.modLine L fun r => { r with farPresent := true }
  | .clearing => s.modLine L fun r => { r with pendingRing := true }
  | .disabled | .outOfService => s

/-- RING_END taken by the line block: no effect on an MR line (R78). -/
def takeRingEnd (L : LineId) (s : State) : State :=
  let r := s.lines.get L
  if r.ltype ≠ .ar then s
  else match r.state with
  | .alerting => abandon L s
  | .connected | .held => if r.farPresent then teardownLine L .farClear s else s
  | .clearing => s.modLine L fun r => { r with pendingRing := false }
  | .idle | .offered | .disabled | .outOfService => s

end Sys2Proof.Machine
end

