-- ==== Sys2Proof/Machine/IcmOps.lean ====
section
/-! DEFINITION. The intercom block's shared operations: presenting, answering, returning to IDLE, leaving and
ending a call (R102, R107..R114, R116, R117). -/

namespace Sys2Proof.Machine

/-- The intercom state of a position. -/
def State.icmState (s : State) (p : PosId) : IcmState := (s.icm.get p).state

/-- The call that waits at a position. -/
def State.waiting (s : State) (p : PosId) : Option BridgeId := (s.icm.get p).waiting

/-- The number of parties of a position's current call, as ICM_STATE carries it; 0 with no call. -/
def partyCount (s : State) (p : PosId) : Nat :=
  match (s.icmState p).call with
  | some c => match s.calls.get c with
    | some r => r.parties.length
    | none => 0
  | none => 0

/-- An ICM_STATE notice of a position as it stands, to the position's link. -/
def postIcmState (p : PosId) (cause : Cause) (s : State) : State :=
  postPos p (.icmState p (s.icmState p) cause (partyCount s p)) s

/-- The intercom state of a position set. -/
def setIcm (p : PosId) (st : IcmState) (s : State) : State := s.modIcm p fun r => { r with state := st }

/-- The waiting slot of a position set or emptied. -/
def setWaiting (p : PosId) (c : Option BridgeId) (s : State) : State := s.modIcm p fun r => { r with waiting := c }

/-- A call presents to a position: it becomes ALERTED, hears the call when `voice` holds, and its link
receives ICM_ALERT (R102, R107, R108). -/
def present (c : BridgeId) (r : Call) (voice : Bool) (q : PosId) (s : State) : State :=
  setIcm q (.alerted c) s
    |> (if voice then setFeed q (some c) else id)
    |> postPos q (.icmAlert c r.caller r.mode voice)

/-- The waiting call of a position that has returned to IDLE becomes its current presentation (R102). A position
that is CLOSED or whose highway is DOWN cannot be presented to (R6, R15): the call stays in the slot, which the
teardown of that position empties in the same event (R117; DEDUCED, notes/assumptions/19.md). -/
def promoteWaiting (p : PosId) (s : State) : State :=
  match s.waiting p with
  | some c => match s.calls.get c with
    | some r =>
      if (placeAnswer s p).isSome then s
      else setWaiting p none s
        |>.modCall c (fun r => { r with
            presented := r.presented.map fun x => if x.pos = p then { x with waiting := false } else x })
        |> present c r (r.mode = .voice) p
    | none => setWaiting p none s
  | none => s

/-- A position returns to IDLE: its feed becomes none, ICM_STATE carries the cause, and a waiting call is
promoted (R102). -/
def returnIdle (p : PosId) (cause : Cause) (s : State) : State :=
  setIcm p .idle s |> setFeed p none |> postIcmState p cause |> promoteWaiting p

/-- A position taken out of the presented list of a call; the alert timer stops when the list is then empty
(R103). -/
def unpresent (c : BridgeId) (q : PosId) (s : State) : State :=
  s.modCall c fun r =>
    let l := r.presented.filter fun x => x.pos ≠ q
    { r with presented := l, alert := if l.isEmpty then none else r.alert }

/-- An entry of a presented list withdrawn: a current presentation returns its position to IDLE, a waiting
one leaves its slot (R113 step 2). -/
def withdraw (c : BridgeId) (x : Presented) (cause : Cause) (s : State) : State :=
  if x.waiting then unpresent c x.pos s |> setWaiting x.pos none |> postIcmState x.pos cause
  else unpresent c x.pos s |> returnIdle x.pos cause

/-- Every presentation of a call withdrawn, in list order. -/
def withdrawAll (c : BridgeId) (cause : Cause) (s : State) : State :=
  match s.calls.get c with
  | some r => s.each r.presented fun x => withdraw c x cause
  | none => s

/-- How a call ends: its cause; the position whose own request ended it, if one did; the cause with which
the other parties are unbound; whether a teardown of a presentation ended it; and the position whose
channel is held back for a line take (R113, R117, R158). -/
structure Ending where
  cause : Cause
  own : Option PosId := none
  unbindCause : Cause := .ended
  noAnswer : Bool := false
  keep : Option PosId := none
  deriving DecidableEq, Repr

/-- One party of an ending call is unbound and returns to IDLE (R113 step 3). -/
def endParty (c : BridgeId) (d : Ending) (x : PosId × Endpoint) (s : State) : State :=
  leaveEndpoint x.1 x.2 c s
    |> unbind x.1 x.2 (if d.own = some x.1 then .none else d.unbindCause)
    |> returnIdle x.1 d.cause

/-- The NO_ANSWER of a call that ended while PRESENTING (R113 step 6). -/
def noAnswerDue (d : Ending) (active : Bool) : Bool :=
  !active && (d.cause = .expired || d.cause = .declined || d.noAnswer)

/-- A call ends, whole, in the seven steps of R113. -/
def endCall (c : BridgeId) (d : Ending) (s : State) : State :=
  match s.calls.get c with
  | some r =>
    let t := s.modCall c (fun r => { r with alert := none }) |> withdrawAll c d.cause
    let t := t.each r.parties (endParty c d)
    let t := t.each r.parties fun x => releaseUnless (d.keep = some x.1) x.1 x.2
    let t := submit { kind := .icmEnd, bridge := some c, pos := some r.caller.1, endpoint := some r.caller.2,
                      cause := some d.cause, parties := some r.parties } t
    let t := if noAnswerDue d r.active then postPos r.caller.1 (.noAnswer c d.cause) t else t
    dropBridge c t |>.setCall c none
  | none => s

/-- Why a position's relation to its call ends: by its own request, or by a teardown with a cause (R112,
R117). -/
inductive Leaving where
  | own
  | teardown (cause : Cause)
  deriving DecidableEq, Repr

/-- The cause that a teardown puts in place of a request's own (R117). -/
def Leaving.causeOr (w : Leaving) (c : Cause) : Cause :=
  match w with
  | .own => c
  | .teardown t => t

/-- The ending that a caller's leaving brings about (R112, R117). -/
def callerEnding (w : Leaving) (p : PosId) (keep : Option PosId) : Ending :=
  match w with
  | .own => { cause := .callerLeft, own := some p, keep := keep }
  | .teardown t => { cause := t, unbindCause := t, keep := keep }

/-- The ending of a call whose last presentation was declined or withdrawn (R112, R117). -/
def declineEnding (w : Leaving) : Ending :=
  match w with
  | .own => { cause := .declined }
  | .teardown t => { cause := t, unbindCause := t, noAnswer := true }

/-- The ending of a call that has too few parties left (R112, R117). -/
def partyEnding (w : Leaving) : Ending :=
  match w with
  | .own => { cause := .partyLeft }
  | .teardown t => { cause := t, unbindCause := t }

/-- A presentation declined by its position, or withdrawn by a teardown (R112, R117). -/
def decline (p : PosId) (c : BridgeId) (w : Leaving) (s : State) : State :=
  let t := unpresent c p s |> returnIdle p (w.causeOr .declined)
  match t.calls.get c with
  | some r => if r.presented.isEmpty && !r.active then endCall c (declineEnding w) t else t
  | none => t

/-- A party other than the caller leaves its call, which does not yet end: source, binding, channel, record
and return to IDLE (R112). ICM_STATE carries HUNG_UP for the position's own leaving, also for the leaving that an
ICM_PICKUP of the waiting call begins with (R111; DEDUCED, notes/assumptions/21.md). -/
def partyLeaves (p : PosId) (e : Endpoint) (c : BridgeId) (w : Leaving) (keep : Bool) (s : State) : State :=
  let t := leaveEndpoint p e c s
    |>.modCall c (fun r => { r with parties := r.parties.filter fun x => x.1 ≠ p })
    |> unbind p e (w.causeOr .none)
  let ch := closingChannel t keep p e
  releaseUnless keep p e t
    |> submit { kind := .disconnect, bridge := some c, pos := some p, endpoint := some e, channel := ch,
                cause := some (w.causeOr .none), parties := (t.calls.get c).map (·.parties) }
    |> returnIdle p (w.causeOr .hungUp)

/-- The call after a party has left it: it ends when it is DIRECT or has fewer than two parties, otherwise
the caller hears of the new count (R112). -/
def afterLeaving (c : BridgeId) (w : Leaving) (s : State) : State :=
  match s.calls.get c with
  | some r =>
    if r.group.isNone || r.parties.length < 2 then endCall c (partyEnding w) s
    else postIcmState r.caller.1 (w.causeOr .partyLeft) s
  | none => s

/-- A position's relation to its current call ends (R112). `keep` holds its channel back (R158). -/
def leaveCall (p : PosId) (w : Leaving) (keep : Bool) (s : State) : State :=
  match s.icmState p with
  | .idle => s
  | .calling c => endCall c (callerEnding w p (if keep then some p else none)) s
  | .alerted c => decline p c w s
  | .active c => match s.calls.get c with
    | some r =>
      if r.caller.1 = p then endCall c (callerEnding w p (if keep then some p else none)) s
      else match r.parties.find? fun x => x.1 = p with
        | some x => partyLeaves p x.2 c w keep s |> afterLeaving c w
        | none => s
    | none => s

/-- The waiting slot of a position emptied by a teardown; a call whose presented list thereby empties ends
(R117). -/
def emptySlot (p : PosId) (cause : Cause) (s : State) : State :=
  match s.waiting p with
  | some c =>
    let t := setWaiting p none s |> unpresent c p
    match t.calls.get c with
    | some r => if r.presented.isEmpty && !r.active then endCall c (declineEnding (.teardown cause)) t else t
    | none => t
  | none => s

/-- Nothing of the intercom stands at a position any more (R14 step 1): no endpoint in a call, no slot, no feed,
and the state IDLE. After the relations have ended there is nothing left for it to change. -/
def clearIcm (p : PosId) (cause : Cause) (s : State) : State :=
  s.each [.ha, .hb, .mic] (fun e t => match t.binding p e with
      | .icm _ => unbind p e cause t
      | _ => t)
    |>.modIcm p (fun _ => ⟨.idle, none⟩)
    |> setFeed p none

/-- The intercom teardown of POS_CLOSE and of a position highway's loss: the waiting slot, then the current
presentation or party relation (R117), until the position stands in no call (R14 step 1). -/
def icmTeardown (p : PosId) (cause : Cause) (s : State) : State :=
  emptySlot p cause s |> leaveCall p (.teardown cause) false |> clearIcm p cause

/-- The intercom teardown of a removed intercom flag: the waiting slot and the current presentation (R117,
R145). -/
def icmUnpermit (p : PosId) (cause : Cause) (s : State) : State :=
  let t := emptySlot p cause s
  match t.icmState p with
  | .alerted c => decline p c (.teardown cause) t
  | _ => t

/-- The recording step of a party binding (R116). -/
def recordParty (p : PosId) (e : Endpoint) (c : BridgeId) (s : State) : State :=
  if s.icmRecord then assign p e none c none none s else s

/-- The steps that every new call starts with: its bridge, the caller's binding and tap, and the call record
(R107 steps 1 to 3, R108). The bridge's reload mask, which period 0 never consults, is both classes (DESIGN CHOICE,
notes/assumptions/38.md). -/
def openCall (c : BridgeId) (p : PosId) (e : Endpoint) (mode : CallMode) (group : Option GroupId)
    (presented : List Presented) (s : State) : State :=
  claimBridge c .icm 0 .both s
    |> joinEndpoint p e c 0
    |> bind p e (.icm c)
    |> (if e = .mic then setFeed p (some c) else id)
    |> setIcm p (.calling c)
    |>.setCall c (some { mode := mode, group := group, caller := (p, e), presented := presented,
                         parties := [(p, e)], active := false, alert := some (1000 * s.icmAlertS) })

/-- The recording step and the ICM_START record of a new call (R107 steps 6 and 7, R108). -/
def startRecord (c : BridgeId) (p : PosId) (e : Endpoint) (group : Option GroupId) (s : State) : State :=
  let t := recordParty p e c s
  submit { kind := .icmStart, bridge := some c, pos := some p, endpoint := some e, group := group,
           channel := channelAt t p e, parties := some [(p, e)] } t

/-- The group mode applied to an answer: an ANNOUNCE_FIRST call withdraws every other presentation (R110). -/
def applyMode (c : BridgeId) (s : State) : State :=
  match s.calls.get c with
  | some r => if r.mode = .announceFirst then withdrawAll c .answeredElsewhere s else s
  | none => s

/-- The caller of a call that was PRESENTING becomes ACTIVE with its call, and so does the answerer (R109 step
3). -/
def activate (c : BridgeId) (q : PosId) (s : State) : State :=
  match s.calls.get c with
  | some r =>
    let t := setIcm q (.active c) s
    if r.active then t
    else setIcm r.caller.1 (.active c) t |>.modCall c fun r => { r with active := true }
  | none => s

/-- An answer, committed (R109 steps 1 to 8). -/
def answer (q : PosId) (e : Endpoint) (c : BridgeId) (s : State) : State :=
  let t := unpresent c q s
    |> joinEndpoint q e c 0
    |>.modCall c (fun r => { r with parties := r.parties ++ [(q, e)] })
    |> bind q e (.icm c)
    |> setFeed q (if e = .mic then some c else none)
    |> activate c q
    |> applyMode c
    |> recordParty q e c
  let t := submit { kind := .connect, bridge := some c, pos := some q, endpoint := some e,
                    channel := channelAt t q e, parties := (t.calls.get c).map (·.parties) } t
  match t.calls.get c with
  | some r => postIcmState q .none t |> postIcmState r.caller.1 .none
  | none => t

end Sys2Proof.Machine
end

