-- ==== Sys2Proof/Machine/Operands.lean ====
section
/-! DEFINITION. The operand forms of request bodies: identifiers, endpoints and codes (R190). A byte that
names nothing reads as `none`, and the request that carries it is refused with RANGE. -/

namespace Sys2Proof.Machine

/-- An identifier below `n`. -/
def idOf (n : Nat) (b : Byte) : Option (Fin n) :=
  if h : b.toNat < n then some ⟨b.toNat, h⟩ else none

def posOf (b : Byte) : Option PosId := idOf 48 b
def lineOf (b : Byte) : Option LineId := idOf 192 b
def bridgeOf (b : Byte) : Option BridgeId := idOf 96 b
def keyOf (b : Byte) : Option KeyId := idOf 8 b
def groupOf (b : Byte) : Option GroupId := idOf 32 b
def chanOf (b : Byte) : Option ChanId := idOf 64 b

/-- An endpoint: HA 0, HB 1, MIC 2, key k 8+k (R190). -/
def endpointOf (b : Byte) : Option Endpoint :=
  match b.toNat with
  | 0 => some .ha
  | 1 => some .hb
  | 2 => some .mic
  | n => if h : 8 ≤ n ∧ n < 16 then some (.key ⟨n - 8, by omega⟩) else none

/-- A side: L 0, R 1 (R190). -/
def sideOf (b : Byte) : Option Side :=
  match b.toNat with
  | 0 => some .l
  | 1 => some .r
  | _ => none

/-- A yes-or-no argument: 0 for no, 1 for yes (R190). -/
def yesNoOf (b : Byte) : Option Bool :=
  match b.toNat with
  | 0 => some false
  | 1 => some true
  | _ => none

/-- The line types, in the order of R55. -/
def lineTypeOf (b : Byte) : Option LineType :=
  match b.toNat with
  | 0 => some .none
  | 1 => some .mr
  | 2 => some .ar
  | 3 => some .ht
  | _ => none

/-- PRIVATE 0, SHARED 1 (R55). -/
def privacyOf (b : Byte) : Option Privacy :=
  match b.toNat with
  | 0 => some .single
  | 1 => some .shared
  | _ => none

/-- NONE 0, RECORD 1, REQUIRED 2 (R55). -/
def policyOf (b : Byte) : Option RecordPolicy :=
  match b.toNat with
  | 0 => some .none
  | 1 => some .record
  | 2 => some .required
  | _ => none

/-- LINE 0, POSITION 1, both 2 (R55). -/
def reloadOf (b : Byte) : Option ReloadMask :=
  match b.toNat with
  | 0 => some .line
  | 1 => some .position
  | 2 => some .both
  | _ => none

/-- LOCAL_PRIORITY 0, REMOTE_PRIORITY 1 (R120). -/
def clashPolicyOf (b : Byte) : Option ClashPolicy :=
  match b.toNat with
  | 0 => some .localPriority
  | 1 => some .remotePriority
  | _ => none

/-- NONE 0, RECORD 1: the record policies of hoots and of intercom (R120, R105). -/
def recordFlagOf (b : Byte) : Option Bool := yesNoOf b

/-- VOICE 0, TONE 1 (R106). -/
def directModeOf (b : Byte) : Option CallMode :=
  match b.toNat with
  | 0 => some .voice
  | 1 => some .tone
  | _ => none

/-- ANNOUNCE_FIRST 0, CONFERENCE 1 (R108). -/
def groupModeOf (b : Byte) : Option CallMode :=
  match b.toNat with
  | 0 => some .announceFirst
  | 1 => some .conference
  | _ => none

/-- CURRENT 0 (`false`), WAITING 1 (`true`) (R109). -/
def choiceOf (b : Byte) : Option Bool := yesNoOf b

/-- NONE 0, ADM 1, REC 2, BOTH 3 (R152). -/
def routeOf (b : Byte) : Option Route :=
  match b.toNat with
  | 0 => some .none
  | 1 => some .adm
  | 2 => some .recorder
  | 3 => some .both
  | _ => none

/-- The binding argument of KEY_SET (R10). -/
inductive KeyArg where
  | keep
  | none
  | hoot (b : BridgeId)
  deriving DecidableEq, Repr

/-- KEEP 0, NONE 1, HOOT 2; the bridge is read only when the code is HOOT (R190). -/
def keyArgOf (code bridge : Byte) : Option KeyArg :=
  match code.toNat with
  | 0 => some .keep
  | 1 => some .none
  | 2 => (bridgeOf bridge).map .hoot
  | _ => Option.none

/-- The targets of LATCH_CLEAR: OWN, NONE, or a link (R151). -/
inductive LatchTarget where
  | own
  | none
  | link (l : LinkId)
  deriving DecidableEq, Repr

/-- OWN 0, NONE 1, PC0..PC3 2..5, ADM 6, REC 7 (R151, R190). -/
def latchTargetOf (b : Byte) : Option LatchTarget :=
  match b.toNat with
  | 0 => some .own
  | 1 => some .none
  | n => if h : n - 2 < 6 then some (.link (linkOfIdx ⟨n - 2, h⟩)) else Option.none

/-- An optional code: absent, or naming something; `none` when it names nothing. -/
def optCode {α : Type} (f : Byte → Option α) : Option Byte → Option (Option α)
  | none => some none
  | some b => (f b).map some

/-- The list of what every byte names, when every byte names something. -/
def allOf {α β : Type} (f : α → Option β) : List α → Option (List β)
  | [] => some []
  | x :: r => do
    let y ← f x
    let ys ← allOf f r
    return y :: ys

/-- A quantity above `top` is stored as `top` (section 5.3). -/
def clampTop (top : Nat) (v : Half) : Nat := min v.toNat top

/-- A quantity is replaced by the nearest bound of `lo .. top`. -/
def clamp (lo top : Nat) (v : Half) : Nat := max lo (min v.toNat top)

/-- A period that is 0 (off) or `lo .. top`: a value below `lo` other than 0 is stored as `lo`. -/
def clampOff (lo top : Nat) (v : Half) : Nat := if v.toNat = 0 then 0 else clamp lo top v

/-- A count of NOTICE_READ or LOG_READ: 0 is taken as 1, and more than 8 as 8 (R172, R184). -/
def readCountOf (n : Half) : Nat := clamp 1 8 n

end Sys2Proof.Machine
end

