-- ==== Sys2Proof/Machine/Take.lean ====
section
/-! DEFINITION. Taking a line: displacement (R7), what a state decides (R60), the resource checks (R61), the
commit (R62, R70), camping (R63), monitors (R64) and moves (R9). -/

namespace Sys2Proof.Machine

/-- The flags of LINE_TAKE: CAMP bit 0, PARK_PREVIOUS bit 1, MONITOR bit 2 (R59, R190). -/
structure TakeFlags where
  camp : Bool
  park : Bool
  monitor : Bool
  deriving DecidableEq, Repr

def takeFlagsOf (b : Byte) : TakeFlags := ⟨b.getLsbD 0, b.getLsbD 1, b.getLsbD 2⟩

/-! ## Displacement (R7) -/

/-- The present binding of an endpoint ended in favour of a new one, by the block that owns it (R7). `park`
is DISPLACE AND PARK, and `keep` holds the endpoint's channel back (R158). -/
def displace (p : PosId) (e : Endpoint) (park keep : Bool) (s : State) : State :=
  match s.binding p e with
  | .none => s
  | .holder L => if park then parkHolder L (p, e) keep s else dropHolder L (p, e) .none keep s
  | .monitor L => endMonitor L (p, e) .none s
  | .icm _ => leaveCall p .own keep s
  | .listen _ => match e with
    | .key k => keyLeaves p k .keyChanged s |> bind p e .none
    | _ => s
  | .talk k => match s.binding p (.key k) with
    | .listen b => endGrant b p .none s
    | .holder L => endLineTalk p k L .none .none s
    | _ => s

/-! ## Holder takes -/

/-- What the state of a line decides for a holder take (R60). -/
inductive TakeCourse where
  | fresh
  | joins
  | retrieves
  | refused (r : Result)
  deriving DecidableEq, Repr

/-- How many holders a line may have (R56). -/
def maxHolders : Privacy → Nat
  | .single => 1
  | .shared => Config.maxSharing

/-- The table of R60. -/
def takeCourse (r : Line) (p : PosId) : TakeCourse :=
  match r.state with
  | .idle | .alerting => .fresh
  | .offered => if r.camp.head? = some p then .fresh else .refused .busy
  | .connected => if r.holders.length < maxHolders r.privacy then .joins else .refused .busy
  | .held => if r.holdOwner = some p || r.privacy = .shared then .retrieves else .refused .busy
  | .clearing => .refused .guard
  | .outOfService => .refused .facility
  | .disabled => .refused .facility

/-- The endpoint is a handset, whose source joins a bridge (R5). -/
def Endpoint.isHandset : Endpoint → Bool
  | .ha | .hb => true
  | _ => false

/-- The bridge of a line holds as many contributors as it may. -/
def lineFull (s : State) (L : LineId) : Bool :=
  match (s.lines.get L).bridge with
  | some b => Config.maxContributors ≤ (s.bridges.get b).contributors.length
  | none => false

/-- Check 3 of R61: a REQUIRED line admits an endpoint that holds a channel, and otherwise under the three
conditions of R157. The answer is the condition that failed. -/
def recordingCheck (s : State) (L : LineId) (p : PosId) (e : Endpoint) : Option Nat :=
  if (s.lines.get L).policy ≠ .required then none
  else if (channelAt s p e).isSome then none
  else admission s

/-- A NO_RECORDING refusal names the condition that failed (R157). -/
def noRecording (n : Nat) : Response := ⟨.noRecording, b1 n⟩

/-- The resource checks of a holder take, in order: bridge, contributor room, recording (R61). The bridge is
the one a fresh take is allocated. -/
def takeChecks (s : State) (L : LineId) (p : PosId) (e : Endpoint) (course : TakeCourse) : Option Response :=
  if course = .fresh && (freeBridge s).isNone then some (.bare .noBridge)
  else if course ≠ .fresh && e.isHandset && lineFull s L then some (.bare .full)
  else (recordingCheck s L p e).map noRecording

/-- The body of a holder take's response: state, holder count, bridge, channel, displaced binding (R62). -/
def takeBody (s : State) (L : LineId) (p : PosId) (e : Endpoint) (was : Binding) : List Byte :=
  let r := s.lines.get L
  b1 r.state.code ++ b2 r.holders.length ++ bOpt (r.bridge.map (·.val)) ++
    bOpt ((channelAt s p e).map (·.val)) ++ bBinding was

/-- Step 1 of R62: the endpoint's previous binding is displaced, and a monitor of `p` on `L` with its other
handset is dropped. -/
def takeDisplace (L : LineId) (p : PosId) (e : Endpoint) (park : Bool) (s : State) : State :=
  let keep := (s.lines.get L).policy ≠ .none
  let t := displace p e park keep s
  t.each ((t.lines.get L).monitors.filter fun x => x.1 = p) fun x => endMonitor L x .none

/-- Step 2 of R62: the allocated bridge is committed, and the line's source joins it first. -/
def takeBridge (L : LineId) (b : BridgeId) (s : State) : State :=
  let r := s.lines.get L
  claimBridge b (.line L) (1000 * r.autoReleaseS) r.reload s
    |> join b (lineSource L) 1024 0 .owner
    |>.modLine L fun r => { r with bridge := some b }

/-- Steps 3 and 4 of R62: the holder entry and binding, the source, the state CONNECTED, and the sustained
presence of an AR line that gains its first holder. Steps 1 and 2 of R70 fall here for a retrieval, and the
taker leaves the camp queue (R60). -/
def takeHolder (L : LineId) (p : PosId) (e : Endpoint) (b : BridgeId) (s : State) : State :=
  let seize := (s.lines.get L).ltype = .ar && (s.lines.get L).holders.isEmpty
  s.modLine L (fun r => { r with
      holders := r.holders ++ [(p, e)]
      holdOwner := none
      timer := none
      camp := r.camp.filter (· ≠ p)
      farPresent := r.farPresent || (r.ltype = .ar && r.state = .alerting) })
    |> bind p e (.holder L)
    |> joinEndpoint p e b 0
    |>.modLine L (fun r => { r with state := .connected })
    |> (if seize then fun t => t.modGen L fun g => { g with sustained := true } else id)

/-- Step 5 of R62: a channel held back is carried, otherwise one is assigned under RECORD or REQUIRED (R156,
R158). -/
def takeRecording (L : LineId) (p : PosId) (e : Endpoint) (b : BridgeId) (s : State) : State :=
  if (s.lines.get L).policy = .none then s
  else match channelAt s p e with
    | some c => carry c p e b L s
    | none => assign p e none b (some L) none s

/-- The CONNECT or RETRIEVE record of a take (R62 step 6, R70). -/
def takeRecord (s : State) (L : LineId) (p : PosId) (e : Endpoint) (b : BridgeId) (kind : RecordKind) : Record :=
  { kind := kind, line := some L, bridge := some b, pos := some p, endpoint := some e,
    channel := channelAt s p e, parties := some (s.lines.get L).holders }

/-- Step 7 of R62: LINE_STATE, for the change of state or for the join of a further holder (R85). -/
def takeReport (L : LineId) (old : LineState) (s : State) : State :=
  if old = .connected then reportLine L s else reportChange [] L old .take s

/-- A holder take committed, on bridge `b` (R62). -/
def commitTake (L : LineId) (p : PosId) (e : Endpoint) (park : Bool) (course : TakeCourse) (b : BridgeId)
    (s : State) : State :=
  let old := (s.lines.get L).state
  let t := takeDisplace L p e park s
    |> (if course = .fresh then takeBridge L b else id)
    |> takeHolder L p e b
    |> takeRecording L p e b
  submit (takeRecord t L p e b (if course = .retrieves then .retrieve else .connect)) t
    |> takeReport L old

/-- The bridge on which a take is committed: a newly allocated one, or the line's own. -/
def takeBridgeOf (s : State) (L : LineId) (course : TakeCourse) : Option BridgeId :=
  if course = .fresh then freeBridge s else (s.lines.get L).bridge

/-! ## Camping and monitors -/

/-- A take with CAMP that would be refused with BUSY or GUARD (R63). The index in the body of CAMPED takes one byte,
the width that R191 gives an index in notice entries alone (DESIGN CHOICE, notes/assumptions/8.md). -/
def campTake (L : LineId) (p : PosId) (s : State) : State × Response :=
  let r := s.lines.get L
  if r.camp.contains p then (s, .bare .duplicate)
  else if Config.maxWaiting ≤ r.camp.length then (s, .bare .full)
  else (s.modLine L fun r => { r with camp := r.camp ++ [p] }, ⟨.camped, b1 r.camp.length⟩)

/-- A MONITOR take that has reached step 6 of R59 (R64). -/
def monitorTake (L : LineId) (p : PosId) (e : Endpoint) (park : Bool) (s : State) : State × Response :=
  let r := s.lines.get L
  if r.state ≠ .connected then (s, .bare .notConnected)
  else if (r.holders.any fun x => x.1 = p) || (r.monitors.any fun x => x.1 = p) then (s, .bare .duplicate)
  else if Config.maxSharing ≤ r.monitors.length then (s, .bare .full)
  else
    let t := displace p e park false s
      |>.modLine L (fun r => { r with monitors := r.monitors ++ [(p, e)] })
      |> bind p e (.monitor L)
    (t, ⟨.done, b1 (t.lines.get L).state.code ++ b2 (t.lines.get L).monitors.length⟩)

/-- A holder take that has reached step 6 of R59 (R60 to R63). -/
def holderTake (L : LineId) (p : PosId) (e : Endpoint) (f : TakeFlags) (s : State) : State × Response :=
  match takeCourse (s.lines.get L) p with
  | .refused r => if f.camp && (r = .busy || r = .guard) then campTake L p s else (s, .bare r)
  | course => match takeChecks s L p e course with
    | some r => (s, r)
    | none => match takeBridgeOf s L course with
      | some b =>
        let t := commitTake L p e f.park course b s
        (t, ⟨.done, takeBody t L p e (s.binding p e)⟩)
      | none => (s, .bare .noBridge)

/-! ## Moves (R9) -/

/-- The move adds a handset source to the bridge while no source of `p` leaves it (R9, R61). -/
def moveNeedsRoom (s : State) (p : PosId) (old new : Endpoint) : Bool :=
  new.isHandset && !old.isHandset && match old with
    | .key k => !talksOn s p k
    | _ => true

/-- The checks of a move: contributor room, then recording, where the old endpoint's channel counts (R9,
R61). -/
def moveChecks (s : State) (L : LineId) (p : PosId) (old new : Endpoint) : Option Response :=
  if moveNeedsRoom s p old new && lineFull s L then some (.bare .full)
  else (recordingCheck s L p old).map noRecording

/-- The channel of the moved binding carried to the new endpoint (R9 step 6). -/
def moveChannel (L : LineId) (p : PosId) (new : Endpoint) (b : BridgeId) (c : Option ChanId) (s : State) : State :=
  match c with
  | some c => carry c p new b L s
  | none => s

/-- A move, committed (R9). A line talk on the key moved away from ends with cause NONE, as no rule names the cause of a
move (DESIGN CHOICE, notes/assumptions/40.md). -/
def commitMove (L : LineId) (p : PosId) (old new : Endpoint) (park : Bool) (b : BridgeId) (s : State) : State :=
  displace p new park false s
    |>.modLine L (fun r => { r with holders := r.holders.map fun x => if x = (p, old) then (p, new) else x })
    |> endTalkOfEndpoint p old L .none
    |> bind p old .none
    |> leaveEndpoint p old b
    |> joinEndpoint p new b 0
    |> bind p new (.holder L)
    |> moveChannel L p new b (channelAt s p old)

/-- A LINE_TAKE that is a move (R9), answered with the body of R62 (DESIGN CHOICE, notes/assumptions/41.md). -/
def moveTake (L : LineId) (p : PosId) (old new : Endpoint) (park : Bool) (s : State) : State × Response :=
  match moveChecks s L p old new with
  | some r => (s, r)
  | none => match (s.lines.get L).bridge with
    | some b =>
      let t := commitMove L p old new park b s
      (t, ⟨.done, takeBody t L p new (s.binding p new)⟩)
    | none => (s, .bare .notConnected)

end Sys2Proof.Machine
end

