-- ==== Sys2Proof/Machine/Teardown.lean ====
section
/-! DEFINITION. Teardowns that reach several blocks: closing a position (R14), losing its highway (R15),
removing permissions (R145), and the highway changes (R83, R84, R96, R100, R124, R194, R195). -/

namespace Sys2Proof.Machine

/-! ## Positions -/

/-- Step 3 of R14: a position leaves every camp queue, in ascending line order. -/
def leaveCamps (p : PosId) (cause : Cause) (s : State) : State :=
  s.each (ids 192) fun L => campRemove L p cause

/-- The monitor binding of a handset dropped. -/
def dropMonitorAt (p : PosId) (cause : Cause) (e : Endpoint) (s : State) : State :=
  match s.binding p e with
  | .monitor L => endMonitor L (p, e) cause s
  | _ => s

/-- The holder binding of an endpoint dropped. -/
def dropHolderAt (p : PosId) (cause : Cause) (e : Endpoint) (s : State) : State :=
  match s.binding p e with
  | .holder L => dropHolder L (p, e) cause false s
  | _ => s

/-- Steps 1 to 5 of R14, which R15 follows too; `w` is when the hoots' clash conditions are evaluated. -/
def endCallState (w : ClashEval) (p : PosId) (cause : Cause) (s : State) : State :=
  icmTeardown p cause s
    |> endAllTalk w p cause
    |> leaveCamps p cause
    |>.each [.ha, .hb] (dropMonitorAt p cause)
    |>.each lineEndpoints (dropHolderAt p cause)

/-- Step 6 of R14: every hold that a position owns is released, in ascending line order. -/
def releaseHolds (p : PosId) (cause : Cause) (s : State) : State :=
  s.each (ids 192) fun L t => if (t.lines.get L).holdOwner = some p then releaseHold L cause t else t

/-- The seven steps of POS_CLOSE (R14). -/
def closePosition (p : PosId) (s : State) : State :=
  endCallState .atOnce p .closed s |> releaseHolds p .closed |>.modPos p fun r => { r with isOpen := false }

/-! ## Permissions (R143 to R146) -/

/-- The causes that name the parts of a permission record, in the order of R145. -/
inductive PermPart where
  | intercom | talk | listen | monitor | appearance
  deriving DecidableEq, Repr

/-- The cause of a part's PERMISSION record (R146). -/
def PermPart.cause : PermPart → Cause
  | .intercom => .intercom
  | .talk => .talk
  | .listen => .listen
  | .monitor => .monitor
  | .appearance => .appearance

/-- The parts in the order in which R145 takes them. -/
def permParts : List PermPart := [.intercom, .talk, .listen, .monitor, .appearance]

/-- The members of a set that stand in the old value and not in the new one, ascending (R143). -/
def removed (n : Nat) (old new : BitVec n) : List (Fin n) :=
  (ids n).filter fun i => old.getLsbD i.val && !new.getLsbD i.val

/-- A present set part with a new value (R143). -/
def newSet {n : Nat} (old : BitVec n) : Option (BitVec n) → BitVec n
  | some v => v
  | none => old

/-- The intercom flag that a record would hold (R143): the byte is checked before. -/
def newFlag (old : Bool) : Option Byte → Bool
  | some b => b = 1#8
  | none => old

/-- A permission record with the present parts replaced (R143). -/
def newPerm (f : PermParts) (r : Perm) : Perm :=
  { appearance := newSet r.appearance f.appearance, monitor := newSet r.monitor f.monitor,
    listen := newSet r.listen f.listen, talk := newSet r.talk f.talk, icm := newFlag r.icm f.icm }

/-- A part's value changed (R146). -/
def partChanged (old new : Perm) : PermPart → Bool
  | .intercom => old.icm ≠ new.icm
  | .talk => old.talk ≠ new.talk
  | .listen => old.listen ≠ new.listen
  | .monitor => old.monitor ≠ new.monitor
  | .appearance => old.appearance ≠ new.appearance

/-- The removal of a bridge from the hoot listen set (R145): talk on the hoot ends first, then the key is
unbound. -/
def unlisten (p : PosId) (b : BridgeId) (s : State) : State :=
  let t := endTalkOn b p .permission s
  match (t.positions.get p).keyOn b with
  | some k => unbind p (.key k) .permission t
  | none => t

/-- The removal of a line from the monitor set (R145). -/
def unmonitor (p : PosId) (L : LineId) (s : State) : State :=
  s.each [.ha, .hb] fun e t => if t.binding p e = .monitor L then endMonitor L (p, e) .permission t else t

/-- The removal of a line from the appearance set (R145): a camp entry and a hold end, a holder and a monitor
go on. -/
def unappear (p : PosId) (L : LineId) (s : State) : State :=
  let t := campRemove L p .permission s
  if (t.lines.get L).holdOwner = some p then releaseHold L .permission t else t

/-- The effects of the removals of one part (R145). -/
def removalEffects (p : PosId) (old new : Perm) (part : PermPart) (s : State) : State :=
  match part with
  | .intercom => if old.icm && !new.icm then icmUnpermit p .permission s else s
  | .talk => s.each (removed 96 old.talk new.talk) fun b => endTalkOn b p .permission
  | .listen => s.each (removed 96 old.listen new.listen) (unlisten p)
  | .monitor => s.each (removed 192 old.monitor new.monitor) (unmonitor p)
  | .appearance => s.each (removed 192 old.appearance new.appearance) (unappear p)

/-- One part taken: its PERMISSION record and its effects, when it changed (R143, R145, R146). -/
def permitPart (p : PosId) (kind : ReqKind) (old new : Perm) (part : PermPart) (s : State) : State :=
  if partChanged old new part then
    submit { kind := .permission, pos := some p, request := some kind, cause := some part.cause } s
      |> removalEffects p old new part
  else s

/-- A GRANT or NARROW committed (R143). -/
def commitPermits (p : PosId) (kind : ReqKind) (f : PermParts) (s : State) : State :=
  let old := s.perms.get p
  let new := newPerm f old
  s.modPerm p (fun _ => new) |>.each permParts (permitPart p kind old new)

/-! ## Highways (R194) -/

/-- What the DOWN of position highway `n` ends: the call state of its positions, with FACILITY (R15). They are taken in
ascending order (DESIGN CHOICE, notes/assumptions/42.md). -/
def endPositions (n : HwId) (s : State) : State := s.each (positionsOf n) fun p => endCallState .atEnd p .facility

/-- Position highway `n` goes DOWN (R15, R194). The clash condition of each hoot concerned is evaluated once, at the
end (R135). -/
def posHighwayDown (n : HwId) (s : State) : State :=
  settleClash s (endPositions n { s with posHw := s.posHw.set n ⟨false, 0, 0⟩ })

/-- Position highway `n` comes UP (R15, R194). -/
def posHighwayUp (n : HwId) (s : State) : State := { s with posHw := s.posHw.set n ⟨true, 0, 0⟩ }

/-- A signalling parameter of `ms` as a count of signalling samples (R89). -/
def samplesOf (ms : Nat) : Nat := (ms + 3) / 4

/-- A line's inbound detector in its starting state (R91, R96). -/
def restartDetector (L : LineId) (s : State) : State :=
  s.modRing L fun _ => RingDet.start (samplesOf (s.lines.get L).sig.preQuiet)

/-- Line highway `n` went DOWN: one of its lines (R83). -/
def lineDown (L : LineId) (s : State) : State :=
  if (s.lines.get L).state = .disabled then s
  else
    let old := (s.lines.get L).state
    stripLine L .facility s
      |>.modLine L (fun r => { r with state := .outOfService })
      |> reportChange [] L old .facility

/-- The signalling unit resets a line's detector and generator (R96, R100). -/
def resetSignalling (L : LineId) (s : State) : State :=
  restartDetector L s |>.modGen L fun _ => ⟨0, false⟩

/-- A leg of a line that went OUT_OF_SERVICE leaves its hoot (R124). -/
def legDown (L : LineId) (s : State) : State :=
  match legOf s L with
  | some b => outLeg b L s
  | none => s

/-- A leg of a line that became IDLE rejoins its hoot (R124). -/
def legUp (L : LineId) (s : State) : State :=
  match legOf s L with
  | some b => joinLeg b L s
  | none => s

/-- What the DOWN of line highway `n` ends: the line block, the signalling unit and the speaker-box block each take
it (R83, R96, R100, R124). -/
def endLines (n : HwId) (s : State) : State :=
  s.each (linesOf n) lineDown
    |>.each (linesOf n) resetSignalling
    |>.each (linesOf n) legDown

/-- Line highway `n` goes DOWN (R194). The clash condition of each hoot concerned is evaluated once, at the end (R124,
R135). -/
def lineHighwayDown (n : HwId) (s : State) : State :=
  settleClash s (endLines n { s with lineHw := s.lineHw.set n ⟨false, 0, 0⟩ })

/-- Line highway `n` came UP: one of its lines (R84). -/
def lineUp (L : LineId) (s : State) : State :=
  if (s.lines.get L).state = .outOfService then enterState L .idle .facilityRestored s else s

/-- Line highway `n` comes UP: lines become IDLE, detectors start, legs rejoin, and the clash condition of each hoot
concerned is evaluated once (R84, R96, R124, R135, R194). Lines, then detectors, then legs are taken, each in ascending
order (DESIGN CHOICE, notes/assumptions/42.md). -/
def lineHighwayUp (n : HwId) (s : State) : State :=
  settleClash s (({ s with lineHw := s.lineHw.set n ⟨true, 0, 0⟩ } : State)
    |>.each (linesOf n) lineUp
    |>.each (linesOf n) restartDetector
    |>.each (linesOf n) legUp)

/-- The counts of every highway become 0 (R195). -/
def zeroCounts (s : State) : State :=
  { s with posHw := s.posHw.map fun h => { h with bad := 0, good := 0 }
           lineHw := s.lineHw.map fun h => { h with bad := 0, good := 0 } }

/-- The numbers of the UP highways of one sort. -/
def upHighways (t : Tab Highway 4) : List HwId := (ids 4).filter fun n => (t.get n).up

/-- The frame sync becomes ABSENT: every UP highway becomes DOWN in the same event, and hands on its DOWN:
line highways 0 to 3, then position highways 0 to 3 (R195). All of them are DOWN before the first is handed
on, and the clash condition of each hoot concerned is evaluated once, at the end of the event (R135). -/
def syncLost (s : State) : State :=
  let t := zeroCounts { s with
    syncPresent := false
    posHw := s.posHw.map fun h => { h with up := false }
    lineHw := s.lineHw.map fun h => { h with up := false } }
  settleClash s (t.each (upHighways s.lineHw) endLines |>.each (upHighways s.posHw) endPositions)

end Sys2Proof.Machine
end

