-- ==== Sys2Proof/Machine/Detect.lean ====
section
/-! DEFINITION. The activity detector (R44..R48), and the delivery of its events (R51, R52, R134, R135,
R137). -/

namespace Sys2Proof.Machine

/-- The magnitude of a sample; that of -32768 is 32767 (R44). -/
def magnitude (x : Half) : Nat := min x.toInt.natAbs 32767

/-- The next energy estimate (R45). -/
def nextEnergy (e a : Nat) : Nat := ((e : Int) + ((a : Int) - (e : Int)) / 64).toNat

/-- The parameter set of a source's class (R43). -/
def vadOf (s : State) (x : SourceId) : VadParams := if isLineSource x then s.vadLine else s.vadPos

/-- A detector in QUIET takes a frame (R46). -/
def quietFrame (v : VadParams) (a : Nat) (d : Detector) : Detector × Option Bool :=
  let e := nextEnergy d.energy a
  let n := if v.ton ≤ e then d.onset + 1 else 0
  if v.onset ≤ n then (⟨e, true, 0, 0⟩, some true) else ({ d with energy := e, onset := n }, none)

/-- A detector in ACTIVE takes a frame (R47). -/
def activeFrame (v : VadParams) (a : Nat) (d : Detector) : Detector × Option Bool :=
  let e := nextEnergy d.energy a
  let n := if e < v.toff then d.hang + 1 else 0
  if 1 ≤ n ∧ 8 * v.hangMs ≤ n then (⟨e, false, 0, 0⟩, some false) else ({ d with energy := e, hang := n }, none)

/-- A detector takes a frame: its new record, and the event it raises (`true` is ACTIVITY_START). -/
def detectFrame (v : VadParams) (a : Nat) (d : Detector) : Detector × Option Bool :=
  if d.active then activeFrame v a d else quietFrame v a d

/-! ## Delivery -/

/-- Some ASSIGNED channel names the bridge (R52, R116). -/
def isRecorded (s : State) (b : BridgeId) : Bool :=
  s.channels.list.any fun c => match c with
    | some r => r.bridge = b
    | none => false

/-- The lowest-numbered recorded bridge on whose list the source stands (R52). -/
def recordedBridge (s : State) (x : SourceId) : Option BridgeId :=
  (ids 96).find? fun b => isRecorded s b && (s.bridges.get b).has x

/-- The position of a position source, and the line of a line source (section 4). -/
def sourcePos (x : SourceId) : Option PosId :=
  if h : x.val < 144 then some ⟨x.val / 3, by omega⟩ else none
def sourceLine (x : SourceId) : Option LineId :=
  if h : 144 ≤ x.val then some ⟨x.val - 144, by omega⟩ else none

/-- The talk endpoint of a position source. -/
def sourceEndpoint (x : SourceId) : Option Endpoint :=
  if x.val < 144 then some (match x.val % 3 with | 0 => .ha | 1 => .hb | _ => .mic) else none

/-- START or END, as an ACTIVITY record carries it (R52). -/
def activityCause (started : Bool) : Cause := if started then .start else .endOf

/-- The ACTIVITY record of an event, when R52 calls for one. -/
def recordActivity (x : SourceId) (started : Bool) (s : State) : State :=
  match recordedBridge s x with
  | some b => submit { kind := .activity, pos := sourcePos x, endpoint := sourceEndpoint x,
                       line := sourceLine x, bridge := some b, cause := some (activityCause started) } s
  | none => s

/-- The bridge pool takes an event, on every bridge whose list holds the source (R37, R39, R51). -/
def poolActivity (x : SourceId) (started : Bool) (s : State) : State :=
  { s with bridges := s.bridges.map fun r => if r.has x then r.takeActivity s x started else r }

/-- The talk-idle timer of a granted talker takes an event of its MIC (R134). -/
def Talker.takeActivity (periodMs : Nat) (x : SourceId) (started : Bool) (t : Talker) : Talker :=
  if micSource t.pos = x then { t with timer := if started then none else startIdle periodMs } else t

/-- A hoot takes the ACTIVITY_START of a contributor: a QUIET hoot becomes LIVE (R137). -/
def hootLive (b : BridgeId) (s : State) : State :=
  match s.hoots.get b with
  | some h => if h.live then s
      else s.modHoot b (fun h => { h with live := true }) |> postListeners b (.hootState b true)
  | none => s

/-- The speaker-box block takes an event of a contributor of hoot `b`, in the three steps of R135. -/
def hootActivity (x : SourceId) (started : Bool) (b : BridgeId) (s : State) : State :=
  if (s.hoots.get b).isSome && (s.bridges.get b).has x then
    s.modHoot b (fun h => { h with granted := h.granted.map (Talker.takeActivity (1000 * h.talkIdleS) x started) })
      |> (if started then hootLive b else id)
      |> evalClash b
  else s

/-- An activity event delivered: its record, the bridge pool, the speaker-box block (R51). -/
def deliverActivity (x : SourceId) (started : Bool) (s : State) : State :=
  recordActivity x started s
    |> poolActivity x started
    |>.each (ids 96) (hootActivity x started)

/-- A source enters ACTIVE or QUIET, both counts 0, and the event is delivered (R46, R47, R51). -/
def raiseActivity (x : SourceId) (started : Bool) (s : State) : State :=
  s.modDet x (fun d => { d with active := started, onset := 0, hang := 0 }) |> deliverActivity x started

end Sys2Proof.Machine
end

