-- ==== Sys2Proof/Machine/Signal.lean ====
section
/-! DEFINITION. The signalling unit: the glitch filter (R90), the inbound detector (R91..R95), a signalling
sample of every running detector (R88), and the outbound bit (R97). -/

namespace Sys2Proof.Machine

/-- The detector of a line is running (R88). -/
def detectorRuns (s : State) (L : LineId) : Bool :=
  ((s.lines.get L).ltype = .mr || (s.lines.get L).ltype = .ar) && s.lineUp L

/-- The detector enters QUIET with a quiet count, and ARMED at once when the count is at least P (R91). -/
def RingDet.toQuiet (P n : Nat) (d : RingDet) : RingDet :=
  if P ≤ n then { d with state := .armed, quiet := 0, burst := 0, gap := 0, tail := 0 }
  else { d with state := .quiet, quiet := n, burst := 0, gap := 0, tail := 0 }

/-- A present sample passed by the filter (R92, R93, R94). `true` is RING_START. -/
def RingDet.present (g : SigParams) (d : RingDet) : RingDet × Option Bool :=
  match d.state with
  | .quiet => (d.toQuiet (samplesOf g.preQuiet) 0, none)
  | .armed => ({ d with state := .burst, burst := 1, gap := 0 }, none)
  | .burst =>
    if samplesOf g.minBurst ≤ d.burst + 1 then ({ d with state := .ringing, burst := 0, gap := 0 }, some true)
    else ({ d with burst := d.burst + 1, gap := 0 }, none)
  | .ringing => (d, none)
  | .tail => ({ d with state := .ringing, tail := 0 }, none)

/-- An absent sample passed by the filter (R92, R93, R94). `false` is RING_END. -/
def RingDet.absent (g : SigParams) (d : RingDet) : RingDet × Option Bool :=
  match d.state with
  | .quiet => (d.toQuiet (samplesOf g.preQuiet) (d.quiet + 1), none)
  | .armed => (d, none)
  | .burst =>
    if d.gap + 1 ≤ samplesOf g.gapAllow then ({ d with gap := d.gap + 1 }, none)
    else (d.toQuiet (samplesOf g.preQuiet) (d.gap + 1), none)
  | .ringing => ({ d with state := .tail, tail := 1 }, none)
  | .tail =>
    if samplesOf g.postQuiet ≤ d.tail + 1 then
      (d.toQuiet (samplesOf g.preQuiet) (samplesOf g.postQuiet), some false)
    else ({ d with tail := d.tail + 1 }, none)

/-- The samples that the glitch filter passes for a raw sample, and the filter after it (R90). -/
def RingDet.filter (bit : Bool) (d : RingDet) : List Bool × RingDet :=
  if bit then
    if d.lastPresent then ([true], d)
    else if d.held then ([true, true], { d with held := false, lastPresent := true })
    else ([], { d with held := true })
  else if d.held then ([false, false], { d with held := false, lastPresent := false })
  else ([false], { d with lastPresent := false })

/-- The detector takes one passed sample, after the events raised so far (R90). -/
def RingDet.step (g : SigParams) (x : RingDet × List Bool) (bit : Bool) : RingDet × List Bool :=
  let y := if bit then x.1.present g else x.1.absent g
  (y.1, x.2 ++ y.2.toList)

/-- A raw sample taken by the filter and the detector: the detector after it, and the events it raised in
order (R90..R95). -/
def RingDet.sample (g : SigParams) (bit : Bool) (d : RingDet) : RingDet × List Bool :=
  let f := d.filter bit
  f.1.foldl (RingDet.step g) (f.2, [])

/-- A ring event handed to the line block (R95). -/
def deliverRing (L : LineId) (started : Bool) (s : State) : State :=
  if started then takeRingStart L s else takeRingEnd L s

/-- What one line's running detector makes of its raw bit, when its highway is among those heard. -/
def sampleOf (s : State) (heard : HwId → Bool) (bits : BitVec 192) (L : LineId) : RingDet × List Bool :=
  if detectorRuns s L && heard (hwOfLine L) then
    (s.rings.get L).sample (s.lines.get L).sig (bits.getLsbD L.val)
  else (s.rings.get L, [])

/-- The events that a signalling sample raises, line by line. -/
def ringEvents (s : State) (heard : HwId → Bool) (bits : BitVec 192) : List (LineId × Bool) :=
  (ids 192).flatMap fun L => (sampleOf s heard bits L).2.map fun e => (L, e)

/-- A signalling sample of every running detector at once; the events are then taken in an order that is free (R88,
R95). `heard` is false for a line highway that came UP in this very frame: its detectors start with the next
signalling frame (R96), and the bits that it brought while DOWN are not read (R193). -/
def signallingSample (heard : HwId → Bool) (bits : BitVec 192) (s : State) : State :=
  ({ s with rings := Tab.ofFn fun L => (sampleOf s heard bits L).1 } : State).inFreeOrder (ringEvents s heard bits)
    fun x => deliverRing x.1 x.2

/-- The outbound presence bit of a line, from its generator (R97). -/
def Generator.drives (g : Generator) : Bool := g.sustained || 0 < g.burst

/-- The outbound presence bits of all lines (R97). -/
def presenceBits (s : State) : BitVec 192 :=
  BitVec.ofBoolListLE ((ids 192).map fun L => (s.gens.get L).drives) |>.setWidth 192

end Sys2Proof.Machine
end

