-- ==== Sys2Proof/Machine/Mixing.lean ====
section
/-! DEFINITION. One frame: the inbound slots (R193), the mixing engine (R27..R34, R160), the detectors (R44,
R51), the signalling frame count (R88), and the check slots (R194). -/

namespace Sys2Proof.Machine

/-! ## Inbound slots (R193) -/

/-- The sample of a position source: slot `3i + e` of its highway, 0 while the highway is DOWN. -/
def posSample (s : State) (f : InFrame) (p : PosId) (e : Fin 3) : Half :=
  if s.posUp p then (f.position.get (hwOfPos p)).get ⟨3 * (p.val % 12) + e.val, by omega⟩ else 0#16

/-- The sample of a line source: slot `j` of its highway, 0 while the highway is DOWN. -/
def lineSample (s : State) (f : InFrame) (L : LineId) : Half :=
  if s.lineUp L then (f.line.get (hwOfLine L)).get ⟨L.val % 48, by omega⟩ else 0#16

/-- The sample of every source in a frame. -/
def samples (s : State) (f : InFrame) : Tab Half 336 :=
  Tab.ofFn fun x =>
    if h : x.val < 144 then posSample s f ⟨x.val / 3, by omega⟩ ⟨x.val % 3, by omega⟩
    else lineSample s f ⟨x.val - 144, by omega⟩

/-- The inbound presence bit of a line: place `j mod 16` of slot `48 + j / 16`, counted from the first bit
sent, which is the most significant (R193). -/
def presenceIn (f : InFrame) (L : LineId) : Bool :=
  ((f.line.get (hwOfLine L)).get ⟨48 + L.val % 48 / 16, by omega⟩).getLsbD (15 - L.val % 16)

/-- The inbound presence bits of all lines. -/
def presenceIns (f : InFrame) : BitVec 192 :=
  BitVec.ofBoolListLE ((ids 192).map (presenceIn f)) |>.setWidth 192

/-! ## Taps (R27, R28) -/

/-- A tap: the bridge it reads, its multiplier T, and its priority flag. -/
structure Tap where
  bridge : BridgeId
  mult : Nat
  priority : Bool
  deriving DecidableEq, Repr

/-- The bridge that a binding connects to (R5). -/
def bindingBridge (s : State) : Binding → Option BridgeId
  | .holder L => (s.lines.get L).bridge
  | .monitor L => (s.lines.get L).bridge
  | .icm c => some c
  | .listen b => some b
  | .talk _ => none
  | .none => none

/-- The tap of an ear (R27). -/
def earTaps (s : State) (v : Binding) (volume : Nat) : List Tap :=
  (bindingBridge s v).toList.map fun b => ⟨b, volume, false⟩

/-- The tap of a key on one side (R5, R27). -/
def keyTap (s : State) (r : Position) (side : Side) (k : KeyId) : Option Tap :=
  let key := r.keys.get k
  if key.side = side then (bindingBridge s key.binding).map fun b => ⟨b, key.level, key.priority⟩ else none

/-- The taps of a loudspeaker: its keys, and the intercom tap, which is always a priority tap (R27, R115). -/
def speakerTaps (s : State) (r : Position) (side : Side) : List Tap :=
  (ids 8).filterMap (keyTap s r side) ++
    if r.icmSide = side then r.feed.toList.map fun b => ⟨b, r.icmT, true⟩ else []

/-- The taps of a position's sinks; a CLOSED position has none (R27). -/
def posTaps (s : State) (r : Position) (k : Nat) : List Tap :=
  if !r.isOpen then []
  else match k with
  | 0 => earTaps s r.ha r.ea
  | 1 => earTaps s r.hb r.eb
  | 2 => speakerTaps s r .l
  | _ => speakerTaps s r .r

/-- The tap of a line's sink (R27). -/
def lineTaps (s : State) (L : LineId) : List Tap :=
  let r := s.lines.get L
  if r.ltype = .ht then
    match legOf s L with
    | some b => if (s.bridges.get b).has (lineSource L) then [⟨b, 1024, false⟩] else []
    | none => []
  else if r.state = .connected || r.state = .held then r.bridge.toList.map fun b => ⟨b, 1024, false⟩
  else []

/-- The taps of a sink (R27). -/
def tapsOf (s : State) (k : SinkId) : List Tap :=
  if h : k.val < 192 then posTaps s (s.positions.get ⟨k.val / 4, by omega⟩) (k.val % 4)
  else lineTaps s ⟨k.val - 192, by omega⟩

/-- The source that every tap of a sink leaves out (R28): an ear's own mouth, a loudspeaker's MIC, a line's
own source. -/
def excluded (k : SinkId) : SourceId :=
  if h : k.val < 192 then ⟨3 * (k.val / 4) + min (k.val % 4) 2, by omega⟩ else ⟨k.val - 48, by omega⟩

/-- The sink is a loudspeaker. -/
def isSpeaker (k : SinkId) : Bool := k.val < 192 && 2 ≤ k.val % 4

/-! ## Arithmetic (R29..R33) -/

/-- The effective gain of an entry (R29). -/
def Contrib.effGain (c : Contrib) : Nat := c.gain / 2 ^ c.shift

/-- The product of an entry (R29). -/
def product (x : Tab Half 336) (c : Contrib) : Int := (x.get c.source).toInt * (c.effGain : Int)

/-- The bridge sum of a tap: every entry but the excluded one (R30). -/
def bridgeSum (x : Tab Half 336) (cs : List Contrib) (out : SourceId) : Int :=
  ((cs.filter fun c => c.source ≠ out).map (product x)).sum

/-- Division by unity gain, with a remainder of one half rounded upward (R30, R32). -/
def unity (v : Int) : Int := (v + 512) / 1024

/-- A tap is ducked (R31). -/
def ducked (s : State) (k : SinkId) (taps : List Tap) (t : Tap) : Bool :=
  isSpeaker k && !t.priority && taps.any fun u => u.priority && (s.bridges.get u.bridge).active

/-- The duck shift that a sink's position has; a line's sink has none (R31). -/
def duckOf (s : State) (k : SinkId) : Nat :=
  if h : k.val < 192 then (s.positions.get ⟨k.val / 4, by omega⟩).duck else 0

/-- The effective multiplier of a tap (R31). -/
def effMult (s : State) (k : SinkId) (taps : List Tap) (t : Tap) : Nat :=
  if ducked s k taps t then t.mult / 2 ^ duckOf s k else t.mult

/-- The sink accumulator (R32). -/
def accumulator (s : State) (x : Tab Half 336) (k : SinkId) : Int :=
  let taps := tapsOf s k
  (taps.map fun t => unity (bridgeSum x (s.bridges.get t.bridge).contributors (excluded k)) *
    (effMult s k taps t : Int)).sum

/-- A value limited to the sample range (section 5.2). -/
def sat (v : Int) : Int := max (-32768) (min 32767 v)

/-- The unsaturated output of every sink (R32). -/
def mixed (s : State) (x : Tab Half 336) : Tab Int 384 := Tab.ofFn fun k => unity (accumulator s x k)

/-- The clip counts after a frame: one more where saturation changed the value (R33). -/
def clipped (clips : Tab Nat 384) (z : Tab Int 384) : Tab Nat 384 :=
  clips.mapIdx fun k n => if sat (z.get k) ≠ z.get k then satCount (n + 1) else n

/-! ## Recording samples (R34, R160) -/

/-- The loudspeaker on the side of a key. -/
def keySink (s : State) (p : PosId) (k : KeyId) : SinkId :=
  speakerSink p ((s.positions.get p).keys.get k).side

/-- The left and right samples of a channel (R160): the source that its endpoint fixes, raw, and the output
of the sink that it fixes. -/
def channelSamples (s : State) (x : Tab Half 336) (z : Tab Half 384) : Option Channel → Half × Half
  | none => (0#16, 0#16)
  | some r => match r.endpoint with
    | .ha => (x.get (posSource r.pos 0), z.get (posSink r.pos 0))
    | .hb => (x.get (posSource r.pos 1), z.get (posSink r.pos 1))
    | .mic => (x.get (micSource r.pos), match r.key with
        | some k => z.get (keySink s r.pos k)
        | none => z.get (speakerSink r.pos (s.positions.get r.pos).icmSide))
    | .key k => (if talksOn s r.pos k then x.get (micSource r.pos) else 0#16, z.get (keySink s r.pos k))

/-- The mixing engine computes a frame from the state that stands as it begins: the sinks, the clip counts,
the recording samples, and the outbound presence bits (R32..R36, R97). -/
def mixFrame (x : Tab Half 336) (s : State) : State :=
  let m := mixed s x
  let z := m.map fun v => BitVec.ofInt 16 (sat v)
  { s with
    sinkOut := z
    clips := clipped s.clips m
    recOut := s.channels.map (channelSamples s x z)
    presenceOut := presenceBits s }

/-! ## The frame as an event (R192, R194) -/

/-- How a highway takes its check slot: its counts after the frame, and its new state when it changes
(R194). -/
def checkSlot (correct : Bool) (h : Highway) : Highway × Option Bool :=
  if h.up then
    if correct then ({ h with bad := 0 }, none)
    else if Config.badLimit ≤ h.bad + 1 then (h, some false)
    else ({ h with bad := h.bad + 1 }, none)
  else
    if !correct then ({ h with good := 0 }, none)
    else if Config.goodLimit ≤ h.good + 1 then (h, some true)
    else ({ h with good := h.good + 1 }, none)

/-- The check slot of an inbound highway is correct (R194). -/
def slotCorrect (slots : Tab Half 64) : Bool := slots.get 63 = Config.checkPattern

/-- What falls together in one frame. -/
inductive FrameEvent where
  | activity (x : SourceId) (started : Bool)
  | sample
  | position (n : HwId) (up : Bool)
  | line (n : HwId) (up : Bool)
  deriving DecidableEq, Repr

/-- One of the events of a frame, taken as an event of its own (R156, R192). `heard` is the line highways that were UP
when the frame began. -/
def takeFrameEvent (heard : HwId → Bool) (bits : BitVec 192) (e : FrameEvent) (s : State) : State :=
  let s := s.begin none
  match e with
  | .activity x started => raiseActivity x started s
  | .sample => signallingSample heard bits s
  | .position n up => if up then posHighwayUp n s else posHighwayDown n s
  | .line n up => if up then lineHighwayUp n s else lineHighwayDown n s

/-- Every detector takes the frame. One that raises an event enters its new state when the event is taken
(R44..R47, R51). -/
def detect (x : Tab Half 336) (s : State) : State :=
  { s with detectors := s.detectors.mapIdx fun i d =>
      match detectFrame (vadOf s i) (magnitude (x.get i)) d with
      | (d', none) => d'
      | (d', some _) => { d with energy := d'.energy } }

/-- The activity events that a frame raises. -/
def activityEvents (x : Tab Half 336) (s : State) : List FrameEvent :=
  (ids 336).filterMap fun i =>
    (detectFrame (vadOf s i) (magnitude (x.get i)) (s.detectors.get i)).2.map (.activity i)

/-- Every highway compares its check slot; one that changes does so when the change is taken (R194). -/
def checkSlots (f : InFrame) (s : State) : State :=
  { s with posHw := s.posHw.mapIdx fun n h => (checkSlot (slotCorrect (f.position.get n)) h).1
           lineHw := s.lineHw.mapIdx fun n h => (checkSlot (slotCorrect (f.line.get n)) h).1 }

/-- The highway changes that a frame decides (R194). -/
def highwayEvents (f : InFrame) (s : State) : List FrameEvent :=
  ((ids 4).filterMap fun n => (checkSlot (slotCorrect (f.line.get n)) (s.lineHw.get n)).2.map (.line n)) ++
  (ids 4).filterMap fun n => (checkSlot (slotCorrect (f.position.get n)) (s.posHw.get n)).2.map (.position n)

/-- The frame count of the signalling unit advances (R88). -/
def advanceCount (s : State) : State := { s with frameCount := (s.frameCount + 1) % 32 }

/-- A frame-sync pulse (R192): the frame sync is PRESENT, the mixing engine computes the frame, every
detector and highway takes it, the signalling frame count advances; the events of the frame are then taken
in an order that is free. -/
def framePulse (f : InFrame) (s : State) : State :=
  let s := { s with syncPresent := true, pulsed := true }
  let x := samples s f
  let t := mixFrame x s |> detect x |> advanceCount |> checkSlots f
  t.inFreeOrder
    (activityEvents x s ++ (if t.frameCount = 0 then [.sample] else []) ++ highwayEvents f s)
    (takeFrameEvent (fun n => (s.lineHw.get n).up) (presenceIns f))

/-! ## What the highways drive (R193, R196)

Slots are driven in frames, and there are none while the frame sync is ABSENT: every output is then 0, as R196 says of
reset, after which no pulse has yet come (notes/assumptions/26.md). -/

/-- An outbound slot of position highway `n`. -/
def posSlotOut (s : State) (n : HwId) (k : Fin 64) : Half :=
  if !s.syncPresent then 0#16
  else if h : k.val < 48 then s.sinkOut.get ⟨48 * n.val + k.val, by omega⟩
  else if k.val = 63 then Config.checkPattern
  else 0#16

/-- An outbound slot of line highway `n`; the presence bits stand most significant first. -/
def lineSlotOut (s : State) (n : HwId) (k : Fin 64) : Half :=
  if !s.syncPresent then 0#16
  else if h : k.val < 48 then s.sinkOut.get ⟨192 + 48 * n.val + k.val, by omega⟩
  else if k.val < 51 then
    (s.presenceOut.extractLsb' (48 * n.val + 16 * (k.val - 48)) 16).reverse
  else if k.val = 63 then Config.checkPattern
  else 0#16

/-- A slot of the recording highway. -/
def recSlotOut (s : State) (k : Fin 128) : Half :=
  let c := s.recOut.get ⟨k.val / 2, by omega⟩
  if !s.syncPresent then 0#16 else if k.val % 2 = 0 then c.1 else c.2

end Sys2Proof.Machine
end

