-- ==== Sys2Proof/Machine/Requests.lean ====
section
/-! DEFINITION. Taking a request: the five tests of a complete frame (R181), the classes and links (R147,
R148), the violation latch (R149, R150), the tests of a position request (R3), and the response (R180,
R190). -/

namespace Sys2Proof.Machine

/-- The classes of R147. -/
inductive ReqClass where
  | all | position | admin | recorder
  deriving DecidableEq, Repr

/-- The class of a request kind (R147). -/
def ReqKind.cls : ReqKind → ReqClass
  | .noticeRead | .noticeMask | .query | .linkReset | .latchClear => .all
  | .posOpen | .posClose | .lineTake | .lineDrop | .linePark | .lineSignal | .campCancel | .keySet
  | .levelSet | .talkOn | .talkOff | .icmDial | .icmGroup | .icmPickup | .icmHangup | .narrow => .position
  | .lineDefine | .hootDefine | .hootRemove | .groupDefine | .grant | .watchSet | .vadSet | .logLimits
  | .icmPolicy | .timeSet | .forceDrop | .partClear | .bridgeJoin | .bridgeLeave => .admin
  | .logRead | .logStatus | .gapClear => .recorder

/-- The links that may send a class (R147). -/
def maySend (l : LinkId) : ReqClass → Bool
  | .all => true
  | .position => l ≠ .recorder
  | .admin => l = .adm
  | .recorder => l = .recorder

/-- The kinds that the latch test lets through (R150). -/
def latchExempt : ReqKind → Bool
  | .noticeRead | .query | .latchClear | .linkReset => true
  | _ => false

/-- What a request names, as far as a PERMISSION record of its violation carries it (R149). -/
structure Named where
  pos : Option PosId := none
  line : Option LineId := none
  hoot : Option BridgeId := none
  deriving DecidableEq, Repr

/-- The violation cause of a link and a refusal (R149, R191). -/
def violationCause (l : LinkId) (r : Result) : Cause := if r = .wrongLink then .wrongLink l else .notPermitted l

/-- A latch-setting refusal: the latch keeps its first violation, and a PERMISSION record is written (R149). -/
def violate (l : LinkId) (kind : ReqKind) (r : Result) (n : Named) (s : State) : State :=
  submit { kind := .permission, request := some kind, cause := some (violationCause l r), pos := n.pos,
           line := n.line, hoot := n.hoot }
    (if (s.latch l).isNone then s.setLatch l (some ⟨kind, r⟩) else s)

/-- A request of class POSITION on a PC link names a position of another link (R148). A number above 47 is
no scope violation. -/
def outOfScope (l : LinkId) (kind : ReqKind) (p : Option PosId) : Bool :=
  match l, p with
  | .pc n, some p => kind.cls = .position && hwOfPos p ≠ n
  | _, _ => false

/-- Tests 2 to 5 of R181: latch, class, scope, owner. -/
def decideRequest (l : LinkId) (kind : ReqKind) (n : Named) (owner : State → State × Response) (s : State) :
    State × Response :=
  if (s.latch l).isSome && !latchExempt kind then (s, .bare .latched)
  else if !maySend l kind.cls then (violate l kind .wrongLink n s, .bare .wrongLink)
  else if outOfScope l kind n.pos then (violate l kind .notPermitted n s, .bare .notPermitted)
  else owner s

/-- The response of a request is ready to be clocked out after its fillers (R180). -/
def respond (l : LinkId) (kind : Byte) (x : State × Response) : State :=
  x.1.modLink l fun k => { k with tx := .wait 0, response := x.2.bytes kind, readCount := 0 }

/-- A request frame complete on a link, taken whole (R181). `wf` is the outcome of the frame test. -/
def takeRequest (l : LinkId) (kind : ReqKind) (wf : Bool) (n : Named) (owner : State → State × Response)
    (s : State) : State :=
  let s := s.begin (some l)
  respond l (BitVec.ofNat 8 kind.code)
    (if wf then decideRequest l kind n owner s else (s, .bare .malformed))

/-- Which of the tests of R3 a position request meets. -/
structure PosTests where
  needsOpen : Bool := true
  needsUp : Bool := false
  deriving DecidableEq, Repr

/-- The tests of R3: range, OPEN (POS_OPEN is exempt), and the highway UP for a binding request. -/
def posTests (t : PosTests) (p : Byte) (f : PosId → State → State × Response) (s : State) : State × Response :=
  match posOf p with
  | none => (s, .bare .range)
  | some p =>
    if t.needsOpen && !(s.positions.get p).isOpen then (s, .bare .closed)
    else if t.needsUp && !s.posUp p then (s, .bare .facility)
    else f p s

/-- A request of the position catalogue (R3, R181). -/
def positionRequest (l : LinkId) (kind : ReqKind) (wf : Bool) (t : PosTests) (p : Byte) (n : Named)
    (f : PosId → State → State × Response) (s : State) : State :=
  takeRequest l kind wf { n with pos := posOf p } (posTests t p f) s

/-- A refusal that changes nothing. -/
def refuse (r : Result) (s : State) : State × Response := (s, .bare r)

/-- DONE, with a body. -/
def done (body : List Byte) (s : State) : State × Response := (s, ⟨.done, body⟩)

/-- A NOT_PERMITTED refusal that sets the link's latch (R149). -/
def forbid (l : LinkId) (kind : ReqKind) (n : Named) (s : State) : State × Response :=
  (violate l kind .notPermitted n s, .bare .notPermitted)

/-- What a command answers: its next state. No command of the part faults or refuses. -/
abbrev Outcome := Host.Outcome State Fault Refusal

end Sys2Proof.Machine
end

