-- ==== Sys2Proof/Machine/Query.lean ====
section
/-! DEFINITION. The bodies of QUERY responses (R17, R41, R86, R101, R119, R140, R164, R182), and of the
responses that show a record as stored. The order of fields is that of the rules; the forms that the rules
leave open are those of notes/assumptions/8.md. -/

namespace Sys2Proof.Machine

/-- A state with two values, the first listed being 0 (R190). -/
def bFirst (first : Bool) : List Byte := b1 (if first then 0 else 1)

/-- A timer of a bridge or a call: RUNNING 0 or STOPPED 1, and the time remaining, absent when it is STOPPED (R41, R119;
DESIGN CHOICE, notes/assumptions/8.md). -/
def bTimer (t : Option Nat) : List Byte := bFirst t.isSome ++ b4Opt t

/-- An optional channel. -/
def bChan (c : Option ChanId) : List Byte := bOpt (c.map (·.val))

/-! ## Position (R17, R142) -/

/-- A key: its binding, T, side and priority (R10, R17). R190 gives KEY_SET's codes for the request alone and R191 the
binding value of BINDING_LOST alone; the binding takes the two bytes of R191 here (DESIGN CHOICE,
notes/assumptions/8.md). -/
def bKey (k : Key) : List Byte := bBinding k.binding ++ b2 k.level ++ b1 k.side.code ++ bYes k.priority

/-- The five parts of a permission record (R142, R143). -/
def bPerm (r : Perm) : List Byte :=
  bMap192 r.appearance ++ bMap192 r.monitor ++ bMap96 r.listen ++ bMap96 r.talk ++ bYes r.icm

/-- The levels of a position, in the order of the fields of LEVEL_SET (R12). -/
def bLevels (r : Position) : List Byte :=
  b2 r.ea ++ b2 r.eb ++ b2 r.icmT ++ b1 r.icmSide.code ++ b2 r.gainHA ++ b2 r.gainHB ++ b2 r.gainMIC ++ b2 r.duck

/-- The service state OPEN 0 or CLOSED 1 and the highway state UP 0 or DOWN 1 (R4, R17). -/
def bService (s : State) (p : PosId) : List Byte := bFirst (s.positions.get p).isOpen ++ bFirst (s.posUp p)

/-- The clip counts of a position's four sinks (R33). -/
def posClips (s : State) (p : PosId) : List Byte := (ids 4).flatMap fun k => b2 (s.clips.get (posSink p k))

/-- The body of a position QUERY (R17). The bindings of HA and HB, the use of the MIC (NONE, ICM or TALK) and the
binding of each key take the two bytes of R191, which the spec fixes for BINDING_LOST alone (DESIGN CHOICE,
notes/assumptions/8.md). -/
def posBody (s : State) (p : PosId) : List Byte :=
  let r := s.positions.get p
  bService s p ++ bBinding r.ha ++ bBinding r.hb ++ bBinding r.mic ++ r.keys.list.flatMap bKey ++
    b2 r.ea ++ b2 r.eb ++ b1 r.icmSide.code ++ b2 r.icmT ++ bOpt (r.feed.map (·.val)) ++
    b2 r.gainHA ++ b2 r.gainHB ++ b2 r.gainMIC ++ b2 r.duck ++
    b1 (s.icmState p).code ++ bOpt ((s.icmState p).call.map (·.val)) ++ bOpt ((s.waiting p).map (·.val)) ++
    bPerm (s.perms.get p) ++ posClips s p

/-! ## Line (R86, R101) -/

/-- A signalling parameter in milliseconds and in samples (R89, R101), the one beside the other (DESIGN CHOICE,
notes/assumptions/8.md). -/
def bSig (ms : Nat) : List Byte := b2 ms ++ b2 (samplesOf ms)

def bSigParams (g : SigParams) : List Byte :=
  bSig g.preQuiet ++ bSig g.minBurst ++ bSig g.gapAllow ++ bSig g.postQuiet ++ b2 g.outBurst

/-- The fields that LINE_DEFINE stores (R58, R89). -/
def bLineFields (r : Line) : List Byte :=
  b1 r.ltype.code ++ b1 r.privacy.code ++ b1 r.policy.code ++ b2 r.guardMs ++ b2 r.offerS ++ b2 r.recallS ++
    b2 r.alertS ++ b2 r.autoReleaseS ++ b1 r.reload.code ++ bSigParams r.sig

/-- A party or holder with its channel (R86, R119). -/
def bPartyChan (s : State) (x : PosId × Endpoint) : List Byte := bParty x ++ bChan (channelAt s x.1 x.2)

/-- The signalling part (R101). It carries the five signalling parameters of the body, once: R86 lists them after the
reload mask as well (DESIGN CHOICE, notes/assumptions/8.md). -/
def signalBody (s : State) (L : LineId) : List Byte :=
  let d := s.rings.get L
  let g := s.gens.get L
  bYes (detectorRuns s L) ++ b1 d.state.code ++ b2 d.quiet ++ b2 d.burst ++ b2 d.gap ++ b2 d.tail ++
    bYes d.held ++ bSigParams (s.lines.get L).sig ++ b4 g.burst ++ bYes g.sustained ++
    bYes (s.syncPresent && s.presenceOut.getLsbD L.val)

/-- The body of a LINE (R86), with its signalling part (R101), which holds the signalling parameters. Each entry of the
camp queue carries a yes-or-no byte for the mark of the offered party, and the line timer stands as its kind, 0 for none,
and the time remaining (DESIGN CHOICE, notes/assumptions/8.md). -/
def lineBody (s : State) (L : LineId) : List Byte :=
  let r := s.lines.get L
  b1 r.ltype.code ++ b1 r.privacy.code ++ b1 r.policy.code ++ b1 r.state.code ++
    bList (bPartyChan s) r.holders ++ bList bParty r.monitors ++ bOpt (r.holdOwner.map (·.val)) ++
    bList (fun p => b1 p.val ++ bYes (isOffered r p)) r.camp ++ bOpt (r.bridge.map (·.val)) ++
    bYes r.farPresent ++ bYes r.pendingRing ++ bYes r.watch ++
    b1 (timerCode r.timer) ++ b4Opt (r.timer.map (·.remaining)) ++
    b2 r.guardMs ++ b2 r.offerS ++ b2 r.recallS ++ b2 r.alertS ++ b2 r.autoReleaseS ++ b1 r.reload.code ++
    signalBody s L ++ b2 (s.clips.get (lineSink L))

/-! ## Bridge (R41) -/

def bContrib (s : State) (c : Contrib) : List Byte :=
  b2 c.source.val ++ b2 c.gain ++ b2 c.shift ++ b2 c.effGain ++ b1 c.origin.code ++ bYes (s.active c.source)

/-- What the owner field names (R18). -/
def bOwner (b : BridgeId) : BridgeUse → List Byte
  | .free => bOpt none
  | .line L => b1 L.val
  | .icm => b1 b.val
  | .hoot => b1 b.val

/-- The taps on a bridge, as they stand for the next frame: sink, T, priority, ducked (R41). They are listed by
ascending sink, and on a loudspeaker keys 0..7 before the intercom tap (DESIGN CHOICE, notes/assumptions/8.md). -/
def bTaps (s : State) (b : BridgeId) : List Byte :=
  let all := (ids 384).flatMap fun k =>
    let taps := tapsOf s k
    (taps.filter fun t => t.bridge = b).map fun t =>
      b2 k.val ++ b2 t.mult ++ bYes t.priority ++ bYes (ducked s k taps t)
  bList id all

/-- The body of a bridge QUERY (R41). The idle timer period takes the two bytes of a period (R190), in seconds, the unit
of the ranges that R39 gives the owners' periods (DEDUCED, notes/assumptions/8.md). -/
def bridgeBody (s : State) (b : BridgeId) : List Byte :=
  let r := s.bridges.get b
  b1 r.use.code ++ bOwner b r.use ++ bList (bContrib s) r.contributors ++ bYes r.active ++
    b2 (r.period / 1000) ++ b1 r.mask.code ++ bTimer r.idle ++ bTaps s b

/-! ## Hoot (R140) -/

/-- The reduction shift of a source on a bridge. -/
def shiftOn (s : State) (b : BridgeId) (x : SourceId) : Nat :=
  match entryOf s b x with
  | some c => c.shift
  | none => 0

def bLeg (s : State) (b : BridgeId) (x : Leg) : List Byte :=
  b1 x.line.val ++ b2 x.gain ++ bFirst x.joined ++ b2 (shiftOn s b (lineSource x.line)) ++
    bYes (s.active (lineSource x.line))

/-- The talk-idle time remaining of a granted entry: a STOPPED timer shows the full period, which its stop restored
(R134), and a hoot without a talk idle period has no timer. -/
def talkRemaining (h : Hoot) (x : Talker) : Option Nat :=
  match x.timer with
  | some n => some n
  | none => if h.talkIdleS = 0 then none else some (1000 * h.talkIdleS)

def bTalker (s : State) (b : BridgeId) (h : Hoot) (x : Talker) : List Byte :=
  b1 x.pos.val ++ b1 x.key.val ++ bChan (channelAt s x.pos .mic) ++ b2 (shiftOn s b (micSource x.pos)) ++
    bYes (s.active (micSource x.pos)) ++ b4Opt (talkRemaining h x)

/-- The defined fields of a hoot, but its legs (R120). -/
def bHootFields (h : Hoot) : List Byte :=
  b2 h.slots ++ b2 h.talkIdleS ++ b2 h.quietS ++ b1 h.policy.code ++ b2 h.shift ++ bYes h.record

/-- The positions and keys that listen to a hoot, by ascending position and then key: R140 names no order (DESIGN
CHOICE, notes/assumptions/8.md). -/
def listeners (s : State) (b : BridgeId) : List (PosId × KeyId) :=
  (ids 48).flatMap fun p =>
    ((ids 8).filter fun k => s.binding p (.key k) = .listen b).map fun k => (p, k)

def bPosKey (x : PosId × KeyId) : List Byte := b1 x.1.val ++ b1 x.2.val

def hootBody (s : State) (b : BridgeId) (h : Hoot) : List Byte :=
  bHootFields h ++ bList (bLeg s b) h.legs ++ bList (bTalker s b h) h.granted ++ bList bPosKey h.queue ++
    bYes h.clashing ++ bFirst h.live ++ bList bPosKey (listeners s b)

/-! ## Call (R119) -/

def callBody (s : State) (r : Call) : List Byte :=
  b1 r.mode.kindCode ++ b1 r.mode.code ++ bOpt (r.group.map (·.val)) ++ bParty r.caller ++
    bList (fun x => b1 x.pos.val ++ bYes x.waiting) r.presented ++ bList (bPartyChan s) r.parties ++
    bYes r.active ++ bTimer r.alert

/-! ## Channel and REC_MAP (R164) -/

/-- A channel record: FREE 0 or ASSIGNED 1, its fields, and the owner of its bridge. The owner is sent as the bridge's
kind, which says whether a line, a call or a hoot is named, and its number (DESIGN CHOICE,
notes/assumptions/8.md). -/
def bChannel (s : State) : Option Channel → List Byte
  | none => [0#8, 0xFF#8, 0xFF#8, 0xFF#8, 0xFF#8] ++ b4Opt none ++ [0xFF#8, 0xFF#8]
  | some r => b1 1 ++ b1 r.pos.val ++ b1 r.endpoint.code ++ bOpt (r.key.map (·.val)) ++ b1 r.bridge.val ++
      b4Opt (r.since.map (·.toNat)) ++ b1 (s.bridges.get r.bridge).use.code ++
      bOwner r.bridge (s.bridges.get r.bridge).use

/-- How many channels are ASSIGNED (R164). -/
def assignedCount (s : State) : Nat := (s.channels.list.filter Option.isSome).length

/-- The body of REC_MAP (R164): the 64 records, whose number is fixed, with no count byte before them (DESIGN CHOICE,
notes/assumptions/8.md), the numbers ASSIGNED and FREE, the intercom record policy, the time base's validity and its
count. -/
def recMapBody (s : State) : List Byte :=
  s.channels.list.flatMap (bChannel s) ++ b2 (assignedCount s) ++ b2 (64 - assignedCount s) ++
    bYes s.icmRecord ++ bYes s.timeValid ++ wordBytes s.log.time

/-! ## QUERY (R182) -/

/-- The targets of QUERY, in the order of R182. -/
inductive QueryTarget where
  | line (L : LineId)
  | bridge (b : BridgeId)
  | position (p : PosId)
  | hoot (b : BridgeId)
  | call (b : BridgeId)
  | channel (c : ChanId)
  | recMap
  deriving DecidableEq, Repr

/-- A target code and an id within its range (R182). -/
def queryTargetOf (target id : Byte) : Option QueryTarget :=
  match target.toNat with
  | 0 => (lineOf id).map .line
  | 1 => (bridgeOf id).map .bridge
  | 2 => (posOf id).map .position
  | 3 => (bridgeOf id).map .hoot
  | 4 => (bridgeOf id).map .call
  | 5 => (chanOf id).map .channel
  | 6 => some .recMap
  | _ => none

/-- The response of a QUERY (R182): HOOT and CALL are refused with WRONG_KIND on a bridge of another kind. -/
def queryResponse (s : State) : QueryTarget → Response
  | .line L => ⟨.done, lineBody s L⟩
  | .bridge b => ⟨.done, bridgeBody s b⟩
  | .position p => ⟨.done, posBody s p⟩
  | .hoot b => match s.hoots.get b with
    | some h => ⟨.done, hootBody s b h⟩
    | none => .bare .wrongKind
  | .call b => match s.calls.get b with
    | some r => ⟨.done, callBody s r⟩
    | none => .bare .wrongKind
  | .channel c => ⟨.done, bChannel s (s.channels.get c)⟩
  | .recMap => ⟨.done, recMapBody s⟩

/-- The sinks whose clip counts a QUERY returns (R33, R182). -/
def querySinks : QueryTarget → List SinkId
  | .line L => [lineSink L]
  | .position p => (ids 4).map (posSink p)
  | _ => []

/-- The clip counts of some sinks zeroed (R33). -/
def zeroClips (ks : List SinkId) (s : State) : State :=
  { s with clips := s.clips.mapIdx fun k n => if ks.contains k then 0 else n }

/-! ## The detail log (R172, R174, R175) -/

/-- A batch of delivered records, with the log state and fill (R172, R173). The records stand after their number, with
no count byte of their own (DESIGN CHOICE, notes/assumptions/8.md). -/
def batchBody (g : Log) (xs : List Record) : List Byte :=
  b2 xs.length ++ xs.flatMap Record.bytes ++ b1 g.level.code ++ b2 g.fill

/-- CALL 0, OTHER 1 (R167). -/
def bClass (k : RecordKind) : List Byte := bFirst k.isCall

/-- The gap capture: whether it holds a record, that record, and the total lost count in the four bytes of a lost count
(R170, R174, R190). The byte 0 or 1 in front, the record's fields left out when it holds none, and the class sent once, in
the place of R170, are the model's form (DESIGN CHOICE, notes/assumptions/8.md). -/
def bCapture (g : Log) : List Byte :=
  (match g.captured with
    | none => b1 0
    | some c => b1 1 ++ wordBytes c.seq ++ b1 c.kind.code ++ bClass c.kind ++ b4Opt (c.time.map (·.toNat)) ++
        bOpt (c.line.map (·.val)) ++ bOpt (c.pos.map (·.val)) ++ bYes c.replaced) ++ b4 g.totalLost

/-- The sequence number of a record that may be absent. -/
def bSeq (r : Option Record) : List Byte := b4Opt (r.map (·.seq.toNat))

def statusBody (s : State) : List Byte :=
  let g := s.log
  b2 g.fill ++ b1 g.level.code ++ b2 g.hw ++ b2 g.lw ++ wordBytes g.seq ++ bSeq g.queue.head? ++
    bSeq g.queue.getLast? ++ b4Opt (g.episode.map (·.first.toNat)) ++ b4Opt (g.episode.map (·.count)) ++
    bCapture g ++ b2 g.lastBatch.length ++ bSeq g.lastBatch.head? ++ bSeq g.lastBatch.getLast? ++
    wordBytes g.time ++ bYes s.timeValid

end Sys2Proof.Machine
end

