-- ==== Sys2Proof/Machine/AdminCmds.lean ====
section
/-! DEFINITION. The remaining commands of class ADMIN, WATCH_SET, VAD_SET, LOG_LIMITS, TIME_SET and
PART_CLEAR (R49, R152, R162, R176, R189), and those of class RECORDER (R172 to R175). -/

namespace Sys2Proof.Machine

/-! ## WATCH_SET (R152) -/

/-- The lines of a membership map, ascending. -/
def linesIn (m : BitVec 192) : List LineId := (ids 192).filter fun L => m.getLsbD L.val

/-- The routes of the lines named, with the watch flags that follow them (R152). -/
def setRoutes (m : BitVec 192) (r : Route) (s : State) : State :=
  { s with
    routes := s.routes.mapIdx fun L old => if m.getLsbD L.val then r else old
    lines := s.lines.mapIdx fun L x => if m.getLsbD L.val then { x with watch := r ≠ .none } else x }

/-- How many lines have a route other than NONE (R152). -/
def watchedCount (s : State) : Nat := (s.routes.list.filter (· ≠ .none)).length

/-- What the permission block does for WATCH_SET (R152). -/
def watchSet (m : BitVec 192) (route : Byte) (s : State) : State × Response :=
  match routeOf route with
  | none => refuse .range s
  | some r =>
    let t := setRoutes m r s
    done (b2 (watchedCount t) ++ bList (fun L => b1 (t.routes.get L).code) (linesIn m)) t

/-- WATCH_SET (R152). -/
def execWatchSet (l : LinkId) (m : BitVec 192) (route : Byte) (s : State) : Outcome :=
  .next (takeRequest l .watchSet true {} (watchSet m route) s)

/-! ## VAD_SET (R49) -/

/-- A parameter set with the present fields stored, in the order of R49. -/
def storeVad (f : VadFields) (v : VadParams) : VadParams :=
  let ton := match f.ton with | some x => clampTop 32767 x | none => v.ton
  { ton := ton
    toff := min (match f.toff with | some x => x.toNat | none => v.toff) ton
    onset := match f.onset with | some x => clamp 1 64 x | none => v.onset
    hangMs := match f.hangover with | some x => clampTop 2000 x | none => v.hangMs }

/-- The response of VAD_SET: the class and its four values (R49). -/
def vadBody (cls : Byte) (v : VadParams) : List Byte := cls :: (b2 v.ton ++ b2 v.toff ++ b2 v.onset ++ b2 v.hangMs)

/-- What the activity detector does for VAD_SET: class LINE 0 or POSITION 1 (R49). -/
def vadSet (cls : Byte) (f : VadFields) (s : State) : State × Response :=
  match cls.toNat with
  | 0 => done (vadBody cls (storeVad f s.vadLine)) { s with vadLine := storeVad f s.vadLine }
  | 1 => done (vadBody cls (storeVad f s.vadPos)) { s with vadPos := storeVad f s.vadPos }
  | _ => refuse .range s

/-- VAD_SET (R49). -/
def execVadSet (l : LinkId) (cls : Byte) (f : VadFields) (s : State) : Outcome :=
  .next (takeRequest l .vadSet true {} (vadSet cls f) s)

/-! ## LOG_LIMITS, TIME_SET (R162, R176) -/

/-- The watermarks with the present fields stored, in the order of R176. -/
def storeLimits (hw lw : Option Half) (g : Log) : Log :=
  let h := match hw with | some v => clamp 2 1020 v | none => g.hw
  let n := match lw with | some v => max 1 v.toNat | none => g.lw
  { g with hw := h, lw := if h ≤ n then h - 1 else n }

/-- What the detail log does for LOG_LIMITS (R176). -/
def logLimits (hw lw : Option Half) (s : State) : State × Response :=
  let t := reevaluate (s.modLog (storeLimits hw lw))
  done (b2 t.log.hw ++ b2 t.log.lw ++ b1 t.log.level.code) t

/-- LOG_LIMITS (R176). -/
def execLogLimits (l : LinkId) (hw lw : Option Half) (s : State) : Outcome :=
  .next (takeRequest l .logLimits true {} (logLimits hw lw) s)

/-- What the recording block does for TIME_SET: INVALID 0, VALID 1 (R162). -/
def timeSet (v : Word) (s : State) : State × Response :=
  done (wordBytes v ++ wordBytes s.log.time ++ bYes s.timeValid)
    { s.modLog fun g => { g with time := v } with timeValid := true }

/-- TIME_SET (R162). -/
def execTimeSet (l : LinkId) (v : Word) (s : State) : Outcome :=
  .next (takeRequest l .timeSet true {} (timeSet v) s)

/-! ## PART_CLEAR (R189) -/

/-- The ending of every call by PART_CLEAR (R118). -/
def adminEnding : Ending := { cause := .admin, unbindCause := .admin }

/-- Step 1: every intercom call ends, in ascending bridge order (R118). -/
def clearCalls (s : State) : State := s.each (ids 96) fun c => endCall c adminEnding

/-- One hoot's talk ends: the queue head first, then every grant in order, then one clash evaluation (R139). -/
def clearTalk (b : BridgeId) (s : State) : State :=
  match s.hoots.get b with
  | some h => s.each (h.queue.map (·.1)) (fun p => endQueued b p .admin)
      |>.each (h.granted.map (·.pos)) (fun p => stopGrant b p .admin)
      |> evalClash b
  | none => s

/-- Step 2: every hoot's talk ends, in ascending bridge order (R139). -/
def clearHoots (s : State) : State := s.each (ids 96) clearTalk

/-- The states that PART_CLEAR takes to IDLE (R87 step 4). -/
def LineState.clears : LineState → Bool
  | .offered | .alerting | .connected | .held | .clearing => true
  | .disabled | .outOfService | .idle => false

/-- Step 3, for one line (R87). -/
def clearLine (L : LineId) (s : State) : State :=
  let old := (s.lines.get L).state
  let t := stripLine L .admin s |>.modGen L fun g => { g with sustained := false }
  if old.clears then t.modLine L (fun r => { r with state := .idle }) |> reportChange [] L old .admin else t

/-- A position with every binding but its listener keys NONE, and no feed (R16). -/
def Position.cleared (r : Position) : Position :=
  { r with
    ha := .none
    hb := .none
    mic := .none
    feed := none
    keys := r.keys.map fun k => match k.binding with
      | .listen _ => k
      | _ => { k with binding := .none } }

/-- A bridge of kind LINE or ICM is FREE, any other stands (R42). -/
def Bridge.cleared (r : Bridge) : Bridge :=
  match r.use with
  | .line _ | .icm => Bridge.reset
  | .hoot | .free => r

/-- What R16, R42, R87, R118 and R165 say stands nowhere after PART_CLEAR: bindings other than listeners, intercom
relations, holders, monitors and holds, LINE and ICM bridges, and ASSIGNED channels. Once the calls, the talks and the
lines have ended there is nothing left for it to change. -/
def clearRest (s : State) : State :=
  { s with
    positions := s.positions.map Position.cleared
    icm := s.icm.map fun _ => ⟨.idle, none⟩
    lines := s.lines.map fun r => { r with holders := [], monitors := [], holdOwner := none, bridge := none }
    bridges := s.bridges.map Bridge.cleared
    channels := s.channels.map fun _ => none }

/-- A link's queue emptied to a single RESYNC (R189). -/
def Link.cleared (k : Link) : Link :=
  { k.setQueue [.resync .partClear (satCount (k.queue.length + k.dropped))] with resync := none, dropped := 0 }

/-- PART_CLEAR, whole, in the order of R189. -/
def clearAll (s : State) : State :=
  let t := clearCalls s |> clearHoots |>.each (ids 192) clearLine
    |> clearRest
    |> submit { kind := .clear, cause := some .admin }
  { t with links := t.links.map Link.cleared }

/-- How many lines PART_CLEAR releases: those CONNECTED or HELD (R189). -/
def callLines (s : State) : Nat := (s.lines.list.filter fun r => r.state = .connected || r.state = .held).length

/-- How many talk grants and talk queue entries stand (R189). -/
def talkCount (s : State) : Nat :=
  (s.hoots.list.map fun h => match h with
    | some h => h.granted.length + h.queue.length
    | none => 0).sum

/-- The response of PART_CLEAR: lines released, calls ended, grants and queue entries ended (R189). -/
def clearBody (s : State) : List Byte :=
  b2 (callLines s) ++ b2 (s.calls.list.filter Option.isSome).length ++ b2 (talkCount s)

/-- PART_CLEAR (R189). -/
def execPartClear (l : LinkId) (s : State) : Outcome :=
  .next (takeRequest l .partClear true {} (fun s => done (clearBody s) (clearAll s)) s)

/-! ## The recorder (R172 to R175) -/

/-- The records of a LOG_READ taken from the head; the last batch is replaced when there is one (R172 steps 1
and 2). -/
def takeBatch (k : Nat) (g : Log) : Log :=
  { g with queue := g.queue.drop k, lastBatch := if k = 0 then g.lastBatch else g.queue.take k }

/-- What the detail log does for LOG_READ (R172). -/
def logRead (n : Half) (s : State) : State × Response :=
  let k := min (readCountOf n) s.log.fill
  let t := reevaluate (s.modLog (takeBatch k))
  done (batchBody t.log (s.log.queue.take k)) t

/-- LOG_READ (R172). -/
def execLogRead (l : LinkId) (n : Half) (s : State) : Outcome :=
  .next (takeRequest l .logRead true {} (logRead n) s)

/-- LOG_READ with the AGAIN option: the count is ignored, and nothing changes (R173). -/
def execLogReadAgain (l : LinkId) (_n : Half) (s : State) : Outcome :=
  .next (takeRequest l .logRead true {} (fun s => done (batchBody s.log s.log.lastBatch) s) s)

/-- LOG_STATUS (R174). -/
def execLogStatus (l : LinkId) (s : State) : Outcome :=
  .next (takeRequest l .logStatus true {} (fun s => done (statusBody s) s) s)

/-- GAP_CLEAR (R175). -/
def execGapClear (l : LinkId) (s : State) : Outcome :=
  .next (takeRequest l .gapClear true {}
    (fun s => done (bCapture s.log) (s.modLog fun g => { g with captured := none, totalLost := 0 })) s)

end Sys2Proof.Machine
end

