-- ==== Sys2Proof/Machine/HootCmds.lean ====
section
/-! DEFINITION. The commands of the speaker-box block: TALK_ON, TALK_OFF, HOOT_DEFINE, HOOT_REMOVE (R121,
R122, R123, R126, R133). -/

namespace Sys2Proof.Machine

/-! ## TALK_ON (R126, R129) -/

/-- Where a position stands on a hoot (R126). -/
def talkStateOf (h : Hoot) (p : PosId) : TalkState :=
  if (h.talker p).isSome then .granted
  else match h.queue.findIdx? fun x => x.1 = p with
    | some i => .queued i
    | none => .none

/-- A talk state in a response: the code and the index byte that R191 gives TALK_STATE (DESIGN CHOICE,
notes/assumptions/8.md). -/
def bTalk (t : TalkState) : List Byte := b1 t.code ++ t.index

/-- The body of GRANTED: the slots in use, the clash state CLEAR 0 or CLASHING 1 (R127), and the MIC's channel (R156;
its place is notes/assumptions/39.md). -/
def grantedBody (s : State) (b : BridgeId) (p : PosId) : List Byte :=
  match s.hoots.get b with
  | some h => b2 h.granted.length ++ bYes h.clashing ++ bChan (channelAt s p .mic)
  | none => []

/-- The body of the DONE of a line talk: the channel of the key's binding (R129 step 2, R156;
notes/assumptions/39.md). -/
def lineTalkBody (s : State) (p : PosId) (k : KeyId) : List Byte := bChan (channelAt s p (.key k))

/-- A hoot talk, checked and granted or queued (R126, R127, R128). The index in the body of QUEUED takes one byte, the
width that R191 gives an index in notice entries alone (DESIGN CHOICE, notes/assumptions/8.md). -/
def hootTalk (l : LinkId) (b : BridgeId) (p : PosId) (k : KeyId) (h : Hoot) (s : State) : State × Response :=
  if !s.mayTalk p b then forbid l .talkOn { pos := some p, hoot := some b } s
  else if talkStateOf h p ≠ .none then done (bTalk (talkStateOf h p)) s
  else match freeAnswer s p .mic with
    | some r => refuse r s
    | none =>
      if h.granted.length < h.slots then
        let t := grantTalk b p k s |> evalClash b
        (t, ⟨.granted, grantedBody t b p⟩)
      else if h.queue.length < Config.maxWaiting then (queueTalk b p k h s, ⟨.queued, b1 h.queue.length⟩)
      else refuse .full s

/-- A line talk, checked and committed (R129). -/
def lineTalk (p : PosId) (k : KeyId) (L : LineId) (s : State) : State × Response :=
  if talksOn s p k then done (lineTalkBody s p k) s
  else match freeAnswer s p .mic with
    | some r => refuse r s
    | none =>
      if lineFull s L then refuse .full s
      else match (s.lines.get L).bridge with
        | some b =>
          let t := startLineTalk p k L b s
          done (lineTalkBody t p k) t
        | none => refuse .notBound s

/-- What the speaker-box block does for TALK_ON (R126). -/
def talkOn (l : LinkId) (key : Byte) (p : PosId) (s : State) : State × Response :=
  match keyOf key with
  | none => refuse .range s
  | some k => match s.binding p (.key k) with
    | .holder L => lineTalk p k L s
    | .listen b => match s.hoots.get b with
      | some h => hootTalk l b p k h s
      | none => refuse .notBound s
    | _ => refuse .notBound s

/-- TALK_ON (R126). -/
def execTalkOn (l : LinkId) (p key : Byte) (s : State) : Outcome :=
  .next (positionRequest l .talkOn true { needsUp := true } p {} (talkOn l key) s)

/-! ## TALK_OFF (R133) -/

/-- The talk state of a position on one of its keys. -/
def keyTalk (s : State) (p : PosId) (k : KeyId) : TalkState :=
  match s.binding p (.key k) with
  | .listen b => match s.hoots.get b with
    | some h => talkStateOf h p
    | none => .none
  | .holder _ => if talksOn s p k then .granted else .none
  | _ => .none

/-- The effect of TALK_OFF, by the binding of the key (R133). -/
def stopTalk (p : PosId) (k : KeyId) (s : State) : State :=
  match s.binding p (.key k) with
  | .listen b => endTalkOn b p .none s
  | .holder L => endLineTalk p k L .none .none s
  | _ => s

/-- What the speaker-box block does for TALK_OFF (R133). -/
def talkOff (key : Byte) (p : PosId) (s : State) : State × Response :=
  match keyOf key with
  | none => refuse .range s
  | some k =>
    let t := stopTalk p k s
    done (bTalk (keyTalk t p k)) t

/-- TALK_OFF (R133). -/
def execTalkOff (l : LinkId) (p key : Byte) (s : State) : Outcome :=
  .next (positionRequest l .talkOff true {} p {} (talkOff key) s)

/-! ## HOOT_DEFINE (R121, R122) -/

/-- The fields of HOOT_DEFINE with their identifiers and codes read; a leg is a line and a clamped gain. -/
structure HootArgs where
  policy : Option ClashPolicy
  record : Option Bool
  legs : Option (List (LineId × Nat))
  deriving DecidableEq, Repr

/-- One leg read (R121). -/
def legOfBytes (x : Byte × Half) : Option (LineId × Nat) := (lineOf x.1).map fun L => (L, clampTop 4095 x.2)

/-- The legs read, when the list is present. -/
def legsOf : Option (List (Byte × Half)) → Option (Option (List (LineId × Nat)))
  | none => some none
  | some xs => (allOf legOfBytes xs).map some

/-- Every leg line is in range and every code exists (R121 check 1). -/
def hootArgsOf (f : HootFields) : Option HootArgs := do
  let p ← optCode clashPolicyOf f.policy
  let r ← optCode recordFlagOf f.record
  let l ← legsOf f.legs
  return ⟨p, r, l⟩

/-- The values of a new hoot (R120). -/
def Hoot.fresh : Hoot :=
  { slots := 1, talkIdleS := 0, quietS := 10, policy := .localPriority, shift := 2, record := false, legs := [],
    granted := [], queue := [], clashing := false, live := false }

/-- The present fields stored, clamped; the leg list is taken apart (R121, R122). -/
def storeHoot (f : HootFields) (a : HootArgs) (h : Hoot) : Hoot :=
  { h with
    slots := match f.slots with | some v => clamp 1 4 v | none => h.slots
    talkIdleS := match f.talkIdleS with | some v => clampOff 5 300 v | none => h.talkIdleS
    quietS := match f.quietS with | some v => clamp 1 600 v | none => h.quietS
    policy := a.policy.getD h.policy
    shift := match f.shift with | some v => clampTop 12 v | none => h.shift
    record := a.record.getD h.record }

/-- The checks of R121 from 2 on: the pool's answer for the bridge, a hoot with talk, a line named twice, a
line of another type, a leg of another hoot. -/
def hootCheck (s : State) (b : BridgeId) (legs : List (LineId × Nat)) : Option Result :=
  match (s.bridges.get b).use with
  | .line _ | .icm => some .active
  | use =>
    if use = .free && Config.maxHoots ≤ hootCount s then some .full
    else if (match s.hoots.get b with
      | some h => !h.granted.isEmpty || !h.queue.isEmpty
      | none => false) then some .active
    else if !(legs.map (·.1)).Nodup then some .duplicate
    else if legs.any fun x => (s.lines.get x.1).ltype ≠ .ht then some .wrongKind
    else if legs.any fun x => match legOf s x.1 with
      | some c => c ≠ b
      | none => false then some .inUse
    else none

/-- A leg of a definition appended: it joins when its line is IDLE, and is OUT otherwise (R122). -/
def addLeg (b : BridgeId) (x : LineId × Nat) (s : State) : State :=
  let t := s.modHoot b fun h => { h with legs := h.legs ++ [⟨x.1, x.2, false⟩] }
  if (s.lines.get x.1).state = .idle then joinLeg b x.1 t else t

/-- An old leg that is not in the new list leaves (R122). -/
def dropLeg (b : BridgeId) (x : Leg) (s : State) : State :=
  (if x.joined then leave b (lineSource x.line) s else s)
    |>.modHoot b fun h => { h with legs := h.legs.filter fun y => y.line ≠ x.line }

/-- A leg in both lists keeps its entry and state, and takes its new G (R122). -/
def regainLeg (b : BridgeId) (x : LineId × Nat) (s : State) : State :=
  setLeg b x.1 (fun y => { y with gain := x.2 }) s |> setGainOn b (lineSource x.1) x.2

/-- The stored leg list replaced, in the three steps of R122. -/
def replaceLegs (b : BridgeId) (old : List Leg) (new : List (LineId × Nat)) (s : State) : State :=
  s.each (old.filter fun x => !(new.any fun y => y.1 = x.line)) (dropLeg b)
    |>.each (new.filter fun x => old.any fun y => y.line = x.1) (regainLeg b)
    |>.each (new.filter fun x => !(old.any fun y => y.line = x.1)) (addLeg b)

/-- The bridge and the record of a hoot, made when `b` is FREE and kept when it is a hoot (R19, R122). -/
def openHoot (b : BridgeId) (s : State) : State :=
  match s.hoots.get b with
  | some _ => s
  | none => claimBridge b .hoot 0 .both s |>.setHoot b (some Hoot.fresh)

/-- The stored legs of a hoot. -/
def legsIn (s : State) (b : BridgeId) : List Leg :=
  match s.hoots.get b with
  | some h => h.legs
  | none => []

/-- The quiet period of a hoot, in milliseconds. -/
def quietMs (s : State) (b : BridgeId) : Nat :=
  match s.hoots.get b with
  | some h => 1000 * h.quietS
  | none => 0

/-- A HOOT_DEFINE committed (R122): record, fields, legs, and the timer ask. -/
def defineHoot (b : BridgeId) (f : HootFields) (a : HootArgs) (s : State) : State :=
  let t := openHoot b s |>.modHoot b (storeHoot f a)
  let t := match a.legs with
    | some new => replaceLegs b (legsIn t b) new t
    | none => t
  timerAsk b (quietMs t b) .both t

/-- The response of HOOT_DEFINE: every field as stored, and each leg with its state (R122). -/
def defineBody (s : State) (b : BridgeId) : List Byte :=
  match s.hoots.get b with
  | some h => bHootFields h ++ bList (fun x => b1 x.line.val ++ b2 x.gain ++ bFirst x.joined) h.legs
  | none => []

/-- What the speaker-box block does for HOOT_DEFINE (R121). -/
def hootDefine (bridge : Byte) (f : HootFields) (s : State) : State × Response :=
  match bridgeOf bridge, hootArgsOf f with
  | some b, some a => match hootCheck s b (a.legs.getD []) with
    | some r => refuse r s
    | none =>
      let t := defineHoot b f a s
      done (defineBody t b) t
  | _, _ => refuse .range s

/-- HOOT_DEFINE (R121). -/
def execHootDefine (l : LinkId) (bridge : Byte) (f : HootFields) (s : State) : Outcome :=
  .next (takeRequest l .hootDefine f.fits {} (hootDefine bridge f) s)

/-! ## HOOT_REMOVE (R123) -/

/-- A listener key of a removed hoot unbound, with KEY_CLEARED in place of BINDING_LOST (R11, R123). -/
def clearKey (b : BridgeId) (x : PosId × KeyId) (s : State) : State :=
  unbind x.1 (.key x.2) .none s |> postPos x.1 (.keyCleared x.1 x.2 b)

/-- A hoot removed, in the three steps of R123. -/
def removeHoot (b : BridgeId) (s : State) : State :=
  s.each (listeners s b) (clearKey b)
    |>.each (legsIn s b) (dropLeg b)
    |>.setHoot b none
    |> dropBridge b

/-- What the speaker-box block does for HOOT_REMOVE (R123). -/
def hootRemove (bridge : Byte) (s : State) : State × Response :=
  match bridgeOf bridge with
  | none => refuse .range s
  | some b => match s.hoots.get b with
    | none => refuse .wrongKind s
    | some h =>
      if !h.granted.isEmpty || !h.queue.isEmpty then refuse .active s
      else done (b2 (listeners s b).length) (removeHoot b s)

/-- HOOT_REMOVE (R123). -/
def execHootRemove (l : LinkId) (bridge : Byte) (s : State) : Outcome :=
  .next (takeRequest l .hootRemove true {} (hootRemove bridge) s)

end Sys2Proof.Machine
end

