-- ==== Sys2Proof/Machine/IcmCmds.lean ====
section
/-! DEFINITION. The commands of the intercom block: ICM_DIAL, ICM_GROUP, ICM_PICKUP, ICM_HANGUP, GROUP_DEFINE
and ICM_POLICY (R104 to R112). -/

namespace Sys2Proof.Machine

/-- The position holds intercom permission (R141). -/
def mayIcm (s : State) (p : PosId) : Bool := (s.perms.get p).icm

/-- An endpoint that can stand in a call: RANGE for a code that does not exist, WRONG_KIND for a key (R106
check 1). -/
def icmEndpoint (ep : Byte) : Except Result Endpoint :=
  match endpointOf ep with
  | none => .error .range
  | some (.key _) => .error .wrongKind
  | some e => .ok e

/-- The caller's endpoint is free and its intercom state IDLE (R106 check 5, R108 check 3). -/
def callerAnswer (s : State) (p : PosId) (e : Endpoint) : Option Result :=
  match freeAnswer s p e with
  | some r => some r
  | none => if s.icmState p = .idle then none else some .inUse

/-! ## ICM_DIAL (R106, R107) -/

/-- What the target of a DIRECT call decides (R106 check 9): the call presents, waits, or is BUSY. -/
def waitsAt (s : State) (q : PosId) : Option Bool :=
  if s.icmState q = .idle then some false
  else if (s.waiting q).isNone then some true
  else none

/-- A DIRECT call committed on bridge `c` (R107). -/
def commitDial (c : BridgeId) (p : PosId) (e : Endpoint) (q : PosId) (mode : CallMode) (waits : Bool)
    (s : State) : State :=
  let t := openCall c p e mode none [⟨q, waits⟩] s
  (if waits then setWaiting q (some c) t |> postPos q (.icmWaiting c (p, e))
   else match t.calls.get c with
    | some r => present c r (mode = .voice) q t
    | none => t)
    |> startRecord c p e none

/-- Checks 7 to 9 of R106, and the commit. The body ends with the caller's channel (R156;
notes/assumptions/39.md). -/
def dial (p : PosId) (e : Endpoint) (q : PosId) (mode : CallMode) (s : State) : State × Response :=
  match freeBridge s with
  | none => refuse .noBridge s
  | some c =>
    if !s.posUp q then refuse .facility s
    else match waitsAt s q with
      | none => refuse .busy s
      | some waits =>
        let t := commitDial c p e q mode waits s
        done (b1 c.val ++ bYes waits ++ bChan (channelAt t p e)) t

/-- Checks 2 to 6 of R106. -/
def dialCheck (l : LinkId) (p : PosId) (e : Endpoint) (q : PosId) (s : State) : Option (State × Response) :=
  if !mayIcm s p then some (forbid l .icmDial { pos := some p } s)
  else if !mayIcm s q then some (refuse .notPermitted s)
  else if !(s.positions.get q).isOpen then some (refuse .closed s)
  else match callerAnswer s p e with
    | some r => some (refuse r s)
    | none => if q = p then some (refuse .duplicate s) else none

/-- What the intercom block does for ICM_DIAL (R106). -/
def icmDial (l : LinkId) (ep target mode : Byte) (p : PosId) (s : State) : State × Response :=
  match icmEndpoint ep with
  | .error r => refuse r s
  | .ok e => match posOf target, directModeOf mode with
    | some q, some m => match dialCheck l p e q s with
      | some x => x
      | none => dial p e q m s
    | _, _ => refuse .range s

/-- ICM_DIAL (R106). -/
def execIcmDial (l : LinkId) (p ep target mode : Byte) (s : State) : Outcome :=
  .next (positionRequest l .icmDial true { needsUp := true } p {} (icmDial l ep target mode) s)

/-! ## ICM_GROUP (R108) -/

/-- A member of a group is presented (R108 check 5). -/
def available (s : State) (q : PosId) : Bool :=
  (s.positions.get q).isOpen && s.posUp q && mayIcm s q && s.icmState q = .idle

/-- A GROUP call committed: each presented member hears it, in list order (R108). -/
def commitGroup (c : BridgeId) (p : PosId) (e : Endpoint) (g : GroupId) (mode : CallMode) (members : List PosId)
    (s : State) : State :=
  let t := openCall c p e mode (some g) (members.map fun q => ⟨q, false⟩) s
  (match t.calls.get c with
    | some r => t.each members (present c r true)
    | none => t)
    |> startRecord c p e (some g)

/-- Checks 2 to 6 of R108, and the commit. The body ends with the caller's channel (R156;
notes/assumptions/39.md). -/
def groupCall (l : LinkId) (p : PosId) (e : Endpoint) (g : GroupId) (mode : CallMode) (s : State) :
    State × Response :=
  if !mayIcm s p then forbid l .icmGroup { pos := some p } s
  else match callerAnswer s p e with
    | some r => refuse r s
    | none => match freeBridge s with
      | none => refuse .noBridge s
      | some c =>
        let others := (s.groups.get g).filter (· ≠ p)
        let members := others.filter (available s)
        let skipped := others.length - members.length
        if members.isEmpty then (s, ⟨.busy, b2 skipped⟩)
        else
          let t := commitGroup c p e g mode members s
          done (b1 c.val ++ b2 members.length ++ b2 skipped ++ bChan (channelAt t p e)) t

/-- What the intercom block does for ICM_GROUP (R108). -/
def icmGroup (l : LinkId) (ep group mode : Byte) (p : PosId) (s : State) : State × Response :=
  match icmEndpoint ep with
  | .error r => refuse r s
  | .ok e => match groupOf group, groupModeOf mode with
    | some g, some m => groupCall l p e g m s
    | _, _ => refuse .range s

/-- ICM_GROUP (R108). -/
def execIcmGroup (l : LinkId) (p ep group mode : Byte) (s : State) : Outcome :=
  .next (positionRequest l .icmGroup true { needsUp := true } p {} (icmGroup l ep group mode) s)

/-! ## ICM_PICKUP (R109, R111) -/

/-- The call that a pickup answers (R109 check 2). -/
def pickupCall (s : State) (q : PosId) (waiting : Bool) : Option BridgeId :=
  if waiting then s.waiting q
  else match s.icmState q with
    | .alerted c => some c
    | _ => none

/-- The endpoint is free for the answer; with WAITING, one bound to the current call counts as free (R109
check 3). -/
def pickupAnswer (s : State) (q : PosId) (e : Endpoint) (waiting : Bool) : Option Result :=
  match placeAnswer s q with
  | some r => some r
  | none =>
    match s.binding q e with
    | .none => none
    | .icm c => if waiting && (s.icmState q).call = some c then none else some .inUse
    | _ => some .inUse

/-- A CONFERENCE call whose party list is full (R109 check 4). -/
def callFull (s : State) (c : BridgeId) : Bool :=
  match s.calls.get c with
  | some r => r.mode = .conference && Config.maxParties ≤ r.parties.length
  | none => false

/-- The pickup of the waiting call: the slot is emptied, the current call is left, and the waiting call is
answered at once (R111). -/
def pickupWaiting (q : PosId) (e : Endpoint) (c : BridgeId) (s : State) : State :=
  setWaiting q none s |> leaveCall q .own false |> answer q e c

/-- A call's state and number of parties, as the response of a pickup carries them (R109), and the channel of the
endpoint that answered (R156; notes/assumptions/39.md). -/
def callStateBody (s : State) (c : BridgeId) (q : PosId) (e : Endpoint) : List Byte :=
  match s.calls.get c with
  | some r => bYes r.active ++ b2 r.parties.length ++ bChan (channelAt s q e)
  | none => []

/-- What the intercom block does for ICM_PICKUP (R109). -/
def icmPickup (ep choice : Byte) (q : PosId) (s : State) : State × Response :=
  match icmEndpoint ep with
  | .error r => refuse r s
  | .ok e => match choiceOf choice with
    | none => refuse .range s
    | some waiting => match pickupCall s q waiting with
      | none => refuse .notBound s
      | some c => match pickupAnswer s q e waiting with
        | some r => refuse r s
        | none =>
          if callFull s c then refuse .full s
          else
            let t := if waiting then pickupWaiting q e c s else answer q e c s
            done (callStateBody t c q e) t

/-- ICM_PICKUP (R109). -/
def execIcmPickup (l : LinkId) (p ep choice : Byte) (s : State) : Outcome :=
  .next (positionRequest l .icmPickup true { needsUp := true } p {} (icmPickup ep choice) s)

/-! ## ICM_HANGUP (R112) -/

/-- The state of a call after a hangup: PRESENTING 0, ACTIVE 1, or ENDED 2; ENDED also where there was none
(R112). -/
def hangupBody (s : State) : Option BridgeId → List Byte
  | none => b1 2
  | some c => match s.calls.get c with
    | some r => bYes r.active
    | none => b1 2

/-- What the intercom block does for ICM_HANGUP (R112). -/
def icmHangup (p : PosId) (s : State) : State × Response :=
  let t := leaveCall p .own false s
  done (hangupBody t (s.icmState p).call) t

/-- ICM_HANGUP (R112). -/
def execIcmHangup (l : LinkId) (p : Byte) (s : State) : Outcome :=
  .next (positionRequest l .icmHangup true {} p {} icmHangup s)

/-! ## GROUP_DEFINE, ICM_POLICY (R104, R105) -/

/-- What the intercom block does for GROUP_DEFINE (R104). -/
def groupDefine (group : Byte) (members : List Byte) (s : State) : State × Response :=
  match groupOf group, allOf posOf members with
  | some g, some ps =>
    if !ps.Nodup then refuse .duplicate s
    else done (bList (fun p => b1 p.val) ps) { s with groups := s.groups.set g ps }
  | _, _ => refuse .range s

/-- GROUP_DEFINE (R104). -/
def execGroupDefine (l : LinkId) (group : Byte) (members : List Byte) (s : State) : Outcome :=
  .next (takeRequest l .groupDefine (groupFits members) {} (groupDefine group members) s)

/-- What the intercom and recording blocks do for ICM_POLICY (R105). -/
def icmPolicy (policy : Option Byte) (alertS : Option Half) (s : State) : State × Response :=
  match optCode recordFlagOf policy with
  | none => refuse .range s
  | some r =>
    let t := { s with
      icmRecord := r.getD s.icmRecord
      icmAlertS := match alertS with | some v => clamp 1 60 v | none => s.icmAlertS }
    done (bYes t.icmRecord ++ b2 t.icmAlertS) t

/-- ICM_POLICY (R105). -/
def execIcmPolicy (l : LinkId) (policy : Option Byte) (alertS : Option Half) (s : State) : Outcome :=
  .next (takeRequest l .icmPolicy true {} (icmPolicy policy alertS) s)

end Sys2Proof.Machine
end

