-- ==== Sys2Proof/Machine/LineCmds.lean ====
section
/-! DEFINITION. The commands of the line block: LINE_TAKE, LINE_DROP, LINE_PARK, LINE_SIGNAL, CAMP_CANCEL,
LINE_DEFINE, FORCE_DROP (R58, R59, R66, R69, R74, R80, R82), and the conference commands BRIDGE_JOIN and
BRIDGE_LEAVE (R25, R26). -/

namespace Sys2Proof.Machine

/-- The type is MANUAL_RINGDOWN or AUTO_RINGDOWN. -/
def LineType.takeable : LineType → Bool
  | .mr | .ar => true
  | _ => false

/-- The holder entry of a position on a line (R55: one at most). -/
def holderEntry (s : State) (L : LineId) (p : PosId) : Option Endpoint :=
  ((s.lines.get L).holders.find? fun x => x.1 = p).map (·.2)

/-! ## LINE_TAKE (R59) -/

/-- Step 5 of R59 and what follows it: already held, a move, or a take that the line's state decides. The DONE of an
endpoint that already holds the line has the body of R62, with nothing displaced (DESIGN CHOICE,
notes/assumptions/41.md). -/
def decideTake (L : LineId) (p : PosId) (e : Endpoint) (f : TakeFlags) (s : State) : State × Response :=
  if f.monitor then monitorTake L p e f.park s
  else match holderEntry s L p with
    | some old =>
      if old = e then done (takeBody s L p e .none) s else moveTake L p old e f.park s
    | none => holderTake L p e f s

/-- Step 2 of R59: the endpoint can take a line, as holder or as monitor. -/
def canTake (monitor : Bool) : Endpoint → Bool
  | .ha | .hb => true
  | .key _ => !monitor
  | .mic => false

/-- Step 4 of R59: the line stands in the set that the take consults. -/
def takePermitted (s : State) (p : PosId) (L : LineId) (monitor : Bool) : Bool :=
  if monitor then s.mayMonitor p L else s.appears p L

/-- What the line block does for LINE_TAKE: steps 1 to 7 of R59. -/
def lineTake (l : LinkId) (ep line flags : Byte) (p : PosId) (s : State) : State × Response :=
  let f := takeFlagsOf flags
  match lineOf line, endpointOf ep with
  | some L, some e =>
    if !canTake f.monitor e then refuse .wrongKind s
    else if !(s.lines.get L).ltype.takeable then refuse .wrongKind s
    else if !takePermitted s p L f.monitor then forbid l .lineTake { pos := some p, line := some L } s
    else decideTake L p e f s
  | _, _ => refuse .range s

/-- LINE_TAKE (R59). -/
def execLineTake (l : LinkId) (p ep line flags : Byte) (s : State) : Outcome :=
  .next (positionRequest l .lineTake true { needsUp := true } p { line := lineOf line }
    (lineTake l ep line flags) s)

/-! ## LINE_DROP, LINE_PARK (R66, R69) -/

/-- What the line block does for LINE_DROP (R66). -/
def lineDrop (ep : Byte) (p : PosId) (s : State) : State × Response :=
  match endpointOf ep with
  | none => refuse .range s
  | some .mic => refuse .wrongKind s
  | some e => match s.binding p e with
    | .none => done [] s
    | .monitor L => done [] (endMonitor L (p, e) .none s)
    | .holder L => done [] (dropHolder L (p, e) .none false s)
    | .icm _ | .listen _ | .talk _ => refuse .notBound s

/-- LINE_DROP (R66). -/
def execLineDrop (l : LinkId) (p ep : Byte) (s : State) : Outcome :=
  .next (positionRequest l .lineDrop true {} p {} (lineDrop ep) s)

/-- What the line block does for LINE_PARK (R69). -/
def linePark (ep : Byte) (p : PosId) (s : State) : State × Response :=
  match endpointOf ep with
  | none => refuse .range s
  | some .mic => refuse .wrongKind s
  | some e => match s.binding p e with
    | .holder L =>
      let t := parkHolder L (p, e) false s
      done (b1 (t.lines.get L).state.code) t
    | _ => refuse .notBound s

/-- LINE_PARK (R69). -/
def execLinePark (l : LinkId) (p ep : Byte) (s : State) : Outcome :=
  .next (positionRequest l .linePark true {} p {} (linePark ep) s)

/-! ## LINE_SIGNAL, CAMP_CANCEL (R74, R80) -/

/-- The position is a holder of a CONNECTED line. -/
def holdsLine (s : State) (L : LineId) (p : PosId) : Bool :=
  (s.lines.get L).state = .connected && (holderEntry s L p).isSome

/-- What the line block does for LINE_SIGNAL (R80, R98). -/
def lineSignal (line : Byte) (p : PosId) (s : State) : State × Response :=
  match lineOf line with
  | none => refuse .range s
  | some L =>
    if (s.lines.get L).ltype ≠ .mr then refuse .wrongKind s
    else if !holdsLine s L p then refuse .notBound s
    else done [] (s.modGen L (fun g => { g with burst := (s.lines.get L).sig.outBurst })
      |> submit { kind := .ringOut, line := some L, pos := some p })

/-- LINE_SIGNAL (R80). -/
def execLineSignal (l : LinkId) (p line : Byte) (s : State) : Outcome :=
  .next (positionRequest l .lineSignal true {} p {} (lineSignal line) s)

/-- What the line block does for CAMP_CANCEL (R74): only the offered party hears of it. -/
def campCancel (line : Byte) (p : PosId) (s : State) : State × Response :=
  match lineOf line with
  | none => refuse .range s
  | some L =>
    let r := s.lines.get L
    if !r.camp.contains p then done (bYes false) s
    else if isOffered r p then done (bYes true) (campRemove L p .cancelled s)
    else done (bYes true) (removeCamp L p s)

/-- CAMP_CANCEL (R74). -/
def execCampCancel (l : LinkId) (p line : Byte) (s : State) : Outcome :=
  .next (positionRequest l .campCancel true {} p {} (campCancel line) s)

/-! ## LINE_DEFINE (R58, R89) -/

/-- The codes among the fields of LINE_DEFINE. -/
structure LineCodes where
  ltype : Option LineType
  privacy : Option Privacy
  policy : Option RecordPolicy
  reload : Option ReloadMask
  deriving DecidableEq, Repr

/-- Every present code names something. -/
def lineCodesOf (f : LineFields) : Option LineCodes := do
  let t ← optCode lineTypeOf f.ltype
  let p ← optCode privacyOf f.privacy
  let r ← optCode policyOf f.policy
  let m ← optCode reloadOf f.reload
  return ⟨t, p, r, m⟩

/-- A present quantity stored as `f` clamps it. -/
def newValue (f : Half → Nat) (old : Nat) : Option Half → Nat
  | some v => f v
  | none => old

/-- The signalling parameters with the present fields stored (R89). -/
def storeSig (f : LineFields) (g : SigParams) : SigParams :=
  { preQuiet := newValue (clampTop 1000) g.preQuiet f.preQuiet
    minBurst := newValue (clamp 20 2000) g.minBurst f.minBurst
    gapAllow := newValue (clampTop 200) g.gapAllow f.gapAllow
    postQuiet := newValue (clamp 20 2000) g.postQuiet f.postQuiet
    outBurst := newValue (clamp 100 4000) g.outBurst f.outBurst }

/-- The line record with the present fields stored, and reset (R58). -/
def storeLine (f : LineFields) (c : LineCodes) (r : Line) : Line :=
  { r with
    ltype := c.ltype.getD r.ltype
    privacy := c.privacy.getD r.privacy
    policy := c.policy.getD r.policy
    guardMs := newValue (clampTop 2000) r.guardMs f.guardMs
    offerS := newValue (clamp 1 10) r.offerS f.offerS
    recallS := newValue (clampOff 10 600) r.recallS f.recallS
    alertS := newValue (clamp 1 60) r.alertS f.alertS
    autoReleaseS := newValue (clampOff 10 3600) r.autoReleaseS f.autoReleaseS
    reload := c.reload.getD r.reload
    sig := storeSig f r.sig
    farPresent := false
    pendingRing := false
    timer := none }

/-- The state that follows from a line's type and highway (R58). -/
def definedState (s : State) (L : LineId) (t : LineType) : LineState :=
  if t = .none then .disabled else if s.lineUp L then .idle else .outOfService

/-- The line can be defined (R58 check 2). -/
def LineState.definable : LineState → Bool
  | .disabled | .outOfService | .idle => true
  | _ => false

/-- LINE_DEFINE committed: fields, detector, generator, state (R58, R96, R100). -/
def defineLine (L : LineId) (f : LineFields) (c : LineCodes) (s : State) : State :=
  let t := s.modLine L (storeLine f c)
    |>.modGen L (fun g => { g with burst := 0 })
    |> restartDetector L
  enterState L (definedState t L (t.lines.get L).ltype) .define t

/-- What the line block does for LINE_DEFINE (R58). -/
def lineDefine (line : Byte) (f : LineFields) (s : State) : State × Response :=
  match lineOf line, lineCodesOf f with
  | some L, some c =>
    if !(s.lines.get L).state.definable then refuse .active s
    else if (s.lines.get L).ltype = .ht && (legOf s L).isSome then refuse .active s
    else
      let t := defineLine L f c s
      done (bLineFields (t.lines.get L)) t
  | _, _ => refuse .range s

/-- LINE_DEFINE (R58). -/
def execLineDefine (l : LinkId) (line : Byte) (f : LineFields) (s : State) : Outcome :=
  .next (takeRequest l .lineDefine true {} (lineDefine line f) s)

/-! ## FORCE_DROP (R82) -/

/-- The number of holders, monitors and holds that FORCE_DROP releases (R82). -/
def releasedCounts (r : Line) : List Byte :=
  match r.state with
  | .connected => b2 r.holders.length ++ b2 r.monitors.length ++ b2 0
  | .held => b2 0 ++ b2 0 ++ b2 1
  | _ => b2 0 ++ b2 0 ++ b2 0

/-- What the line block does for FORCE_DROP (R82). -/
def forceDrop (line : Byte) (s : State) : State × Response :=
  match lineOf line with
  | none => refuse .range s
  | some L =>
    if !(s.lines.get L).ltype.takeable then refuse .wrongKind s
    else done (releasedCounts (s.lines.get L)) (teardownLine L .admin s)

/-- FORCE_DROP (R82). -/
def execForceDrop (l : LinkId) (line : Byte) (s : State) : Outcome :=
  .next (takeRequest l .forceDrop true {} (forceDrop line) s)

/-! ## BRIDGE_JOIN and BRIDGE_LEAVE (R25, R26) -/

/-- The response of BRIDGE_JOIN: the stored G and the number of entries (R25). -/
def joinBody (s : State) (b : BridgeId) (gain : Nat) : List Byte :=
  b2 gain ++ b2 (s.bridges.get b).contributors.length

/-- The join of a line's source, or the change of its gain, once the six checks have passed (R25). -/
def conferenceJoin (b : BridgeId) (M : LineId) (gain : Nat) (s : State) : State × Response :=
  if isConference s b (lineSource M) then
    let t := setGainOn b (lineSource M) gain s
    done (joinBody t b gain) t
  else match joinAnswer s b (lineSource M) with
    | some r => refuse r s
    | none =>
      let t := join b (lineSource M) gain 0 .conference s
      done (joinBody t b gain) t

/-- The line is CONNECTED. -/
def isConnected (s : State) (L : LineId) : Bool := (s.lines.get L).state = .connected

/-- What the bridge pool does for BRIDGE_JOIN: the six checks of R25 in order. -/
def bridgeJoin (bridge line : Byte) (gain : Half) (s : State) : State × Response :=
  match bridgeOf bridge, lineOf line with
  | some b, some M => match (s.bridges.get b).use with
    | .line L =>
      if !isConnected s L then refuse .notConnected s
      else if !(s.lines.get M).ltype.takeable then refuse .wrongKind s
      else if M = L then refuse .duplicate s
      else if !isConnected s M then refuse .notConnected s
      else conferenceJoin b M (clampTop 4095 gain) s
    | _ => refuse .wrongKind s
  | _, _ => refuse .range s

/-- BRIDGE_JOIN (R25). -/
def execBridgeJoin (l : LinkId) (bridge line : Byte) (gain : Half) (s : State) : Outcome :=
  .next (takeRequest l .bridgeJoin true {} (bridgeJoin bridge line gain) s)

/-- What the bridge pool does for BRIDGE_LEAVE (R26). -/
def bridgeLeave (bridge line : Byte) (s : State) : State × Response :=
  match bridgeOf bridge, lineOf line with
  | some b, some M =>
    if isConference s b (lineSource M) then done [] (leaveConference b (lineSource M) s)
    else refuse .notBound s
  | _, _ => refuse .range s

/-- BRIDGE_LEAVE (R26). -/
def execBridgeLeave (l : LinkId) (bridge line : Byte) (s : State) : Outcome :=
  .next (takeRequest l .bridgeLeave true {} (bridgeLeave bridge line) s)

end Sys2Proof.Machine
end

