-- ==== Sys2Proof/Machine/Links.lean ====
section
/-! DEFINITION. The commands of power and reset (R196), of the chip selects (R180, R184), and of class ALL
(R147): NOTICE_READ, NOTICE_MASK, QUERY, LINK_RESET, LATCH_CLEAR, and a frame that is MALFORMED. -/

namespace Sys2Proof.Machine

/-- Every block at its power-on values (R196). The commands that wait and the count of free choices are not
the part's, and stand. -/
def powerOnState (s : State) : State := { State.reset with pending := s.pending, drawn := s.drawn }

/-- POWER_ON (R196). -/
def execPowerOn (s : State) : Outcome := .next (powerOnState s)

/-- RESET: RESET_N goes low and rises again, and the part begins from its power-on values (R196). The row is the whole
pulse, so that no command falls where RESET_N is low: a chip select asserted before it has no transaction after it
(notes/assumptions/20.md). -/
def execReset (s : State) : Outcome := .next (powerOnState s)

/-- A link in IDLE starts to receive a request frame, and drives 0xFF (R180). -/
def Link.selected (k : Link) : Link :=
  match k.tx with
  | .idle => { k with tx := .request, frame := [], sdo := some Config.filler }
  | _ => k

/-- CHIP_SELECT_ASSERTED (R180). -/
def execChipSelectAsserted (l : LinkId) (s : State) : Outcome :=
  .next ((s.begin none).modLink l Link.selected)

/-- A NOTICE_READ's response was lost: RESYNC is appended, or marked as pending (R184). -/
def Link.readLost (k : Link) : Link :=
  if k.readCount = 0 then k
  else if k.queue.length < Config.queueCapacity && k.resync.isNone then
    k.setQueue (k.queue ++ [.resync .readLost k.readCount])
  else { k with dropped := satCount (k.dropped + k.readCount), resync := some (k.resync.getD .readLost) }

/-- The transaction ends, and the response that was not clocked out goes with it. -/
def Link.ended (k : Link) : Link := { k with tx := .idle, response := [], readCount := 0, sdo := none }

/-- A link's chip select deasserted (R180): a partial frame is discarded; in WAIT and RESPONSE the response
is lost, in TRAILING it has been clocked out. -/
def Link.deselected (k : Link) : Link :=
  match k.tx with
  | .idle => k
  | .request => { k.ended with frame := [] }
  | .wait _ | .response => k.readLost.ended
  | .trailing => k.ended

/-- CHIP_SELECT_DEASSERTED (R180, R184). -/
def execChipSelectDeasserted (l : LinkId) (s : State) : Outcome :=
  .next ((s.begin none).modLink l Link.deselected)

/-- MALFORMED: a complete frame that carries no request is answered so, with its kind byte echoed (R181,
R190). -/
def execMalformed (l : LinkId) (kind : Byte) (s : State) : Outcome :=
  .next (respond l kind (s.begin (some l), .bare .malformed))

/-- The number of notices that NOTICE_READ (n) returns (R184 step 1). -/
def noticeCount (n : Half) (k : Link) : Nat := min (readCountOf n) k.queue.length

/-- The link after NOTICE_READ (R184): `k` notices go from the head, and a pending RESYNC is appended. -/
def Link.readNotices (c : Nat) (k : Link) : Link :=
  match k.resync with
  | some cause =>
    if 1 ≤ c then { k.setQueue (k.queue.drop c ++ [.resync cause k.dropped]) with resync := none, dropped := 0 }
    else k
  | none => k.setQueue (k.queue.drop c)

/-- What the link block does for NOTICE_READ (R184). The notices of the body stand after `k` and the number queued, with
no count byte of their own (DESIGN CHOICE, notes/assumptions/8.md). -/
def readNotices (l : LinkId) (n : Half) (s : State) : State × Response :=
  let k := s.link l
  let c := noticeCount n k
  let t := s.modLink l (Link.readNotices c)
  (t, ⟨.done, b2 c ++ b2 (t.link l).queue.length ++ (k.queue.take c).flatMap Notice.bytes⟩)

/-- NOTICE_READ (R184). The link keeps how many notices the response carries, until it is clocked out. -/
def execNoticeRead (l : LinkId) (n : Half) (s : State) : Outcome :=
  .next ((takeRequest l .noticeRead true {} (readNotices l n) s).modLink l fun k =>
    { k with readCount := noticeCount n (s.link l) })

/-- The mask as NOTICE_MASK carries it: RESYNC's bit stands enabled (R185, R191). -/
def bMask (m : BitVec 18) : List Byte :=
  let v : BitVec 24 := m.setWidth 24 ||| (1#24 <<< 18)
  [v.extractLsb' 16 8, v.extractLsb' 8 8, v.extractLsb' 0 8]

/-- NOTICE_MASK (R185). -/
def execNoticeMask (l : LinkId) (mask : BitVec 24) (s : State) : Outcome :=
  .next (takeRequest l .noticeMask true {}
    (fun s => done (bMask (mask.setWidth 18)) (s.modLink l fun k => { k with mask := mask.setWidth 18 })) s)

/-- What is read for QUERY (R182): the clear option is bit 0 of the options. -/
def readObject (target id option : Byte) (s : State) : State × Response :=
  match queryTargetOf target id with
  | none => (s, .bare .range)
  | some t => (if option.getLsbD 0 && (queryResponse s t).result = .done then zeroClips (querySinks t) s else s,
      queryResponse s t)

/-- QUERY (R182). -/
def execQuery (l : LinkId) (target id option : Byte) (s : State) : Outcome :=
  .next (takeRequest l .query true {} (readObject target id option) s)

/-- The link after LINK_RESET (R188). -/
def Link.emptied (k : Link) : Link :=
  { k.setQueue [] with resync := none, dropped := 0, mask := BitVec.allOnes 18 }

/-- LINK_RESET (R188). -/
def execLinkReset (l : LinkId) (s : State) : Outcome :=
  .next (takeRequest l .linkReset true {}
    (fun s => done (b2 (s.link l).queue.length) (s.modLink l Link.emptied)) s)

/-- The state of a latch: CLEAR 0, SET 1 (R149). -/
def bLatch (s : State) (l : LinkId) : List Byte := bYes (s.latch l).isSome

/-- The first violation of a latch, 0xFF in each byte when there is none (R151). -/
def bViolation (v : Option Violation) : List Byte :=
  bOpt (v.map (·.kind.code)) ++ bOpt (v.map (·.refusal.code))

/-- The latch states that a response of LATCH_CLEAR carries: all six on ADM, the link's own elsewhere (R151). -/
def bLatches (s : State) (l : LinkId) : List Byte :=
  if l = .adm then allLinks.flatMap (bLatch s) else bLatch s l

/-- A latch cleared, with its PERMISSION record; a CLEAR latch is left as it is (R151). -/
def clearLatch (m : LinkId) (s : State) : State :=
  if (s.latch m).isSome then submit { kind := .permission, cause := some (.latchCleared m) } (s.setLatch m none)
  else s

/-- What the permission block does for LATCH_CLEAR (R151). -/
def latchClear (l : LinkId) (target : Byte) (s : State) : State × Response :=
  match latchTargetOf target with
  | none => (s, .bare .range)
  | some .none => done (bViolation none ++ bLatches s l) s
  | some .own =>
    let t := clearLatch l s
    done (bViolation (s.latch l) ++ bLatches t l) t
  | some (.link m) =>
    if l ≠ .adm ∧ m ≠ l then (violate l .latchClear .wrongLink {} s, .bare .wrongLink)
    else
      let t := clearLatch m s
      done (bViolation (s.latch m) ++ bLatches t l) t

/-- LATCH_CLEAR (R151). -/
def execLatchClear (l : LinkId) (target : Byte) (s : State) : Outcome :=
  .next (takeRequest l .latchClear true {} (latchClear l target) s)

end Sys2Proof.Machine
end

