-- ==== Sys2Proof/Machine/PositionCmds.lean ====
section
/-! DEFINITION. The commands of the position block and of its permissions: POS_OPEN, POS_CLOSE, KEY_SET,
LEVEL_SET (R4, R10, R12, R14), NARROW and GRANT (R143, R144). -/

namespace Sys2Proof.Machine

/-- POS_OPEN (R4): taken for a CLOSED position and while its highway is DOWN. -/
def execPosOpen (l : LinkId) (p : Byte) (s : State) : Outcome :=
  .next (positionRequest l .posOpen true { needsOpen := false } p {} (fun p s =>
    let t := s.modPos p fun r => { r with isOpen := true }
    done (bService t p) t) s)

/-- POS_CLOSE (R14). -/
def execPosClose (l : LinkId) (p : Byte) (s : State) : Outcome :=
  .next (positionRequest l .posClose true {} p {} (fun p s =>
    let t := closePosition p s
    done (endedCounts p s t) t) s)

/-! ## KEY_SET (R10) -/

/-- The key changes as KEY_SET asks, once its checks have passed (R10). -/
def setKey (p : PosId) (k : KeyId) (arg : KeyArg) (level : Nat) (side : Side) (priority : Bool) (s : State) :
    State :=
  let old := s.binding p (.key k)
  let new : Binding := match arg with
    | .keep => old
    | .none => .none
    | .hoot b => .listen b
  (if new = old then s else keyLeaves p k .keyChanged s)
    |>.modPos p fun r => { r with keys := r.keys.set k ⟨new, level, side, priority⟩ }

/-- The key holds a line. -/
def Binding.isHolder : Binding → Bool
  | .holder _ => true
  | _ => false

/-- Checks 2 and 3 of R10, for binding HOOT `b`. -/
def hootKeyCheck (l : LinkId) (p : PosId) (b : BridgeId) (s : State) : Option (State × Response) :=
  if (s.bridges.get b).use ≠ .hoot then some (refuse .wrongKind s)
  else if !s.mayListen p b then some (forbid l .keySet { pos := some p, hoot := some b } s)
  else none

/-- Another key of the position is bound to the hoot (R10 check 5). -/
def otherKeyOn (s : State) (p : PosId) (k : KeyId) (b : BridgeId) : Bool :=
  (ids 8).any fun j => j ≠ k && s.binding p (.key j) = .listen b

/-- Checks 2 to 5 of R10, in order; none when they pass. -/
def keyCheck (l : LinkId) (p : PosId) (k : KeyId) (arg : KeyArg) (s : State) : Option (State × Response) :=
  let holds := (s.binding p (.key k)).isHolder
  match arg with
  | .keep => none
  | .none => if holds then some (refuse .inUse s) else none
  | .hoot b => match hootKeyCheck l p b s with
    | some x => some x
    | none =>
      if holds then some (refuse .inUse s)
      else if otherKeyOn s p k b then some (refuse .duplicate s)
      else none

/-- What the position block does for KEY_SET (R10). -/
def keySet (l : LinkId) (key code bridge : Byte) (level : Half) (side priority : Byte) (p : PosId) (s : State) :
    State × Response :=
  match keyOf key, sideOf side, yesNoOf priority with
  | some k, some sd, some pr => match keyArgOf code bridge with
    | none => refuse .range s
    | some arg => match keyCheck l p k arg s with
      | some x => x
      | none =>
        let t := setKey p k arg (clampTop 1024 level) sd pr s
        done (bKey ((t.positions.get p).keys.get k)) t
  | _, _, _ => refuse .range s

/-- The hoot that a KEY_SET names, for the record of its violation (R149). -/
def keySetHoot (code bridge : Byte) : Option BridgeId := if code = 2#8 then bridgeOf bridge else none

/-- KEY_SET (R10). -/
def execKeySet (l : LinkId) (p key code bridge : Byte) (level : Half) (side priority : Byte) (s : State) :
    Outcome :=
  .next (positionRequest l .keySet true {} p { hoot := keySetHoot code bridge }
    (keySet l key code bridge level side priority) s)

/-! ## LEVEL_SET (R12, R13) -/

/-- A present level replaces the stored one, clamped. -/
def newLevel (top old : Nat) : Option Half → Nat
  | some v => clampTop top v
  | none => old

/-- The position record with the present fields stored (R12). -/
def storeLevels (f : LevelFields) (side : Option Side) (r : Position) : Position :=
  { r with
    ea := newLevel 1024 r.ea f.ea
    eb := newLevel 1024 r.eb f.eb
    icmT := newLevel 1024 r.icmT f.icmT
    icmSide := side.getD r.icmSide
    gainHA := newLevel 4095 r.gainHA f.gainHA
    gainHB := newLevel 4095 r.gainHB f.gainHB
    gainMIC := newLevel 4095 r.gainMIC f.gainMIC
    duck := newLevel 10 r.duck f.duck }

/-- A present gain set on the contributor entry of its source (R13, R24). -/
def applyGain (x : SourceId) (gain : Nat) (v : Option Half) (s : State) : State :=
  if v.isSome then setGain x gain s else s

/-- What the position block does for LEVEL_SET (R12, R13). -/
def levelSet (f : LevelFields) (p : PosId) (s : State) : State × Response :=
  match optCode sideOf f.icmSide with
  | none => refuse .range s
  | some side =>
    let r := storeLevels f side (s.positions.get p)
    let t := s.modPos p (fun _ => r)
      |> applyGain (posSource p 0) r.gainHA f.gainHA
      |> applyGain (posSource p 1) r.gainHB f.gainHB
      |> applyGain (posSource p 2) r.gainMIC f.gainMIC
    done (bLevels r) t

/-- LEVEL_SET (R12). -/
def execLevelSet (l : LinkId) (p : Byte) (f : LevelFields) (s : State) : Outcome :=
  .next (positionRequest l .levelSet true {} p {} (levelSet f) s)

/-! ## GRANT and NARROW (R143, R144) -/

/-- The intercom flag of GRANT and NARROW is a yes-or-no argument (R190). -/
def flagOk (f : PermParts) : Bool := (optCode yesNoOf f.icm).isSome

/-- A present set holds no member that the stored one lacks (R144). -/
def narrowsSet {n : Nat} (old : BitVec n) : Option (BitVec n) → Bool
  | some v => v &&& ~~~old = 0#n
  | none => true

/-- Every present part is no wider than the stored one (R144). -/
def narrows (f : PermParts) (r : Perm) : Bool :=
  narrowsSet r.appearance f.appearance && narrowsSet r.monitor f.monitor && narrowsSet r.listen f.listen &&
    narrowsSet r.talk f.talk && (!newFlag r.icm f.icm || r.icm)

/-- The response of GRANT and NARROW: the parts as stored, and what was ended (R143). -/
def permitBody (p : PosId) (before after : State) : List Byte :=
  bPerm (after.perms.get p) ++ endedCounts p before after

/-- What the permission block does for NARROW (R144). -/
def narrow (l : LinkId) (f : PermParts) (p : PosId) (s : State) : State × Response :=
  if !flagOk f then refuse .range s
  else if !narrows f (s.perms.get p) then forbid l .narrow { pos := some p } s
  else
    let t := commitPermits p .narrow f s
    done (permitBody p s t) t

/-- NARROW (R144). -/
def execNarrow (l : LinkId) (p : Byte) (f : PermParts) (s : State) : Outcome :=
  .next (positionRequest l .narrow f.fits {} p {} (narrow l f) s)

/-- What the permission block does for GRANT (R143). -/
def grant (p : Byte) (f : PermParts) (s : State) : State × Response :=
  match posOf p with
  | none => refuse .range s
  | some p =>
    if !flagOk f then refuse .range s
    else
      let t := commitPermits p .grant f s
      done (permitBody p s t) t

/-- GRANT (R143). -/
def execGrant (l : LinkId) (p : Byte) (f : PermParts) (s : State) : Outcome :=
  .next (takeRequest l .grant f.fits { pos := posOf p } (grant p f) s)

end Sys2Proof.Machine
end

