-- ==== Sys2Proof/Machine/Engine.lean ====
section
/-! DEFINITION. BYTE_CLOCKED: the transaction engine of a link receives its request frame byte by byte, takes
the request when the frame is complete, and clocks out the fillers, the start byte and the response (R180,
R181, R190). -/

namespace Sys2Proof.Machine

/-- The request that a frame carries, taken. A command that is no request never stands in a frame. -/
def runRequest (i : Instr) (s : State) : Outcome :=
  match i with
  | .noticeRead l n => execNoticeRead l n s
  | .noticeMask l m => execNoticeMask l m s
  | .query l t i o => execQuery l t i o s
  | .linkReset l => execLinkReset l s
  | .latchClear l t => execLatchClear l t s
  | .posOpen l p => execPosOpen l p s
  | .posClose l p => execPosClose l p s
  | .lineTake l p e n f => execLineTake l p e n f s
  | .lineDrop l p e => execLineDrop l p e s
  | .linePark l p e => execLinePark l p e s
  | .lineSignal l p n => execLineSignal l p n s
  | .campCancel l p n => execCampCancel l p n s
  | .keySet l p k c b v d r => execKeySet l p k c b v d r s
  | .levelSet l p f => execLevelSet l p f s
  | .talkOn l p k => execTalkOn l p k s
  | .talkOff l p k => execTalkOff l p k s
  | .icmDial l p e t m => execIcmDial l p e t m s
  | .icmGroup l p e g m => execIcmGroup l p e g m s
  | .icmPickup l p e c => execIcmPickup l p e c s
  | .icmHangup l p => execIcmHangup l p s
  | .narrow l p f => execNarrow l p f s
  | .lineDefine l n f => execLineDefine l n f s
  | .hootDefine l b f => execHootDefine l b f s
  | .hootRemove l b => execHootRemove l b s
  | .groupDefine l g ps => execGroupDefine l g ps s
  | .grant l p f => execGrant l p f s
  | .watchSet l m r => execWatchSet l m r s
  | .vadSet l c f => execVadSet l c f s
  | .logLimits l h w => execLogLimits l h w s
  | .icmPolicy l p a => execIcmPolicy l p a s
  | .timeSet l v => execTimeSet l v s
  | .forceDrop l n => execForceDrop l n s
  | .partClear l => execPartClear l s
  | .bridgeJoin l b n g => execBridgeJoin l b n g s
  | .bridgeLeave l b n => execBridgeLeave l b n s
  | .logRead l n => execLogRead l n s
  | .logReadAgain l n => execLogReadAgain l n s
  | .logStatus l => execLogStatus l s
  | .gapClear l => execGapClear l s
  | _ => .next s

/-- The frame is complete: 2 + length bytes have arrived, or the length byte is above 60 (R180). -/
def frameComplete : List Byte → Bool
  | _ :: len :: body => 60 < len.toNat || len.toNat ≤ body.length
  | _ => false

/-- The kind byte of a frame (R190). -/
def frameKind : List Byte → Byte
  | k :: _ => k
  | [] => 0#8

/-- A complete frame taken: its request, or MALFORMED (R181). -/
def takeFrame (l : LinkId) (frame : List Byte) (s : State) : Outcome :=
  match decodeFrame l frame with
  | some i => runRequest i s
  | none => execMalformed l (frameKind frame) s

/-- The byte that a link drives next, from its response (R180): TRAILING follows the last byte. -/
def Link.clockResponse (k : Link) : Link :=
  match k.response with
  | [] => { k with tx := .trailing, sdo := some Config.filler }
  | b :: r => { k with response := r, sdo := some b, tx := if r.isEmpty then .trailing else .response }

/-- A byte clocked in WAIT: the filler four times, then the start byte (R180). -/
def Link.clockWait (n : Nat) (k : Link) : Link :=
  if n < 4 then { k with tx := .wait (n + 1), sdo := some Config.filler }
  else { k with tx := .response, sdo := some Config.startByte }

/-- A byte received in REQUEST: it joins the frame buffer while 0xFF is driven, and a complete frame is taken
(R180). -/
def receiveByte (l : LinkId) (byte : Byte) (s : State) : Outcome :=
  let t := s.modLink l fun k => { k with frame := k.frame ++ [byte], sdo := some Config.filler }
  if frameComplete (t.link l).frame then takeFrame l (t.link l).frame t else .next t

/-- BYTE_CLOCKED, by the state of the transaction (R180). With the chip select deasserted nothing is clocked. -/
def execByteClocked (l : LinkId) (byte : Byte) (s : State) : Outcome :=
  let s := s.begin none
  match (s.link l).tx with
  | .idle => .next s
  | .request => receiveByte l byte s
  | .wait n => .next (s.modLink l (Link.clockWait n))
  | .response => .next (s.modLink l Link.clockResponse)
  | .trailing => .next (s.modLink l fun k => { k with sdo := some Config.filler })

end Sys2Proof.Machine
end

