-- ==== Sys2Proof/Machine/Events.lean ====
section
/-! DEFINITION. The events: frames and highways (R192 to R195), activity (R46, R47), signalling (R88 to R95),
the expiries of the timers (R71, R73, R75, R79, R40, R134, R114, R98), and the millisecond tick (R162). An
event that cannot occur in the state it meets (its timer is not running, its detector cannot raise it)
changes nothing: notes/assumptions/3.md. -/

namespace Sys2Proof.Machine

/-! ## Frames and highways -/

/-- FRAME_SYNC_PULSE (R192). -/
def execFrameSyncPulse (f : InFrame) (s : State) : Outcome := .next (framePulse f (s.begin none))

/-- FRAME_SYNC_ABSENT: no pulse for 1 ms (R195). The tick raises it as well (`tick`). -/
def execFrameSyncAbsent (s : State) : Outcome := .next (syncLost (s.begin none))

/-- POSITION_HIGHWAY_DOWN (R15, R194). -/
def execPositionHighwayDown (n : HwId) (s : State) : Outcome :=
  let t := s.begin none
  .next (if (t.posHw.get n).up then posHighwayDown n t else t)

/-- POSITION_HIGHWAY_UP (R15, R194). -/
def execPositionHighwayUp (n : HwId) (s : State) : Outcome :=
  let t := s.begin none
  .next (if (t.posHw.get n).up then t else posHighwayUp n t)

/-- LINE_HIGHWAY_DOWN (R83, R194). -/
def execLineHighwayDown (n : HwId) (s : State) : Outcome :=
  let t := s.begin none
  .next (if (t.lineHw.get n).up then lineHighwayDown n t else t)

/-- LINE_HIGHWAY_UP (R84, R194). -/
def execLineHighwayUp (n : HwId) (s : State) : Outcome :=
  let t := s.begin none
  .next (if (t.lineHw.get n).up then t else lineHighwayUp n t)

/-! ## Activity -/

/-- ACTIVITY_START of a QUIET source (R46, R51). -/
def execActivityStart (x : SourceId) (s : State) : Outcome :=
  let t := s.begin none
  .next (if t.active x then t else raiseActivity x true t)

/-- ACTIVITY_END of an ACTIVE source (R47, R51). -/
def execActivityEnd (x : SourceId) (s : State) : Outcome :=
  let t := s.begin none
  .next (if t.active x then raiseActivity x false t else t)

/-! ## Signalling -/

/-- SIGNALLING_SAMPLE (R88). -/
def execSignallingSample (bits : BitVec 192) (s : State) : Outcome :=
  .next (signallingSample (fun _ => true) bits (s.begin none))

/-- DETECTOR_ARMED: the pre-quiet of a QUIET detector is complete (R91, R92). The glitch filter, which no sample has
passed, stands (DESIGN CHOICE, notes/assumptions/3.md). -/
def armDetector (L : LineId) (s : State) : State :=
  if detectorRuns s L && (s.rings.get L).state = .quiet then
    s.modRing L fun d => { d with state := .armed, quiet := 0 }
  else s

/-- DETECTOR_ARMED (R92). -/
def execDetectorArmed (L : LineId) (s : State) : Outcome := .next (armDetector L (s.begin none))

/-- The gap of a burst exceeds the gap allowance (R93): the absence so far, one sample more than G, counts
toward the pre-quiet. The glitch filter, which no sample has passed, stands (DESIGN CHOICE, notes/assumptions/3.md). -/
def endBurst (L : LineId) (s : State) : State :=
  if detectorRuns s L && (s.rings.get L).state = .burst then
    s.modRing L (RingDet.toQuiet (samplesOf (s.lines.get L).sig.preQuiet)
      (samplesOf (s.lines.get L).sig.gapAllow + 1))
  else s

/-- INBOUND_BURST_END (R93). -/
def execInboundBurstEnd (L : LineId) (s : State) : Outcome := .next (endBurst L (s.begin none))

/-- A ring has been raised and not yet ended: RINGING or TAIL (R91). -/
def RingDet.rings (d : RingDet) : Bool := d.state = .ringing || d.state = .tail

/-- The detector enters RINGING, and RING_START is handed to the line block (R93, R95). The glitch filter, which no
sample has passed, stands (DESIGN CHOICE, notes/assumptions/3.md). -/
def raiseRing (L : LineId) (s : State) : State :=
  if detectorRuns s L && !(s.rings.get L).rings then
    s.modRing L (fun d => { d with state := .ringing, quiet := 0, burst := 0, gap := 0, tail := 0 })
      |> deliverRing L true
  else s

/-- RING_START (R77, R95). -/
def execRingStart (L : LineId) (s : State) : Outcome := .next (raiseRing L (s.begin none))

/-- The detector leaves TAIL with its post-quiet complete, and RING_END is handed to the line block (R94,
R95). The glitch filter, which no sample has passed, stands (DESIGN CHOICE, notes/assumptions/3.md). -/
def endRing (L : LineId) (s : State) : State :=
  if detectorRuns s L && (s.rings.get L).rings then
    s.modRing L (RingDet.toQuiet (samplesOf (s.lines.get L).sig.preQuiet)
        (samplesOf (s.lines.get L).sig.postQuiet))
      |> deliverRing L false
  else s

/-- RING_END (R78, R95). -/
def execRingEnd (L : LineId) (s : State) : Outcome := .next (endRing L (s.begin none))

/-- The outbound burst of a line ends (R98). -/
def endOutBurst (L : LineId) (s : State) : State := s.modGen L fun g => { g with burst := 0 }

/-- OUTBOUND_BURST_END (R98). -/
def execOutboundBurstEnd (L : LineId) (s : State) : Outcome := .next (endOutBurst L (s.begin none))

/-! ## Timers -/

/-- The kind of the running line timer. -/
def timerKind (s : State) (L : LineId) : Option TimerKind := (s.lines.get L).timer.map (·.kind)

/-- Expiry of the GUARD timer (R73). -/
def guardExpires (L : LineId) (s : State) : State := if timerKind s L = some .guard then endClearing L s else s

/-- Expiry of the OFFER timer: the head is removed, and the offer advances (R75). -/
def offerExpires (L : LineId) (s : State) : State :=
  if timerKind s L = some .offer then
    match (s.lines.get L).camp with
    | q :: _ => campRemove L q .expired s
    | [] => s
  else s

/-- Expiry of the ALERT timer: the line is abandoned (R79). -/
def alertExpires (L : LineId) (s : State) : State := if timerKind s L = some .alert then abandon L s else s

/-- Expiry of the RECALL timer: RECALL goes to the hold owner, and the timer restarts (R71). -/
def recallExpires (L : LineId) (s : State) : State :=
  if timerKind s L = some .recall then
    (match (s.lines.get L).holdOwner with
      | some p => postPos p (.recall L p) s
      | none => s) |> startTimer L .recall (1000 * (s.lines.get L).recallS)
  else s

/-- A LIVE hoot falls QUIET (R137). -/
def hootQuiet (b : BridgeId) (s : State) : State :=
  match s.hoots.get b with
  | some h =>
    if h.live then s.modHoot b (fun h => { h with live := false }) |> postListeners b (.hootState b false) else s
  | none => s

/-- BRIDGE_IDLE handed to the owner of the bridge (R40, R81, R137). -/
def deliverIdle (b : BridgeId) (s : State) : State :=
  match (s.bridges.get b).use with
  | .line L => teardownLine L .idleRelease s
  | .hoot => hootQuiet b s
  | .icm | .free => s

/-- Expiry of a RUNNING idle timer (R40). -/
def idleExpires (b : BridgeId) (s : State) : State :=
  if (s.bridges.get b).idle.isSome then s.modBridge b (fun r => { r with idle := none }) |> deliverIdle b else s

/-- The talk-idle timer of a position's grant, when it is RUNNING. -/
def talkTimerOf (s : State) (b : BridgeId) (p : PosId) : Option Nat :=
  match s.hoots.get b with
  | some h => (h.talker p).bind (·.timer)
  | none => none

/-- Expiry of a talk-idle timer (R134). -/
def talkExpires (b : BridgeId) (p : PosId) (s : State) : State :=
  if (talkTimerOf s b p).isSome then endGrant b p .talkIdle s else s

/-- Expiry of a call's alert timer (R114): a PRESENTING call ends, an ACTIVE one loses its remaining
presentations. -/
def callExpires (c : BridgeId) (s : State) : State :=
  match s.calls.get c with
  | some r =>
    if r.alert.isNone then s
    else if !r.active then endCall c { cause := .expired } s
    else s.modCall c (fun r => { r with alert := none })
      |> withdrawAll c .expired
      |> postIcmState r.caller.1 .expired
  | none => s

/-- GUARD_EXPIRY (R73). -/
def execGuardExpiry (L : LineId) (s : State) : Outcome := .next (guardExpires L (s.begin none))

/-- OFFER_EXPIRY (R75). -/
def execOfferExpiry (L : LineId) (s : State) : Outcome := .next (offerExpires L (s.begin none))

/-- ALERT_EXPIRY (R79). -/
def execAlertExpiry (L : LineId) (s : State) : Outcome := .next (alertExpires L (s.begin none))

/-- RECALL_EXPIRY (R71). -/
def execRecallExpiry (L : LineId) (s : State) : Outcome := .next (recallExpires L (s.begin none))

/-- BRIDGE_IDLE (R40). -/
def execBridgeIdle (b : BridgeId) (s : State) : Outcome := .next (idleExpires b (s.begin none))

/-- TALK_IDLE_EXPIRY (R134). -/
def execTalkIdleExpiry (b : BridgeId) (p : PosId) (s : State) : Outcome := .next (talkExpires b p (s.begin none))

/-- ICM_ALERT_EXPIRY (R114). -/
def execIcmAlertExpiry (c : BridgeId) (s : State) : Outcome := .next (callExpires c (s.begin none))

/-! ## The millisecond tick -/

/-- A time remaining counts down by one millisecond. -/
def countDown (t : Option Nat) : Option Nat := t.map (· - 1)

/-- Every running millisecond timer counts down, and the time base advances (R162, R192). A burst whose time
remaining reaches 0 has ended (R98). -/
def countAll (s : State) : State :=
  { s with
    log := { s.log with time := s.log.time + 1 }
    lines := s.lines.map fun r => { r with timer := r.timer.map fun t => { t with remaining := t.remaining - 1 } }
    bridges := s.bridges.map fun r => { r with idle := countDown r.idle }
    hoots := s.hoots.map (Option.map fun h => { h with
      granted := h.granted.map fun t => { t with timer := countDown t.timer } })
    calls := s.calls.map (Option.map fun r => { r with alert := countDown r.alert })
    gens := s.gens.map fun g => { g with burst := g.burst - 1 } }

/-- A timer that has counted its full period; `sync` is the 1 ms without a frame-sync pulse (R192). -/
inductive Expiry where
  | line (L : LineId)
  | bridge (b : BridgeId)
  | talk (b : BridgeId) (p : PosId)
  | call (c : BridgeId)
  | sync
  deriving DecidableEq, Repr

/-- The line's timer has counted its full period. -/
def lineDue (s : State) (L : LineId) : Bool := (s.lines.get L).timer.map (·.remaining) = some 0

/-- The timer is due: it runs, and no time remains. One that an expiry taken before has stopped or restarted
is not. The frame sync is lost at a tick when no pulse has come since the tick before (notes/assumptions/7.md). -/
def isDue (s : State) : Expiry → Bool
  | .line L => lineDue s L
  | .bridge b => (s.bridges.get b).idle = some 0
  | .talk b p => talkTimerOf s b p = some 0
  | .call c => ((s.calls.get c).bind (·.alert)) = some 0
  | .sync => s.syncPresent && !s.pulsed

/-- The talk-idle timers of a hoot, as expiries. -/
def talkExpiries (s : State) (b : BridgeId) : List Expiry :=
  match s.hoots.get b with
  | some h => h.granted.map fun t => .talk b t.pos
  | none => []

/-- Every timer of the part that is due. -/
def dueTimers (s : State) : List Expiry :=
  (((ids 192).map .line ++ (ids 96).map .bridge ++ (ids 96).flatMap (talkExpiries s) ++ (ids 96).map .call ++
    [.sync]) : List Expiry).filter (isDue s)

/-- A line timer's expiry, by its kind. -/
def lineExpires (L : LineId) (s : State) : State :=
  match timerKind s L with
  | some .guard => guardExpires L s
  | some .offer => offerExpires L s
  | some .alert => alertExpires L s
  | some .recall => recallExpires L s
  | none => s

/-- An expiry taken, when it is still due (R192). -/
def takeExpiry (e : Expiry) (s : State) : State :=
  if isDue s e then
    let t := s.begin none
    match e with
    | .line L => lineExpires L t
    | .bridge b => idleExpires b t
    | .talk b p => talkExpires b p t
    | .call c => callExpires c t
    | .sync => syncLost t
  else s

/-- A millisecond of the reference clock (R162, R192): the expiries that fall together, the loss of the frame sync
among them, are taken in an order that is free; the next millisecond has then seen no pulse yet. -/
def tick (s : State) : State :=
  let t := countAll s
  ({ t with pulsed := false } : State).inFreeOrder (dueTimers t) takeExpiry

/-- MILLISECOND_TICK (R162). -/
def execMillisecondTick (s : State) : Outcome := .next (tick (s.begin none))

end Sys2Proof.Machine
end

