-- ==== Sys2Proof/Machine/Dispatch.lean ====
section
/-! DEFINITION. Every command's meaning: one arm for each row of spec/opcode_table.json. -/

namespace Sys2Proof.Machine

def exec (i : Instr) (s : State) : Host.Outcome State Fault Refusal :=
  match i with
  | .powerOn => Sys2Proof.Machine.execPowerOn s
  | .reset => Sys2Proof.Machine.execReset s
  | .chipSelectAsserted l => Sys2Proof.Machine.execChipSelectAsserted l s
  | .chipSelectDeasserted l => Sys2Proof.Machine.execChipSelectDeasserted l s
  | .malformed l kind => Sys2Proof.Machine.execMalformed l kind s
  | .noticeRead l n => Sys2Proof.Machine.execNoticeRead l n s
  | .noticeMask l mask => Sys2Proof.Machine.execNoticeMask l mask s
  | .query l target id option => Sys2Proof.Machine.execQuery l target id option s
  | .linkReset l => Sys2Proof.Machine.execLinkReset l s
  | .latchClear l target => Sys2Proof.Machine.execLatchClear l target s
  | .posOpen l p => Sys2Proof.Machine.execPosOpen l p s
  | .posClose l p => Sys2Proof.Machine.execPosClose l p s
  | .lineTake l p ep line flags => Sys2Proof.Machine.execLineTake l p ep line flags s
  | .lineDrop l p ep => Sys2Proof.Machine.execLineDrop l p ep s
  | .linePark l p ep => Sys2Proof.Machine.execLinePark l p ep s
  | .lineSignal l p line => Sys2Proof.Machine.execLineSignal l p line s
  | .campCancel l p line => Sys2Proof.Machine.execCampCancel l p line s
  | .keySet l p key code bridge level side priority => Sys2Proof.Machine.execKeySet l p key code bridge level side priority s
  | .levelSet l p f => Sys2Proof.Machine.execLevelSet l p f s
  | .talkOn l p key => Sys2Proof.Machine.execTalkOn l p key s
  | .talkOff l p key => Sys2Proof.Machine.execTalkOff l p key s
  | .icmDial l p ep target mode => Sys2Proof.Machine.execIcmDial l p ep target mode s
  | .icmGroup l p ep group mode => Sys2Proof.Machine.execIcmGroup l p ep group mode s
  | .icmPickup l p ep choice => Sys2Proof.Machine.execIcmPickup l p ep choice s
  | .icmHangup l p => Sys2Proof.Machine.execIcmHangup l p s
  | .narrow l p parts => Sys2Proof.Machine.execNarrow l p parts s
  | .lineDefine l line f => Sys2Proof.Machine.execLineDefine l line f s
  | .hootDefine l bridge f => Sys2Proof.Machine.execHootDefine l bridge f s
  | .hootRemove l bridge => Sys2Proof.Machine.execHootRemove l bridge s
  | .groupDefine l group members => Sys2Proof.Machine.execGroupDefine l group members s
  | .grant l p parts => Sys2Proof.Machine.execGrant l p parts s
  | .watchSet l lines route => Sys2Proof.Machine.execWatchSet l lines route s
  | .vadSet l cls f => Sys2Proof.Machine.execVadSet l cls f s
  | .logLimits l hw lw => Sys2Proof.Machine.execLogLimits l hw lw s
  | .icmPolicy l policy alertS => Sys2Proof.Machine.execIcmPolicy l policy alertS s
  | .timeSet l value => Sys2Proof.Machine.execTimeSet l value s
  | .forceDrop l line => Sys2Proof.Machine.execForceDrop l line s
  | .partClear l => Sys2Proof.Machine.execPartClear l s
  | .bridgeJoin l bridge line gain => Sys2Proof.Machine.execBridgeJoin l bridge line gain s
  | .bridgeLeave l bridge line => Sys2Proof.Machine.execBridgeLeave l bridge line s
  | .logRead l n => Sys2Proof.Machine.execLogRead l n s
  | .logReadAgain l n => Sys2Proof.Machine.execLogReadAgain l n s
  | .logStatus l => Sys2Proof.Machine.execLogStatus l s
  | .gapClear l => Sys2Proof.Machine.execGapClear l s
  | .frameSyncPulse f => Sys2Proof.Machine.execFrameSyncPulse f s
  | .frameSyncAbsent => Sys2Proof.Machine.execFrameSyncAbsent s
  | .activityStart src => Sys2Proof.Machine.execActivityStart src s
  | .activityEnd src => Sys2Proof.Machine.execActivityEnd src s
  | .positionHighwayDown n => Sys2Proof.Machine.execPositionHighwayDown n s
  | .positionHighwayUp n => Sys2Proof.Machine.execPositionHighwayUp n s
  | .lineHighwayDown n => Sys2Proof.Machine.execLineHighwayDown n s
  | .lineHighwayUp n => Sys2Proof.Machine.execLineHighwayUp n s
  | .signallingSample bits => Sys2Proof.Machine.execSignallingSample bits s
  | .detectorArmed L => Sys2Proof.Machine.execDetectorArmed L s
  | .inboundBurstEnd L => Sys2Proof.Machine.execInboundBurstEnd L s
  | .ringStart L => Sys2Proof.Machine.execRingStart L s
  | .ringEnd L => Sys2Proof.Machine.execRingEnd L s
  | .guardExpiry L => Sys2Proof.Machine.execGuardExpiry L s
  | .offerExpiry L => Sys2Proof.Machine.execOfferExpiry L s
  | .alertExpiry L => Sys2Proof.Machine.execAlertExpiry L s
  | .recallExpiry L => Sys2Proof.Machine.execRecallExpiry L s
  | .bridgeIdle b => Sys2Proof.Machine.execBridgeIdle b s
  | .talkIdleExpiry b p => Sys2Proof.Machine.execTalkIdleExpiry b p s
  | .icmAlertExpiry c => Sys2Proof.Machine.execIcmAlertExpiry c s
  | .outboundBurstEnd L => Sys2Proof.Machine.execOutboundBurstEnd L s
  | .byteClocked l byte => Sys2Proof.Machine.execByteClocked l byte s
  | .millisecondTick => Sys2Proof.Machine.execMillisecondTick s

end Sys2Proof.Machine
end

