-- ==== Sys2Proof/Safety.lean ====
section
/-! DEFINITION. What a safe run is, the invariants that every step keeps, and the words in which the claims of
Certificates/ are written. -/

namespace Sys2Proof.Machine

/-- A command completes: it answers a next state, and neither faults nor is refused. -/
def completes (c : Instr) (s : State) : Prop := ∃ t, exec c s = .next t

/-- A safe run: however many steps it takes, the machine never stops. -/
def runsSafely (s : State) : Prop := ∀ n, ∃ t, Host.Core.run Sys2Proof.core n s = .next t

/-! ## Invariants -/

/-- A link record (R179, R180, R187): the attention output follows the queue, the queue and the counts keep
their capacities, a dropped count stands only while RESYNC is pending, and a frame still being received is not
complete. -/
structure LinkOk (k : Link) : Prop where
  attention : k.attention = !k.queue.isEmpty
  capacity : k.queue.length ≤ 64
  dropped : k.dropped ≤ 65535
  pending : k.resync = none → k.dropped = 0
  frame : k.frame.length ≤ 62
  partialFrame : k.tx = .request → frameComplete k.frame = false

/-- Every link record is as R179, R180 and R187 say. -/
def LinksOk (s : State) : Prop := ∀ i, LinkOk (s.links.get i)

/-- How two records that stand next to each other in the log are numbered (R166, R171): by one apart, or with a GAP
record behind that names the number after its predecessor's as the first lost and counts the numbers between them;
a count that has reached its top, 2^32-1, counts no further (R169). -/
def follows (a b : Record) : Prop :=
  b.seq = a.seq + 1 ∨ (b.kind = .gap ∧ b.firstLost = some (a.seq + 1) ∧
    ∃ n, b.lost = some n ∧ (n ≠ 0xFFFFFFFF#32 → b.seq = a.seq + 1 + n))

/-- The detail log (R166, R168, R169, R171, R176): its capacity and watermarks, the state that its fill allows,
the loss episode of LOST alone with its count of the numbers lost, and the numbering of its records, up to the number
that the next record or the loss episode takes. -/
structure LogOk (g : Log) : Prop where
  capacity : g.queue.length ≤ 1024
  high : 2 ≤ g.hw ∧ g.hw ≤ 1020
  low : 1 ≤ g.lw ∧ g.lw < g.hw
  normal : g.level = .normal → g.queue.length < g.hw
  drained : g.level ≠ .normal → g.lw < g.queue.length
  episode : g.level = .lost ↔ g.episode.isSome
  counted : ∀ e, g.episode = some e → 1 ≤ e.count ∧ e.count ≤ 2 ^ 32 - 1 ∧
    (e.count < 2 ^ 32 - 1 → g.seq = e.first + BitVec.ofNat 32 e.count)
  total : g.totalLost ≤ 65535
  batch : g.lastBatch.length ≤ 8
  numbered : g.queue.IsChain follows
  newest : ∀ r, g.queue.getLast? = some r →
    (g.episode = none → g.seq = r.seq + 1) ∧ ∀ e, g.episode = some e → e.first = r.seq + 1

/-- A bridge record (R22, R24, R37, R39): at most 12 contributors, no source twice, gains and shifts within
their ranges, the activity flag true to the activity states, and the idle timer STOPPED while a selected entry
is ACTIVE or the period is 0. -/
structure BridgeOk (s : State) (r : Bridge) : Prop where
  capacity : r.contributors.length ≤ 12
  noneTwice : (r.contributors.map (·.source)).Nodup
  ranges : ∀ c ∈ r.contributors, c.gain ≤ 4095 ∧ c.shift ≤ 12
  flag : r.active = anyActive s r.contributors
  idle : selectedActive s r = true → r.idle = none
  off : r.period = 0 → r.idle = none

/-- Every bridge record is as R22, R24, R37 and R39 say. -/
def PoolOk (s : State) : Prop := ∀ b, BridgeOk s (s.bridges.get b)

/-- The positions that have a grant or a queue entry on a hoot. -/
def Hoot.talkers (h : Hoot) : List PosId := h.granted.map (·.pos) ++ h.queue.map (·.1)

/-- A hoot record (R120): the granted talkers keep to the talk slots, the queue to its eight entries, and no
position stands twice across the two. -/
structure HootOk (h : Hoot) : Prop where
  slots : h.granted.length ≤ h.slots
  queue : h.queue.length ≤ 8
  noneTwice : h.talkers.Nodup

/-- Every hoot record is as R120 says. -/
def HootsOk (s : State) : Prop := ∀ b h, s.hoots.get b = some h → HootOk h

/-- A camp queue (R63): at most eight positions, none twice. -/
structure CampOk (r : Line) : Prop where
  capacity : r.camp.length ≤ 8
  noneTwice : r.camp.Nodup

/-- Every camp queue is as R63 says. -/
def CampsOk (s : State) : Prop := ∀ L, CampOk (s.lines.get L)

/-! ## Words of the claims -/

/-- The request kind of a command; nothing for one that is no request (R147). -/
def kindOf : Instr → Option ReqKind
  | .noticeRead _ _ => some .noticeRead
  | .noticeMask _ _ => some .noticeMask
  | .query _ _ _ _ => some .query
  | .linkReset _ => some .linkReset
  | .latchClear _ _ => some .latchClear
  | .posOpen _ _ => some .posOpen
  | .posClose _ _ => some .posClose
  | .lineTake _ _ _ _ _ => some .lineTake
  | .lineDrop _ _ _ => some .lineDrop
  | .linePark _ _ _ => some .linePark
  | .lineSignal _ _ _ => some .lineSignal
  | .campCancel _ _ _ => some .campCancel
  | .keySet _ _ _ _ _ _ _ _ => some .keySet
  | .levelSet _ _ _ => some .levelSet
  | .talkOn _ _ _ => some .talkOn
  | .talkOff _ _ _ => some .talkOff
  | .icmDial _ _ _ _ _ => some .icmDial
  | .icmGroup _ _ _ _ _ => some .icmGroup
  | .icmPickup _ _ _ _ => some .icmPickup
  | .icmHangup _ _ => some .icmHangup
  | .narrow _ _ _ => some .narrow
  | .lineDefine _ _ _ => some .lineDefine
  | .hootDefine _ _ _ => some .hootDefine
  | .hootRemove _ _ => some .hootRemove
  | .groupDefine _ _ _ => some .groupDefine
  | .grant _ _ _ => some .grant
  | .watchSet _ _ _ => some .watchSet
  | .vadSet _ _ _ => some .vadSet
  | .logLimits _ _ _ => some .logLimits
  | .icmPolicy _ _ _ => some .icmPolicy
  | .timeSet _ _ => some .timeSet
  | .forceDrop _ _ => some .forceDrop
  | .partClear _ => some .partClear
  | .bridgeJoin _ _ _ _ => some .bridgeJoin
  | .bridgeLeave _ _ _ => some .bridgeLeave
  | .logRead _ _ => some .logRead
  | .logReadAgain _ _ => some .logRead
  | .logStatus _ => some .logStatus
  | .gapClear _ => some .gapClear
  | .powerOn => none
  | .reset => none
  | .chipSelectAsserted _ => none
  | .chipSelectDeasserted _ => none
  | .malformed _ _ => none
  | .frameSyncPulse _ => none
  | .frameSyncAbsent => none
  | .activityStart _ => none
  | .activityEnd _ => none
  | .positionHighwayDown _ => none
  | .positionHighwayUp _ => none
  | .lineHighwayDown _ => none
  | .lineHighwayUp _ => none
  | .signallingSample _ => none
  | .detectorArmed _ => none
  | .inboundBurstEnd _ => none
  | .ringStart _ => none
  | .ringEnd _ => none
  | .guardExpiry _ => none
  | .offerExpiry _ => none
  | .alertExpiry _ => none
  | .recallExpiry _ => none
  | .bridgeIdle _ => none
  | .talkIdleExpiry _ _ => none
  | .icmAlertExpiry _ => none
  | .outboundBurstEnd _ => none
  | .byteClocked _ _ => none
  | .millisecondTick => none

/-- The byte that names an identifier (R190). -/
def idByte {n : Nat} (i : Fin n) : Byte := BitVec.ofNat 8 i.val

/-- The byte that names an endpoint (R190). -/
def endByte (e : Endpoint) : Byte := BitVec.ofNat 8 e.code

/-- A request of kind `kind` about position `p` passes the latch, class and scope tests of link `l` (R181):
the latch is CLEAR or the kind exempt, the link may send the class, and a PC link names one of its own
positions. -/
def mayTake (s : State) (l : LinkId) (kind : ReqKind) (p : Option PosId) : Prop :=
  (s.latch l = none ∨ latchExempt kind = true) ∧ maySend l kind.cls = true ∧ outOfScope l kind p = false

/-- What a PERMISSION record of a command's violation names (R149): the position of a request that names one, the
line of a LINE_TAKE, the hoot of a KEY_SET. -/
def namedBy : Instr → Named
  | .posOpen _ p | .posClose _ p | .lineDrop _ p _ | .linePark _ p _ | .lineSignal _ p _ | .campCancel _ p _
  | .levelSet _ p _ | .talkOn _ p _ | .talkOff _ p _ | .icmDial _ p _ _ _ | .icmGroup _ p _ _ _ | .icmPickup _ p _ _
  | .icmHangup _ p | .narrow _ p _ | .grant _ p _ => { pos := posOf p }
  | .lineTake _ p _ line _ => { pos := posOf p, line := lineOf line }
  | .keySet _ p _ code bridge _ _ _ => { pos := posOf p, hoot := keySetHoot code bridge }
  | _ => {}

/-- Bytes clocked on a link one after another: what SDO drives for each, and the state after the last. -/
def clockBytes (l : LinkId) : List Byte → State → List (Option Byte) × State
  | [], s => ([], s)
  | x :: xs, s => match exec (.byteClocked l x) s with
    | .next t => ((t.link l).sdo :: (clockBytes l xs t).1, (clockBytes l xs t).2)
    | _ => ([], s)

/-- The response that a link holds ready: the kind, the result and a body (R180, R190). -/
def answered (t : State) (l : LinkId) (kind : ReqKind) (r : Result) (body : List Byte) : Prop :=
  (t.link l).tx = .wait 0 ∧ (t.link l).response = Response.bytes (BitVec.ofNat 8 kind.code) ⟨r, body⟩

/-- The queue, mask and counts of a link: what its own transaction does not touch. -/
def sameNotices (j k : Link) : Prop :=
  k.queue = j.queue ∧ k.mask = j.mask ∧ k.resync = j.resync ∧ k.dropped = j.dropped ∧ k.attention = j.attention

/-- Between `s` and `t` no link gained or lost a notice. -/
def noNotice (s t : State) : Prop := ∀ l, sameNotices (s.link l) (t.link l)

/-- A position record without its bindings and its feed. -/
def Position.settings (r : Position) : Position :=
  { r with ha := .none, hb := .none, mic := .none, feed := none,
           keys := r.keys.map fun k => { k with binding := .none } }

/-- A line record without what its calls change. -/
def Line.settings (r : Line) : Line :=
  { r with state := .idle, holders := [], monitors := [], holdOwner := none, camp := [], bridge := none,
           farPresent := false, pendingRing := false, timer := none }

/-- The byte that carries the position of a request of class POSITION (R147). -/
def positionByte : Instr → Option Byte
  | .posOpen _ p | .posClose _ p | .lineTake _ p _ _ _ | .lineDrop _ p _ | .linePark _ p _ | .lineSignal _ p _
  | .campCancel _ p _ | .keySet _ p _ _ _ _ _ _ | .levelSet _ p _ | .talkOn _ p _ | .talkOff _ p _
  | .icmDial _ p _ _ _ | .icmGroup _ p _ _ _ | .icmPickup _ p _ _ | .icmHangup _ p | .narrow _ p _ => some p
  | _ => none

/-- The binding requests (R3). -/
def isBindingRequest : ReqKind → Bool
  | .lineTake | .talkOn | .icmDial | .icmGroup | .icmPickup => true
  | _ => false

/-- Only the call state differs between `s` and `t`: bindings and feeds, bridges, lines, generators, the intercom,
hoots, channels, the log and the links. The settings of positions and lines stand, and so does every other field. -/
def onlyCalls (s t : State) : Prop :=
  { t with positions := s.positions, bridges := s.bridges, lines := s.lines, gens := s.gens, icm := s.icm,
           calls := s.calls, hoots := s.hoots, channels := s.channels, log := s.log, links := s.links,
           origin := s.origin, released := s.released } = s ∧
    (∀ p, (t.positions.get p).settings = (s.positions.get p).settings) ∧
    ∀ L, (t.lines.get L).settings = (s.lines.get L).settings

/-- What the loss of its highway leaves of a position's call state (R15), as POS_CLOSE does (R14): no endpoint holds
or monitors a line or stands in an intercom call, the MIC talks nowhere, the position stands in no camp queue, on no
hoot, in no call and in no waiting slot, and its intercom tap is not fed. -/
structure HoldsNothing (t : State) (p : PosId) : Prop where
  holder : ∀ e L, e ≠ .mic → t.binding p e ≠ .holder L
  monitor : ∀ L, t.binding p .ha ≠ .monitor L ∧ t.binding p .hb ≠ .monitor L
  camp : ∀ L, p ∉ (t.lines.get L).camp
  talk : ∀ b h, t.hoots.get b = some h → p ∉ h.talkers
  icm : ∀ c, t.binding p .ha ≠ .icm c ∧ t.binding p .hb ≠ .icm c
  mic : (t.positions.get p).mic = .none
  idle : t.icmState p = .idle
  waiting : t.waiting p = none
  feed : (t.positions.get p).feed = none

/-- The channel that a binding gets when it wants one: the lowest FREE one, or none while all are ASSIGNED (R156). A
channel that the same request releases is ASSIGNED as the request begins, so it is not among them. -/
def lowestFree (s : State) : Option ChanId → Prop
  | some c => s.channels.get c = none ∧ ∀ d, d < c → s.channels.get d ≠ none
  | none => ∀ d, s.channels.get d ≠ none

/-- The channel that endpoint `e` of `p` holds once it is bound (R155, R156): one that wants a channel, and held none,
gets one; any other keeps what it holds. -/
def getsChannel (s : State) (wants : Bool) (p : PosId) (e : Endpoint) (ch : Option ChanId) : Prop :=
  if wants then channelAt s p e = none ∧ lowestFree s ch else ch = channelAt s p e

/-- A channel table once the binding of `x` to bridge `b` is made: a channel that was wanted and found is ASSIGNED, with
the key of a hoot talk and the time base value, while that is VALID (R154, R156). -/
def withChannel (s : State) (wants : Bool) (ch : Option ChanId) (x : PosId × Endpoint) (key : Option KeyId)
    (b : BridgeId) (t : Tab (Option Channel) 64) : Tab (Option Channel) 64 :=
  match ch with
  | some c => if wants then t.set c (some ⟨x.1, x.2, key, b, if s.timeValid then some s.log.time else none⟩) else t
  | none => t

/-- The UNRECORDED record of a binding that wanted a channel and found none FREE (R156, R163). -/
def noteUnrecorded (wants : Bool) (ch : Option ChanId) (r : Record) (u : State) : State :=
  if wants = true ∧ ch = none then submit { r with kind := .unrecorded, cause := some .noChannel } u else u

/-- The ACTIVITY record of an event of source `x`, with the bridge that it names (R52): a position source carries its
position and endpoint, a line source its line. -/
def activityNote (x : SourceId) (started : Bool) (b : BridgeId) : Record :=
  { kind := .activity
    pos := if x.val < 144 then some (Fin.ofNat 48 (x.val / 3)) else none
    endpoint := if x.val < 144 then some (if x.val % 3 = 0 then .ha else if x.val % 3 = 1 then .hb else .mic) else none
    line := if x.val < 144 then none else some (Fin.ofNat 192 (x.val - 144))
    bridge := some b
    cause := some (if started then .start else .endOf) }

/-- The key of a holder entry on which its position's MIC talks, when it does (R132). -/
def keyTalks (s : State) (x : PosId × Endpoint) : Option KeyId :=
  match x.2 with
  | .key k => if (s.positions.get x.1).mic = .talk k then some k else none
  | _ => none

/-! ### The end of a line's call

`o` is the link whose request is being taken, if one is: a notice to a position then goes to ADM as well when that link
is ADM (R186). -/

/-- The line talk on a holder's key ends with the key's binding (R132): TALK_END, and TALK_STATE to the position. Their
fields are notes/assumptions/9.md. -/
def talkEnded (s : State) (o : Option LinkId) (L : LineId) (cause : Cause) (x : PosId × Endpoint) (u : State) : State :=
  match keyTalks s x, (s.lines.get L).bridge with
  | some k, some b => post (posRoute (s.begin o) [x.1]) (.talkState none k .none false cause)
      (submit { kind := .talkEnd, line := some L, bridge := some b, pos := some x.1, endpoint := some .mic,
                key := some k, cause := some cause } u)
  | _, _ => u

/-- One holder ends while `rest` stay (R66): its line talk first, then BINDING_LOST, unless the cause is NONE (R8), then
DISCONNECT with the channel that it held. -/
def holderEnded (s : State) (o : Option LinkId) (L : LineId) (cause : Cause) (x : PosId × Endpoint)
    (rest : List (PosId × Endpoint)) (u : State) : State :=
  let v := talkEnded s o L cause x u
  submit { kind := .disconnect, line := some L, pos := some x.1, endpoint := some x.2, channel := channelAt s x.1 x.2,
           cause := some cause, parties := some rest }
    (if cause = .none then v else post (posRoute (s.begin o) [x.1]) (.bindingLost x.1 x.2 (.holder L) cause) v)

/-- The holders end one after another, in list order (R67). -/
def holdersEnded (s : State) (o : Option LinkId) (L : LineId) (cause : Cause) :
    List (PosId × Endpoint) → State → State
  | [], u => u
  | x :: rest, u => holdersEnded s o L cause rest (holderEnded s o L cause x rest u)

/-- The monitors end one after another, in list order, each with BINDING_LOST (R65). -/
def monitorsEnded (s : State) (o : Option LinkId) (L : LineId) (cause : Cause) (u : State) : State :=
  (s.lines.get L).monitors.foldl
    (fun u x => post (posRoute (s.begin o) [x.1]) (.bindingLost x.1 x.2 (.monitor L) cause) u) u

/-- LINE_STATE of a line that nobody holds, then WATCH (R85, R153). The cause of WATCH is notes/assumptions/24.md, and
LINE_STATE before it is notes/assumptions/25.md. -/
def stateEntered (s : State) (L : LineId) (old new : LineState) (cause : Cause) (u : State) : State :=
  post (watchRoute (s.routes.get L)) (.watch L old new cause)
    (post (lineRoute s L) (.lineState L new 0 none (s.lines.get L).camp.length) u)

/-- The notices and records of a release (R67, R72), in their order: the ends of the holders, or the DISCONNECT of the
hold, the monitors with their own cause, the entry to CLEARING, and with a guard of 0 that to IDLE, or to OFFERED with
the OFFER to the head of the camp queue (R73, R75). The empty parties list of the hold's DISCONNECT is
notes/assumptions/9.md. -/
def lineEnded (s : State) (o : Option LinkId) (L : LineId) (cause monCause : Cause) : State :=
  let r := s.lines.get L
  let u := match r.holdOwner with
    | some p => if r.state = .held then
        submit { kind := .disconnect, line := some L, pos := some p, cause := some cause, parties := some [] } s else s
    | none => s
  let v := monitorsEnded s o L monCause (holdersEnded s o L cause r.holders u)
  let w := stateEntered s L r.state .clearing cause v
  if r.guardMs ≠ 0 then w
  else match r.camp with
    | [] => stateEntered s L .clearing .idle .guardEnd w
    | q :: _ => post (posRoute (s.begin o) [q]) (.offer L r.offerS) (stateEntered s L .clearing .offered .guardEnd w)

/-- The bindings in `gone`, and a MIC that talks on a key among them, are NONE; every other stands, and every feed. -/
def unbound (s t : State) (gone : List (PosId × Endpoint)) : Prop :=
  (∀ p e, t.binding p e =
    if (p, e) ∈ gone ∨ e = .mic ∧ ∃ x ∈ gone, x.1 = p ∧ (keyTalks s x).isSome then .none else s.binding p e) ∧
  ∀ p, (t.positions.get p).feed = (s.positions.get p).feed

/-- The channels that the endpoints in `gone` held are FREE; every other stands (R161). -/
def unassigned (s t : State) (gone : List (PosId × Endpoint)) : Prop :=
  ∀ c, t.channels.get c = if ∃ x ∈ gone, channelAt s x.1 x.2 = some c then none else s.channels.get c

/-- The CONFERENCE entry of a line's source has left a bridge; a bridge without one stands (R26). -/
def unconferred (s t : State) (L : LineId) (d : BridgeId) : Prop :=
  if (s.bridges.get d).contributors.any (fun c => c.source = lineSource L && c.origin = .conference) then
    (t.bridges.get d).use = (s.bridges.get d).use ∧
      (t.bridges.get d).contributors = (s.bridges.get d).contributors.filter fun c => c.source ≠ lineSource L
  else t.bridges.get d = s.bridges.get d

/-- A line in a call whose holders and monitors hold and monitor it by their bindings, each once (R57, R64), or on hold
(R69); a ring is pending only while a line is CLEARING (R57). -/
structure InCall (s : State) (L : LineId) : Prop where
  state : (s.lines.get L).state = .connected ∨
    (s.lines.get L).state = .held ∧ (s.lines.get L).holders = [] ∧ (s.lines.get L).holdOwner.isSome
  holders : ∀ x ∈ (s.lines.get L).holders, x.2 ≠ .mic ∧ s.binding x.1 x.2 = .holder L
  monitors : ∀ x ∈ (s.lines.get L).monitors, (x.2 = .ha ∨ x.2 = .hb) ∧ s.binding x.1 x.2 = .monitor L
  once : (s.lines.get L).holders.Nodup ∧ (s.lines.get L).monitors.Nodup
  pending : (s.lines.get L).pendingRing = false

/-- A line is released with a cause (R66, R67, R72): every holder and monitor is unbound and every channel of theirs
FREE, or the hold is gone; its CONFERENCE entries have left; its bridge is FREE; sustained presence stops; it is in
CLEARING with its GUARD timer, or with a guard of 0 IDLE, or OFFERED to the head of its camp queue; the notices and
records are those of `lineEnded`. Nothing else changes. -/
structure Released (s t : State) (o : Option LinkId) (L : LineId) (cause monCause : Cause) : Prop where
  line : t.lines = s.lines.modify L fun r => { r with
    state := if r.guardMs ≠ 0 then .clearing else if r.camp = [] then .idle else .offered
    holders := []
    monitors := []
    holdOwner := none
    bridge := none
    farPresent := false
    timer := if r.guardMs ≠ 0 then some ⟨.guard, r.guardMs⟩
      else if r.camp = [] then none else some ⟨.offer, 1000 * r.offerS⟩ }
  presence : t.gens = s.gens.modify L fun g => { g with sustained := false }
  bindings : unbound s t ((s.lines.get L).holders ++ (s.lines.get L).monitors)
  channels : unassigned s t (s.lines.get L).holders
  freed : ∀ b, (s.lines.get L).bridge = some b → t.bridges.get b = Bridge.reset
  bridges : ∀ d, (s.lines.get L).bridge ≠ some d → unconferred s t L d
  log : t.log = (lineEnded s o L cause monCause).log
  notices : noNotice (lineEnded s o L cause monCause) t
  calls : t.calls = s.calls ∧ t.icm = s.icm ∧ t.hoots = s.hoots
  rest : onlyCalls s t

/-- A member of the new set that the old one lacks (R144). -/
def widens (old new : Perm) : Prop :=
  new.appearance &&& ~~~old.appearance ≠ 0#192 ∨ new.monitor &&& ~~~old.monitor ≠ 0#192 ∨
    new.listen &&& ~~~old.listen ≠ 0#96 ∨ new.talk &&& ~~~old.talk ≠ 0#96 ∨ (new.icm = true ∧ old.icm = false)

/-- Every camp queue holds only positions whose appearance set contains its line (R145). -/
def CampsPermitted (s : State) : Prop := ∀ L p, p ∈ (s.lines.get L).camp → s.appears p L = true

/-- `t` is `s` but for its links, and for the model's own record of which request is being taken. -/
def onlyLinks (s t : State) : Prop :=
  { t with links := s.links, origin := s.origin, released := s.released } = s

end Sys2Proof.Machine
end

