-- ==== Sys2Proof/Certificates/Slice0/Obligations.lean ====
section
/-! DEFINITION. The claims about the GV48, for the provers: one `def Obligations.<Name> : Prop` each. -/

open Sys2Proof Sys2Proof.Machine

/-! ## The machine as a whole -/

/-- A step takes the command at the front of the queue and runs it on the state whose queue is the rest; on an
empty queue it idles (notes/assumptions/1.md). -/
def Obligations.StepTakesFront : Prop :=
  (∀ (s : State) c rest, s.pending = c :: rest → step s = exec c { s with pending := rest }) ∧
    ∀ s : State, s.pending = [] → step s = .next s

/-- Every command has an effect in every state: none faults, none is refused, and no run ever stops. -/
def Obligations.NothingStops : Prop := (∀ c s, completes c s) ∧ ∀ s, runsSafely s

/-- POWER_ON and RESET take every state to the power-on values (R196), in which the invariants hold; the values are
those that each chapter gives: R2, R18, R43, R55, R89, R141, R166, R179, R194. Every highway output drives 0. The
commands that wait, and the count of free choices, are the model's and stand (notes/assumptions/20.md). -/
def Obligations.PowerOnValues : Prop :=
  let r := State.reset
  (∀ s : State, ∃ t, exec .powerOn s = .next t ∧ exec .reset s = .next t ∧
    t = { State.reset with pending := s.pending, drawn := s.drawn }) ∧
  LinksOk r ∧ LogOk r.log ∧ PoolOk r ∧ HootsOk r ∧ CampsOk r ∧ CampsPermitted r ∧
  (∀ p, let x := r.positions.get p
    x.isOpen = false ∧ (∀ e, x.binding e = .none) ∧ x.feed = none ∧ x.ea = 1024 ∧ x.eb = 1024 ∧ x.icmT = 1024 ∧
    x.icmSide = .l ∧ x.gainHA = 1024 ∧ x.gainHB = 1024 ∧ x.gainMIC = 1024 ∧ x.duck = 3 ∧
    (∀ k, (x.keys.get k).level = 1024 ∧ (x.keys.get k).priority = false ∧
      (x.keys.get k).side = if k.val < 4 then .l else .r) ∧
    r.icm.get p = ⟨.idle, none⟩ ∧ r.perms.get p = ⟨0#192, 0#192, 0#96, 0#96, false⟩) ∧
  (∀ b, (r.bridges.get b).use = .free ∧ (r.bridges.get b).contributors = [] ∧ (r.bridges.get b).idle = none ∧
    (r.bridges.get b).active = false ∧ (r.bridges.get b).period = 0 ∧ r.hoots.get b = none ∧ r.calls.get b = none) ∧
  (∀ L, let x := r.lines.get L
    x.ltype = .none ∧ x.state = .disabled ∧ x.privacy = .single ∧ x.policy = .none ∧ x.holders = [] ∧
    x.monitors = [] ∧ x.camp = [] ∧ x.holdOwner = none ∧ x.bridge = none ∧ x.timer = none ∧ x.guardMs = 300 ∧
    x.offerS = 4 ∧ x.recallS = 0 ∧ x.alertS = 20 ∧ x.autoReleaseS = 0 ∧ x.reload = .both ∧
    x.sig = ⟨200, 100, 40, 300, 1000⟩ ∧ x.watch = false ∧ r.routes.get L = .none ∧
    (r.rings.get L).state = .quiet ∧ r.gens.get L = ⟨0, false⟩) ∧
  (∀ x, r.detectors.get x = ⟨0, false, 0, 0⟩) ∧ r.vadLine = ⟨600, 400, 8, 400⟩ ∧ r.vadPos = ⟨600, 400, 8, 400⟩ ∧
  (∀ g, r.groups.get g = []) ∧ r.icmAlertS = 15 ∧ r.icmRecord = false ∧ r.timeValid = false ∧
  (∀ c, r.channels.get c = none) ∧ (∀ l, r.latch l = none) ∧
  r.log.queue = [] ∧ r.log.seq = 0#32 ∧ r.log.time = 0#32 ∧ r.log.hw = 768 ∧ r.log.lw = 512 ∧
  r.log.level = .normal ∧ r.log.episode = none ∧ r.log.captured = none ∧ r.log.totalLost = 0 ∧ r.log.lastBatch = [] ∧
  (∀ l, let k := r.link l
    k.tx = .idle ∧ k.frame = [] ∧ k.queue = [] ∧ k.mask = BitVec.allOnes 18 ∧ k.resync = none ∧ k.dropped = 0 ∧
    k.attention = false) ∧
  (∀ n, (r.posHw.get n).up = false ∧ (r.lineHw.get n).up = false) ∧ r.syncPresent = false ∧
  (∀ k, r.clips.get k = 0 ∧ r.sinkOut.get k = 0#16) ∧ r.presenceOut = 0#192 ∧
  (∀ n k, posSlotOut r n k = 0#16 ∧ lineSlotOut r n k = 0#16) ∧ ∀ k, recSlotOut r k = 0#16

/-! ## Control links: frames and transactions -/

/-- The frame of every well-formed request reads back as that request (R190). -/
def Obligations.DecodeEncode : Prop :=
  ∀ (i : Instr) (l : LinkId), i.wellFormed = true → i.link? = some l →
    ∃ frame, encodeFrame i = some frame ∧ 2 ≤ frame.length ∧ frame.length ≤ 62 ∧ decodeFrame l frame = some i

/-- CHIP_SELECT_ASSERTED starts a request frame on a link in IDLE and changes nothing otherwise.
CHIP_SELECT_DEASSERTED takes the link to IDLE: a partial frame is discarded, and a NOTICE_READ whose response was not
clocked out to its last byte costs the link a READ_LOST (R180, R184). No other link is concerned. Bytes clocked
outside REQUEST: four fillers 0xFF, the start byte 0x5A, the response byte by byte, then 0xFF while TRAILING; whatever
the master sends, nothing else of the part changes (R180). In IDLE nothing is clocked. -/
def Obligations.TransactionTaken : Prop :=
  (∀ (l : LinkId) (s : State), let k := s.link l
    (∃ t, exec (.chipSelectAsserted l) s = .next t ∧ onlyLinks s t ∧ (∀ m, m ≠ l → t.link m = s.link m) ∧
      t.link l = if k.tx = .idle then { k with tx := .request, frame := [], sdo := some 0xFF#8 } else k) ∧
    ∃ t, exec (.chipSelectDeasserted l) s = .next t ∧ onlyLinks s t ∧ (∀ m, m ≠ l → t.link m = s.link m) ∧
      (k.tx = .idle → t.link l = k) ∧
      (k.tx ≠ .idle → (t.link l).tx = .idle ∧ (t.link l).sdo = none ∧ (t.link l).response = []) ∧
      (k.tx = .request → (t.link l).frame = [] ∧ sameNotices k (t.link l)) ∧
      (k.tx = .trailing ∨ k.readCount = 0 → sameNotices k (t.link l)) ∧
      ((k.tx = .response ∨ ∃ n, k.tx = .wait n) → 1 ≤ k.readCount → (t.link l).mask = k.mask ∧
        if k.queue.length < 64 ∧ k.resync = none then
          (t.link l).queue = k.queue ++ [.resync .readLost k.readCount] ∧ (t.link l).attention = true ∧
          (t.link l).resync = none ∧ (t.link l).dropped = k.dropped
        else
          (t.link l).queue = k.queue ∧ (t.link l).attention = k.attention ∧
          (t.link l).dropped = min (k.dropped + k.readCount) 65535 ∧
          (t.link l).resync = some (k.resync.getD .readLost))) ∧
  (∀ (l : LinkId) (byte : Byte) (s : State), (s.link l).tx ≠ .request →
    ∃ t, exec (.byteClocked l byte) s = .next t ∧ onlyLinks s t ∧ (∀ m, m ≠ l → t.link m = s.link m) ∧
      sameNotices (s.link l) (t.link l) ∧ ((s.link l).tx = .idle → t.link l = s.link l) ∧
      ((s.link l).tx = .trailing → (t.link l).tx = .trailing ∧ (t.link l).sdo = some 0xFF#8)) ∧
  ∀ (l : LinkId) (s : State) (xs : List Byte), (s.link l).tx = .wait 0 → (s.link l).response ≠ [] →
    xs.length = 5 + (s.link l).response.length →
    (clockBytes l xs s).1 = ([0xFF#8, 0xFF#8, 0xFF#8, 0xFF#8, 0x5A#8] ++ (s.link l).response).map some ∧
      ((clockBytes l xs s).2.link l).tx = .trailing ∧ onlyLinks s (clockBytes l xs s).2 ∧
      noNotice s (clockBytes l xs s).2

/-- A byte received in REQUEST joins the frame buffer while 0xFF is driven. When 2 + length bytes have arrived, or the
length byte is above 60, the frame is taken: the command it carries runs, or the answer is MALFORMED (R180, R181). -/
def Obligations.ByteReceived : Prop :=
  ∀ (l : LinkId) (byte : Byte) (s : State), (s.link l).tx = .request →
    let frame := (s.link l).frame ++ [byte]
    let complete := 2 ≤ frame.length ∧ (60 < (frame.getD 1 0#8).toNat ∨ 2 + (frame.getD 1 0#8).toNat ≤ frame.length)
    ∃ u, onlyLinks s u ∧ (∀ m, m ≠ l → u.link m = s.link m) ∧
      u.link l = { s.link l with frame := frame, sdo := some 0xFF#8 } ∧
      (¬ complete → exec (.byteClocked l byte) s = .next u) ∧
      (complete → ∀ i, decodeFrame l frame = some i → exec (.byteClocked l byte) s = exec i u) ∧
      (complete → decodeFrame l frame = none →
        exec (.byteClocked l byte) s = exec (.malformed l (frame.headD 0#8)) u)

/-- Test 1 and 2 of R181, for every request kind: MALFORMED for a frame that names no request or whose lists are too
long, LATCHED while the link's latch is SET and the kind is not exempt. Neither changes anything but the response, and
no other link's transaction is concerned. -/
def Obligations.FrameRefused : Prop :=
  (∀ (l : LinkId) (kind : Byte) (s : State), ∃ t, exec (.malformed l kind) s = .next t ∧ onlyLinks s t ∧
    noNotice s t ∧ (∀ m, m ≠ l → t.link m = s.link m) ∧ (t.link l).tx = .wait 0 ∧
    (t.link l).response = [kind, 21#8, 0#8, 0#8]) ∧
  ∀ (i : Instr) (l : LinkId) (kind : ReqKind) (s : State), i.link? = some l → kindOf i = some kind →
    (i.wellFormed = false → ∃ t, exec i s = .next t ∧ onlyLinks s t ∧ noNotice s t ∧
      (∀ m, m ≠ l → t.link m = s.link m) ∧ answered t l kind .malformed []) ∧
    (i.wellFormed = true → (s.latch l).isSome → latchExempt kind = false →
      ∃ t, exec i s = .next t ∧ onlyLinks s t ∧ noNotice s t ∧ (∀ m, m ≠ l → t.link m = s.link m) ∧
        answered t l kind .latched [])

/-- Tests 3 and 4 of R181, for every request kind: a class that the link may not send is refused with WRONG_LINK, a
position of another PC link with NOT_PERMITTED. The latch keeps its first violation, one PERMISSION record is
submitted, no notice is sent but those that the record itself brings the recorder, and nothing else changes (R147,
R148, R149). Which of its optional fields the record carries is notes/assumptions/14.md. -/
def Obligations.ViolationLatches : Prop :=
  ∀ (i : Instr) (l : LinkId) (kind : ReqKind) (s : State), i.link? = some l → kindOf i = some kind →
    i.wellFormed = true → (s.latch l = none ∨ latchExempt kind = true) →
    ∀ r, (if maySend l kind.cls = true then outOfScope l kind (namedBy i).pos = true ∧ r = Result.notPermitted
        else r = Result.wrongLink) →
    ∃ t, exec i s = .next t ∧ answered t l kind r [] ∧
      t.latch l = some ((s.latch l).getD ⟨kind, r⟩) ∧ (∀ m, m ≠ l → t.latch m = s.latch m) ∧
      (let n := namedBy i
       let cause := if r = .wrongLink then Cause.wrongLink l else .notPermitted l
       let u := submit { kind := .permission, request := some kind, pos := n.pos, line := n.line, hoot := n.hoot,
                         cause := some cause } s
       t.log = u.log ∧ noNotice u t) ∧
      { t with links := s.links, log := s.log, latches := s.latches, origin := s.origin, released := s.released } = s

/-! ## Notices -/

/-- A notice submitted (R183): masked, dropped with resync-pending and a count, or appended at the tail; each link
takes it by itself, the attention output follows the queue (R187), and nothing else changes. -/
def Obligations.NoticeQueued : Prop :=
  ∀ (dest : LinkId → Bool) (n : Notice) (s : State),
    (∀ l, let k := s.link l
      (post dest n s).link l =
        if dest l = false ∨ (n.code ≠ 19 ∧ k.mask.getLsbD (n.code - 1) = false) then k
        else if k.resync ≠ none ∨ 64 ≤ k.queue.length then
          { k with resync := some (k.resync.getD .overflow), dropped := min (k.dropped + 1) 65535 }
        else { k with queue := k.queue ++ [n], attention := true }) ∧
    { post dest n s with links := s.links } = s

/-- NOTICE_READ (R184): k is the count asked for, between 1 and 8, or the number queued; the k oldest leave in order;
a pending RESYNC is appended when k is at least 1; the body carries k, the number now queued, and the k notices; an
attention output that followed the queue follows it still (LinksKept). That the notices stand in the body with no
count byte of their own is the model's choice, notes/assumptions/8.md. The k stands with the link until the response
is clocked out, for the READ_LOST of a cut response. NOTICE_MASK (R185) replaces the mask of the sending link, the
queue stands, and the response carries the mask as stored, RESYNC enabled; the place of each kind's bit is
notes/assumptions/10.md. -/
def Obligations.NoticeReadMask : Prop :=
  (∀ (l : LinkId) (n : Half) (s : State),
    let j := s.link l
    let k := min (max 1 (min n.toNat 8)) j.queue.length
    let queue := j.queue.drop k ++ if 1 ≤ k then (j.resync.map fun c => .resync c j.dropped).toList else []
    ∃ t, exec (.noticeRead l n) s = .next t ∧ onlyLinks s t ∧ (∀ m, m ≠ l → t.link m = s.link m) ∧
      answered t l .noticeRead .done (b2 k ++ b2 queue.length ++ (j.queue.take k).flatMap Notice.bytes) ∧
      (t.link l).queue = queue ∧ (j.attention = !j.queue.isEmpty → (t.link l).attention = !queue.isEmpty) ∧
      (t.link l).mask = j.mask ∧
      (t.link l).resync = (if 1 ≤ k then none else j.resync) ∧
      (t.link l).dropped = (if 1 ≤ k ∧ j.resync ≠ none then 0 else j.dropped) ∧
      (t.link l).readCount = k) ∧
  ∀ (l : LinkId) (mask : BitVec 24) (s : State), s.latch l = none →
    ∃ t, exec (.noticeMask l mask) s = .next t ∧ onlyLinks s t ∧ (∀ m, m ≠ l → t.link m = s.link m) ∧
      (t.link l).tx = .wait 0 ∧
      (let v : BitVec 24 := (mask &&& 0x3FFFF#24) ||| 0x40000#24
       (t.link l).response =
        [2#8, 0#8, 0#8, 3#8, v.extractLsb' 16 8, v.extractLsb' 8 8, v.extractLsb' 0 8]) ∧
      (t.link l).mask = mask.setWidth 18 ∧ (t.link l).queue = (s.link l).queue ∧
      (t.link l).resync = (s.link l).resync ∧ (t.link l).dropped = (s.link l).dropped ∧
      (t.link l).attention = (s.link l).attention

/-- LINK_RESET (R188): the link's queue empties, resync-pending and the dropped count are cleared, the mask becomes all
enabled, the body carries the number discarded; nothing else of the part changes. -/
def Obligations.LinkResetTaken : Prop :=
  ∀ (l : LinkId) (s : State), ∃ t, exec (.linkReset l) s = .next t ∧ onlyLinks s t ∧
    (∀ m, m ≠ l → t.link m = s.link m) ∧ answered t l .linkReset .done (b2 (s.link l).queue.length) ∧
    (t.link l).queue = [] ∧ (t.link l).resync = none ∧ (t.link l).dropped = 0 ∧
    (t.link l).mask = BitVec.allOnes 18 ∧ (t.link l).attention = false

/-- QUERY (R182): RANGE for a target code above 6 or an id outside the target's range; WRONG_KIND for a HOOT or CALL
target on whose bridge no hoot or no call stands; otherwise DONE with the object's body, written out here for a hoot
(R140) and a call (R119). It changes nothing but the clip counts that its clear option zeroes (R33). The forms of the
bodies are notes/assumptions/8.md. -/
def Obligations.QueryReadsOnly : Prop :=
  ∀ (l : LinkId) (target id option : Byte) (s : State),
    ∃ t, exec (.query l target id option) s = .next t ∧ noNotice s t ∧
      { t with links := s.links, clips := s.clips, origin := s.origin, released := s.released } = s ∧
      (let n := id.toNat
       7 ≤ target.toNat ∨ (target = 0#8 ∧ 192 ≤ n) ∨ ((target = 1#8 ∨ target = 3#8 ∨ target = 4#8) ∧ 96 ≤ n) ∨
          (target = 2#8 ∧ 48 ≤ n) ∨ (target = 5#8 ∧ 64 ≤ n) →
        answered t l .query .range []) ∧
      (target = 6#8 → answered t l .query .done (recMapBody s)) ∧
      (target = 0#8 → ∀ L : LineId, id = idByte L → answered t l .query .done (lineBody s L)) ∧
      (target = 2#8 → ∀ p : PosId, id = idByte p → answered t l .query .done (posBody s p)) ∧
      (target = 5#8 → ∀ c : ChanId, id = idByte c → answered t l .query .done (bChannel s (s.channels.get c))) ∧
      (∀ b : BridgeId, id = idByte b →
        let shift (x : SourceId) : Nat :=
          (((s.bridges.get b).contributors.find? fun c => c.source = x).map (·.shift)).getD 0
        let heard : List (PosId × KeyId) := (ids 48).flatMap fun p =>
          ((ids 8).filter fun k => s.binding p (.key k) = .listen b).map fun k => (p, k)
        (target = 1#8 → answered t l .query .done (bridgeBody s b)) ∧
        (target = 3#8 → s.hoots.get b = none → answered t l .query .wrongKind []) ∧
        (target = 4#8 → s.calls.get b = none → answered t l .query .wrongKind []) ∧
        (target = 3#8 → ∀ h, s.hoots.get b = some h → answered t l .query .done (
          b2 h.slots ++ b2 h.talkIdleS ++ b2 h.quietS ++ b1 h.policy.code ++ b2 h.shift ++ bYes h.record ++
          bList (fun x => b1 x.line.val ++ b2 x.gain ++ [if x.joined then 0#8 else 1#8] ++
            b2 (shift (lineSource x.line)) ++ bYes (s.active (lineSource x.line))) h.legs ++
          bList (fun g => b1 g.pos.val ++ b1 g.key.val ++ bOpt ((channelAt s g.pos .mic).map (·.val)) ++
            b2 (shift (micSource g.pos)) ++ bYes (s.active (micSource g.pos)) ++
            (match g.timer with
              | some ms => b4 ms
              | none => if h.talkIdleS = 0 then List.replicate 4 0xFF#8 else b4 (1000 * h.talkIdleS))) h.granted ++
          bList (fun x => [idByte x.1, idByte x.2]) h.queue ++ bYes h.clashing ++ [if h.live then 0#8 else 1#8] ++
          bList (fun x => [idByte x.1, idByte x.2]) heard)) ∧
        (target = 4#8 → ∀ r, s.calls.get b = some r → answered t l .query .done (
          b1 r.mode.kindCode ++ b1 r.mode.code ++ bOpt (r.group.map (·.val)) ++ [idByte r.caller.1, endByte r.caller.2] ++
          bList (fun x => [idByte x.pos, if x.waiting then 1#8 else 0#8]) r.presented ++
          bList (fun x => [idByte x.1, endByte x.2] ++ bOpt ((channelAt s x.1 x.2).map (·.val))) r.parties ++
          bYes r.active ++ (match r.alert with
            | some ms => 0#8 :: b4 ms
            | none => [1#8, 0xFF#8, 0xFF#8, 0xFF#8, 0xFF#8])))) ∧
      ∀ k : SinkId, t.clips.get k =
        if option.getLsbD 0 = true ∧ ((target = 2#8 ∧ id.toNat < 48 ∧ k.val / 4 = id.toNat ∧ k.val < 192) ∨
          (target = 0#8 ∧ k.val = 192 + id.toNat)) then 0 else s.clips.get k

/-- LATCH_CLEAR (R151): the sending link's own latch, on ADM any link's, is cleared with a PERMISSION record when SET;
NONE and a CLEAR latch change nothing and send no notice; the body carries the target's first violation (0xFF twice
for none: notes/assumptions/8.md) and the latch states, all six on ADM. Another link's name on PC or REC is a
violation. The fields of the PERMISSION records, one of a cleared latch with its cause alone, are
notes/assumptions/14.md. -/
def Obligations.LatchClearTaken : Prop :=
  (∀ (l m : LinkId) (target : Byte) (s : State),
    (target = 0#8 ∧ m = l ∨ target.toNat = 2 + (linkIdx m).val ∧ (l = .adm ∨ m = l)) →
    ∃ t, exec (.latchClear l target) s = .next t ∧ t.latch m = none ∧ (∀ k, k ≠ m → t.latch k = s.latch k) ∧
      answered t l .latchClear .done (bViolation (s.latch m) ++ bLatches t l) ∧
      (let u := if (s.latch m).isSome then submit { kind := .permission, cause := some (.latchCleared m) } s else s
       t.log = u.log ∧ noNotice u t) ∧
      { t with links := s.links, log := s.log, latches := s.latches, origin := s.origin, released := s.released } = s) ∧
  (∀ (l : LinkId) (s : State), ∃ t, exec (.latchClear l 1#8) s = .next t ∧ onlyLinks s t ∧ noNotice s t ∧
    answered t l .latchClear .done ([0xFF#8, 0xFF#8] ++ bLatches s l)) ∧
  ∀ (l m : LinkId) (target : Byte) (s : State), target.toNat = 2 + (linkIdx m).val → l ≠ .adm → m ≠ l →
    ∃ t, exec (.latchClear l target) s = .next t ∧ answered t l .latchClear .wrongLink [] ∧
      t.latch l = some ((s.latch l).getD ⟨.latchClear, .wrongLink⟩) ∧ (∀ k, k ≠ l → t.latch k = s.latch k) ∧
      (let u := submit { kind := .permission, request := some .latchClear, cause := some (.wrongLink l) } s
       t.log = u.log ∧ noNotice u t) ∧
      { t with links := s.links, log := s.log, latches := s.latches, origin := s.origin, released := s.released } = s

/-! ## Invariants of every step -/

/-- Every step keeps the link records as R179, R180 and R187 say. -/
def Obligations.LinksKept : Prop := ∀ s t, LinksOk s → step s = .next t → LinksOk t

/-- Every step keeps the detail log as R166, R168, R169, R171 and R176 say: capacity, watermarks, the state its fill
allows, the loss episode, and a numbering without a hole but for the losses that GAP records report. -/
def Obligations.LogLawKept : Prop := ∀ s t, LogOk s.log → step s = .next t → LogOk t.log

/-- Every step keeps the bridge records as R22, R24, R37 and R39 say. -/
def Obligations.PoolKept : Prop := ∀ s t, PoolOk s → step s = .next t → PoolOk t

/-- Every step keeps the hoot records as R120 says, and the camp queues as R63 says. -/
def Obligations.QueuesKept : Prop :=
  (∀ s t, HootsOk s → step s = .next t → HootsOk t) ∧ ∀ s t, CampsOk s → step s = .next t → CampsOk t

/-- Every camp queue holds only positions whose appearance set contains its line: every step keeps it (R145). -/
def Obligations.CampsPermittedKept : Prop :=
  ∀ s t, CampsPermitted s → step s = .next t → CampsPermitted t

/-- No command but a GRANT on ADM, or the byte on ADM that completes the frame of one, widens a permission set (R141,
R144, R147); and a violation latch once SET keeps its first violation until a LATCH_CLEAR, or the byte that completes
the frame of one, or a reset clears it (R149). -/
def Obligations.PermsNeverWiden : Prop :=
  (∀ c s t p, exec c s = .next t → widens (s.perms.get p) (t.perms.get p) →
    ∃ x f, c = .grant .adm x f ∨ ∃ b, c = .byteClocked .adm b ∧ (s.link .adm).tx = .request ∧
      decodeFrame .adm ((s.link .adm).frame ++ [b]) = some (.grant .adm x f)) ∧
  ∀ c s t l v, exec c s = .next t → s.latch l = some v → t.latch l ≠ some v →
    t.latch l = none ∧ (c = .powerOn ∨ c = .reset ∨ ∃ m x, c = .latchClear m x ∨ ∃ b, c = .byteClocked m b ∧
      (s.link m).tx = .request ∧ decodeFrame m ((s.link m).frame ++ [b]) = some (.latchClear m x))

/-! ## Positions -/

/-- The tests of R3 for every position request: RANGE for a number above 47, CLOSED but for POS_OPEN, FACILITY for a
binding request while the position's highway is DOWN; a request refused so changes nothing. POS_OPEN (R4): the
position becomes OPEN, the body carries OPEN 0 and the highway UP 0 or DOWN 1, nothing else changes; it is taken while
the highway is DOWN. The codes OPEN 0, UP 0 and DOWN 1 of that body are the model's choice, notes/assumptions/8.md. -/
def Obligations.PositionTests : Prop :=
  (∀ (i : Instr) (l : LinkId) (kind : ReqKind) (b : Byte) (s : State), i.link? = some l → kindOf i = some kind →
    positionByte i = some b → i.wellFormed = true → mayTake s l kind (posOf b) →
    (48 ≤ b.toNat → ∃ t, exec i s = .next t ∧ onlyLinks s t ∧ noNotice s t ∧ answered t l kind .range []) ∧
    ∀ p : PosId, posOf b = some p →
      ((s.positions.get p).isOpen = false → kind ≠ .posOpen →
        ∃ t, exec i s = .next t ∧ onlyLinks s t ∧ noNotice s t ∧ answered t l kind .closed []) ∧
      ((s.positions.get p).isOpen = true → s.posUp p = false → isBindingRequest kind = true →
        ∃ t, exec i s = .next t ∧ onlyLinks s t ∧ noNotice s t ∧ answered t l kind .facility [])) ∧
  ∀ (l : LinkId) (p : PosId) (s : State), mayTake s l .posOpen (some p) →
    ∃ t, exec (.posOpen l (idByte p)) s = .next t ∧ noNotice s t ∧
      answered t l .posOpen .done [0#8, if s.posUp p then 0#8 else 1#8] ∧
      { t with links := s.links, positions := s.positions, origin := s.origin, released := s.released } = s ∧
      t.positions = s.positions.modify p fun r => { r with isOpen := true }

/-- POS_CLOSE (R14): the position becomes CLOSED. It then holds no line and no monitor, stands in no intercom call, in
no camp queue, on no hoot and in no waiting slot, its MIC talks nowhere, it owns no hold and is fed no intercom tap.
Settings, permissions and every table outside the call state stand. A line that it alone held, when that is all that
ends, is released with cause CLOSED, and its monitors with MONITOR_END, as `Released` says (R65 to R67). The body
counts what ended (notes/assumptions/17.md). That the monitors' cause is MONITOR_END is notes/assumptions/22.md, the
causes of WATCH are notes/assumptions/24.md, and LINE_STATE before WATCH is notes/assumptions/25.md. -/
def Obligations.PosCloseTaken : Prop :=
  ∀ (l : LinkId) (p : PosId) (s : State), HootsOk s → mayTake s l .posClose (some p) →
    (s.positions.get p).isOpen = true →
    ∃ t, exec (.posClose l (idByte p)) s = .next t ∧ answered t l .posClose .done (endedCounts p s t) ∧
      (t.positions.get p).isOpen = false ∧ HoldsNothing t p ∧ (∀ L, (t.lines.get L).holdOwner ≠ some p) ∧
      let open' : State := { t with positions := t.positions.modify p fun r => { r with isOpen := true } }
      onlyCalls s open' ∧
      ∀ (e : Endpoint) (L : LineId), InCall s L → (s.lines.get L).holders = [(p, e)] →
        (∀ x ∈ (s.lines.get L).monitors, x.1 ≠ p) → (s.positions.get p).mic = .none → (s.positions.get p).feed = none →
        (∀ f, f ≠ e → (∀ M, s.binding p f ≠ .holder M ∧ s.binding p f ≠ .monitor M) ∧ ∀ c, s.binding p f ≠ .icm c) →
        s.icmState p = .idle → s.waiting p = none → (∀ M, p ∉ (s.lines.get M).camp ∧ (s.lines.get M).holdOwner ≠ some p) →
        (∀ b h, s.hoots.get b = some h → p ∉ h.talkers) → Released s open' (some l) L .closed .monitorEnd

/-- KEY_SET (R10): after its checks, the key has the binding asked for, T clamped to 1024, the side and the priority;
the response shows them; the other keys and every setting of this and every other position stand. A talk on the hoot
that the key leaves ends with it; of other positions, the one that is promoted then gets its MIC (R131), and nothing but
that hoot, its bridge, MIC uses, channels, the log and the links changes. Where the key leaves no talk behind, nothing
else changes. That the body gives the binding in the two bytes of R191 is the model's choice, notes/assumptions/8.md. -/
def Obligations.KeySetTaken : Prop :=
  ∀ (l : LinkId) (p : PosId) (k : KeyId) (code bridge : Byte) (level : Half) (side priority : Byte) (arg : KeyArg)
    (sd : Side) (pr : Bool) (s : State), mayTake s l .keySet (some p) → (s.positions.get p).isOpen = true →
    keyArgOf code bridge = some arg → sideOf side = some sd → yesNoOf priority = some pr →
    let old := s.binding p (.key k)
    (arg = .keep ∨ ∀ L, old ≠ .holder L) →
    (∀ b, arg = .hoot b → (s.bridges.get b).use = .hoot ∧ s.mayListen p b = true ∧
      ∀ j, j ≠ k → s.binding p (.key j) ≠ .listen b) →
    let new : Binding := match arg with | .keep => old | .none => .none | .hoot b => .listen b
    let key : Key := ⟨new, min level.toNat 1024, sd, pr⟩
    ∃ t, exec (.keySet l (idByte p) (idByte k) code bridge level side priority) s = .next t ∧
      answered t l .keySet .done (bKey key) ∧ (t.positions.get p).keys.get k = key ∧
      (∀ j, j ≠ k → (t.positions.get p).keys.get j = (s.positions.get p).keys.get j) ∧
      { t.positions.get p with mic := (s.positions.get p).mic } =
        { s.positions.get p with keys := (s.positions.get p).keys.set k key } ∧
      (∀ q, q ≠ p → { t.positions.get q with mic := (s.positions.get q).mic } = s.positions.get q) ∧
      (∀ d, old ≠ .listen d → t.bridges.get d = s.bridges.get d ∧ t.hoots.get d = s.hoots.get d) ∧
      { t with positions := s.positions, bridges := s.bridges, hoots := s.hoots, channels := s.channels, log := s.log,
               links := s.links, origin := s.origin, released := s.released } = s ∧
      (HootsOk s → new ≠ old → ∀ b h, old = .listen b → t.hoots.get b = some h → p ∉ h.talkers) ∧
      ((new = old ∨ (∀ b, old ≠ .listen b) ∨ ∃ b h, old = .listen b ∧ s.hoots.get b = some h ∧ p ∉ h.talkers) →
        noNotice s t ∧
        { t with positions := s.positions, links := s.links, origin := s.origin, released := s.released } = s ∧
        t.positions = s.positions.modify p fun r => { r with keys := r.keys.set k key })

/-- LEVEL_SET (R12, R13): each present field is stored, clamped; each present gain becomes the gain of its source
wherever it contributes, with the reduction shift unchanged; the response shows every field as stored. -/
def Obligations.LevelSetTaken : Prop :=
  ∀ (l : LinkId) (p : PosId) (f : LevelFields) (s : State), mayTake s l .levelSet (some p) →
    (s.positions.get p).isOpen = true → (∀ b, f.icmSide = some b → b = 0#8 ∨ b = 1#8) →
    let top (n : Nat) (old : Nat) (v : Option Half) : Nat := match v with | some x => min x.toNat n | none => old
    let r := s.positions.get p
    let new : Position := { r with
      ea := top 1024 r.ea f.ea
      eb := top 1024 r.eb f.eb
      icmT := top 1024 r.icmT f.icmT
      icmSide := match f.icmSide with | some b => if b = 0#8 then .l else .r | none => r.icmSide
      gainHA := top 4095 r.gainHA f.gainHA
      gainHB := top 4095 r.gainHB f.gainHB
      gainMIC := top 4095 r.gainMIC f.gainMIC
      duck := top 10 r.duck f.duck }
    ∃ t, exec (.levelSet l (idByte p) f) s = .next t ∧ noNotice s t ∧
      answered t l .levelSet .done (b2 new.ea ++ b2 new.eb ++ b2 new.icmT ++ b1 new.icmSide.code ++ b2 new.gainHA ++
        b2 new.gainHB ++ b2 new.gainMIC ++ b2 new.duck) ∧
      { t with positions := s.positions, bridges := s.bridges, links := s.links, origin := s.origin,
               released := s.released } = s ∧
      t.positions = s.positions.set p new ∧
      ∀ b, t.bridges.get b = { s.bridges.get b with
        contributors := (s.bridges.get b).contributors.map fun c => { c with
          gain := if c.source = posSource p 0 ∧ f.gainHA ≠ none then new.gainHA
            else if c.source = posSource p 1 ∧ f.gainHB ≠ none then new.gainHB
            else if c.source = posSource p 2 ∧ f.gainMIC ≠ none then new.gainMIC
            else c.gain } }

/-! ## Permissions -/

/-- GRANT and NARROW (R143 to R146): the present parts are stored; what a removed member allowed ends; where nothing
is removed, one PERMISSION record for each part that changed is all that follows. The two counts of the response are
notes/assumptions/17.md. -/
def Obligations.PermitsTaken : Prop :=
  ∀ (c : Instr) (l : LinkId) (kind : ReqKind) (p : PosId) (f : PermParts) (s : State), HootsOk s →
    (c = .grant l (idByte p) f ∧ kind = .grant ∨
      c = .narrow l (idByte p) f ∧ kind = .narrow ∧ (s.positions.get p).isOpen = true ∧
        ¬ widens (s.perms.get p) (newPerm f (s.perms.get p))) →
    mayTake s l kind (some p) → f.fits = true → (∀ b, f.icm = some b → b = 0#8 ∨ b = 1#8) →
    let old := s.perms.get p
    let new := newPerm f old
    ∃ t, exec c s = .next t ∧ answered t l kind .done (bPerm new ++ endedCounts p s t) ∧
      t.perms = s.perms.set p new ∧ onlyCalls s { t with perms := s.perms } ∧
      (∀ L : LineId, old.appearance.getLsbD L.val = true → new.appearance.getLsbD L.val = false →
        p ∉ (t.lines.get L).camp ∧ (t.lines.get L).holdOwner ≠ some p) ∧
      (∀ L : LineId, old.monitor.getLsbD L.val = true → new.monitor.getLsbD L.val = false →
        t.binding p .ha ≠ .monitor L ∧ t.binding p .hb ≠ .monitor L) ∧
      (∀ b : BridgeId, old.talk.getLsbD b.val = true → new.talk.getLsbD b.val = false →
        ∀ h, t.hoots.get b = some h → p ∉ h.talkers) ∧
      (∀ b : BridgeId, old.listen.getLsbD b.val = true → new.listen.getLsbD b.val = false →
        (∀ h, t.hoots.get b = some h → p ∉ h.talkers) ∧
        ∀ k, (s.positions.get p).keyOn b = some k → t.binding p (.key k) = .none) ∧
      (old.icm = true → new.icm = false → t.waiting p = none ∧ ∀ c, t.icmState p ≠ .alerted c) ∧
      (¬ widens new old →
        let rec1 (x : Cause) : Record := { kind := .permission, pos := some p, request := some kind, cause := some x }
        let u := s |> (if old.icm ≠ new.icm then submit (rec1 .intercom) else id)
          |> (if old.talk ≠ new.talk then submit (rec1 .talk) else id)
          |> (if old.listen ≠ new.listen then submit (rec1 .listen) else id)
          |> (if old.monitor ≠ new.monitor then submit (rec1 .monitor) else id)
          |> (if old.appearance ≠ new.appearance then submit (rec1 .appearance) else id)
        noNotice u t ∧ t.log = u.log ∧
        { t with perms := s.perms, links := s.links, log := s.log, origin := s.origin, released := s.released } = s)

/-- The refusals of R149 that the owner blocks make: NOT_PERMITTED of LINE_TAKE, KEY_SET, TALK_ON, ICM_DIAL, ICM_GROUP
and NARROW, on every endpoint, side, priority and mode that they name, latches the link and writes the PERMISSION
record with the position, and the line or the hoot (notes/assumptions/14.md); no notice is sent but those that the
record itself brings the recorder, and nothing else changes. -/
def Obligations.OwnerViolations : Prop :=
  ∀ (i : Instr) (l : LinkId) (kind : ReqKind) (p : PosId) (line : Option LineId) (hoot : Option BridgeId) (s : State),
    mayTake s l kind (some p) → (s.positions.get p).isOpen = true → s.posUp p = true →
    ((∃ (L : LineId) (e : Endpoint) (fl : Byte), i = .lineTake l (idByte p) (endByte e) (idByte L) fl ∧
        kind = .lineTake ∧ line = some L ∧ hoot = none ∧
        ((s.lines.get L).ltype = .mr ∨ (s.lines.get L).ltype = .ar) ∧ e ≠ .mic ∧
        if fl.getLsbD 2 then (e = .ha ∨ e = .hb) ∧ s.mayMonitor p L = false else s.appears p L = false) ∨
      (∃ (k : KeyId) (b : BridgeId) (lv : Half) (side priority : Byte),
        i = .keySet l (idByte p) (idByte k) 2#8 (idByte b) lv side priority ∧ side.toNat ≤ 1 ∧ priority.toNat ≤ 1 ∧
        kind = .keySet ∧ line = none ∧ hoot = some b ∧ (s.bridges.get b).use = .hoot ∧ s.mayListen p b = false) ∨
      (∃ (k : KeyId) (b : BridgeId), i = .talkOn l (idByte p) (idByte k) ∧ kind = .talkOn ∧ line = none ∧
        hoot = some b ∧ s.binding p (.key k) = .listen b ∧ (s.hoots.get b).isSome ∧ s.mayTalk p b = false) ∨
      (∃ (e : Endpoint) (q : PosId) (mode : Byte), i = .icmDial l (idByte p) (endByte e) (idByte q) mode ∧
        (e = .ha ∨ e = .hb ∨ e = .mic) ∧ mode.toNat ≤ 1 ∧ kind = .icmDial ∧ line = none ∧ hoot = none ∧
        (s.perms.get p).icm = false) ∨
      (∃ (e : Endpoint) (g : GroupId) (mode : Byte), i = .icmGroup l (idByte p) (endByte e) (idByte g) mode ∧
        (e = .ha ∨ e = .hb ∨ e = .mic) ∧ mode.toNat ≤ 1 ∧ kind = .icmGroup ∧ line = none ∧ hoot = none ∧
        (s.perms.get p).icm = false) ∨
      (∃ f : PermParts, i = .narrow l (idByte p) f ∧ kind = .narrow ∧ line = none ∧ hoot = none ∧ f.fits = true ∧
        (∀ b, f.icm = some b → b = 0#8 ∨ b = 1#8) ∧ widens (s.perms.get p) (newPerm f (s.perms.get p)))) →
    ∃ t, exec i s = .next t ∧ answered t l kind .notPermitted [] ∧
      t.latch l = some ((s.latch l).getD ⟨kind, .notPermitted⟩) ∧ (∀ m, m ≠ l → t.latch m = s.latch m) ∧
      (let u := submit { kind := .permission, request := some kind, pos := some p, line := line, hoot := hoot,
                         cause := some (.notPermitted l) } s
       t.log = u.log ∧ noNotice u t) ∧
      { t with links := s.links, log := s.log, latches := s.latches, origin := s.origin, released := s.released } = s

/-! ## Configuration on ADM -/

/-- VAD_SET (R49): the present fields are stored with clamping in order, Toff never above Ton; the body carries the
class and the four values; any other class is refused with RANGE and changes nothing. On a link other than ADM it is
refused with WRONG_LINK, and the parameters stand. -/
def Obligations.VadSetTaken : Prop :=
  (∀ (cls : Byte) (f : VadFields) (s : State), s.latch .adm = none →
    let old := if cls = 0#8 then s.vadLine else s.vadPos
    let ton := match f.ton with | some v => min v.toNat 32767 | none => old.ton
    let new : VadParams :=
      { ton := ton
        toff := min (match f.toff with | some v => v.toNat | none => old.toff) ton
        onset := match f.onset with | some v => max 1 (min v.toNat 64) | none => old.onset
        hangMs := match f.hangover with | some v => min v.toNat 2000 | none => old.hangMs }
    ∃ t, exec (.vadSet .adm cls f) s = .next t ∧ noNotice s t ∧
      (if 2 ≤ cls.toNat then answered t .adm .vadSet .range [] ∧ onlyLinks s t
       else answered t .adm .vadSet .done (cls :: (b2 new.ton ++ b2 new.toff ++ b2 new.onset ++ b2 new.hangMs)) ∧
        t.vadLine = (if cls = 0#8 then new else s.vadLine) ∧ t.vadPos = (if cls = 1#8 then new else s.vadPos) ∧
        { t with vadLine := s.vadLine, vadPos := s.vadPos, links := s.links, origin := s.origin,
                 released := s.released } = s)) ∧
  ∀ (l : LinkId) (cls : Byte) (f : VadFields) (s : State), l ≠ .adm → s.latch l = none →
    ∃ t, exec (.vadSet l cls f) s = .next t ∧ answered t l .vadSet .wrongLink [] ∧ t.vadLine = s.vadLine ∧
      t.vadPos = s.vadPos

/-- WATCH_SET (R152): each line of the map takes the route, its watch flag follows, the other lines keep theirs; the
body carries the number of watched lines and the routes of the lines named. TIME_SET (R162): the count takes the value
and is VALID; the body carries the value, the count as it stood, and the state as it stood (INVALID 0, VALID 1). The
two bodies' forms are notes/assumptions/8.md. LOG_LIMITS (R176, R168, R171, R177): Hw and Lw clamped and stored in
order, then the state re-evaluated against the fill; leaving LOST admits the GAP record; the recorder hears of each
change of state. GROUP_DEFINE and ICM_POLICY (R104, R105): the list or the present values are stored, clamped, and
shown; a number out of range is refused with RANGE, a position named twice with DUPLICATE, and then nothing changes.
-/
def Obligations.SettingsTaken : Prop :=
  (∀ (m : BitVec 192) (b : Byte) (r : Route) (s : State), s.latch .adm = none → routeOf b = some r →
    ∃ t, exec (.watchSet .adm m b) s = .next t ∧ noNotice s t ∧
      answered t .adm .watchSet .done (b2 ((t.routes.list.filter (· ≠ .none)).length) ++
        bList (fun _ => b1 r.code) ((ids 192).filter fun L => m.getLsbD L.val)) ∧
      (∀ L : LineId, t.routes.get L = if m.getLsbD L.val then r else s.routes.get L) ∧
      (∀ L : LineId, t.lines.get L =
        if m.getLsbD L.val then { s.lines.get L with watch := r ≠ .none } else s.lines.get L) ∧
      { t with routes := s.routes, lines := s.lines, links := s.links, origin := s.origin, released := s.released } = s) ∧
  (∀ (v : Word) (s : State), s.latch .adm = none →
    ∃ t, exec (.timeSet .adm v) s = .next t ∧ noNotice s t ∧
      answered t .adm .timeSet .done (wordBytes v ++ wordBytes s.log.time ++ [if s.timeValid then 1#8 else 0#8]) ∧
      t.timeValid = true ∧ t.log = { s.log with time := v } ∧
      { t with timeValid := s.timeValid, log := s.log, links := s.links, origin := s.origin,
               released := s.released } = s) ∧
  (∀ (hw lw : Option Half) (s : State), s.latch .adm = none →
    let g := s.log
    let h := match hw with | some v => max 2 (min v.toNat 1020) | none => g.hw
    let n := match lw with | some v => max 1 v.toNat | none => g.lw
    let w := if h ≤ n then h - 1 else n
    let g' : Log := { g with hw := h, lw := w }
    let fill := g.queue.length
    ∃ t, exec (.logLimits .adm hw lw) s = .next t ∧
      { t with log := s.log, links := s.links, origin := s.origin, released := s.released } = s ∧
      answered t .adm .logLimits .done (b2 h ++ b2 w ++ b1 t.log.level.code) ∧
      (match g.level with
        | .normal =>
          if h ≤ fill then t.log = { g' with level := .throttled } ∧
            noNotice (postRecorder (.logLevel .normal .throttled fill) s) t
          else t.log = g' ∧ noNotice s t
        | .throttled =>
          if fill ≤ w then t.log = { g' with level := .normal } ∧
            noNotice (postRecorder (.logLevel .throttled .normal fill) s) t
          else t.log = g' ∧ noNotice s t
        | .lost =>
          if fill ≤ w then
            ∃ gap : Record, gap.kind = .gap ∧ gap.seq = g.seq ∧ gap.firstLost = g.episode.map (·.first) ∧
              gap.lost = g.episode.map (fun e => BitVec.ofNat 32 e.count) ∧
              gap.time = (if s.timeValid then some g.time else none) ∧
              t.log = { g' with queue := g.queue ++ [gap], seq := g.seq + 1, episode := none,
                                level := if h ≤ fill + 1 then .throttled else .normal } ∧
              noNotice ((if h ≤ fill + 1 then postRecorder (.logLevel .normal .throttled (fill + 1)) else id)
                (postRecorder (.logLevel .lost .normal (fill + 1)) s)) t
          else t.log = g' ∧ noNotice s t)) ∧
  (∀ (g : GroupId) (ps : List PosId) (s : State), s.latch .adm = none → ps.length ≤ 12 →
    ∃ t, exec (.groupDefine .adm (idByte g) (ps.map idByte)) s = .next t ∧ noNotice s t ∧
      if ps.Nodup then answered t .adm .groupDefine .done (BitVec.ofNat 8 ps.length :: ps.map idByte) ∧
        t.groups = s.groups.set g ps ∧
        { t with groups := s.groups, links := s.links, origin := s.origin, released := s.released } = s
      else answered t .adm .groupDefine .duplicate [] ∧ onlyLinks s t) ∧
  (∀ (g : Byte) (ps : List Byte) (s : State), s.latch .adm = none → ps.length ≤ 12 →
    (32 ≤ g.toNat ∨ ∃ b ∈ ps, 48 ≤ b.toNat) →
    ∃ t, exec (.groupDefine .adm g ps) s = .next t ∧ noNotice s t ∧ onlyLinks s t ∧
      answered t .adm .groupDefine .range []) ∧
  ∀ (policy : Option Byte) (alertS : Option Half) (s : State), s.latch .adm = none →
    let period := match alertS with | some v => max 1 (min v.toNat 60) | none => s.icmAlertS
    let recorded : Bool := match policy with | some b => decide (b = 1#8) | none => s.icmRecord
    ∃ t, exec (.icmPolicy .adm policy alertS) s = .next t ∧ noNotice s t ∧
      if (policy.getD 0#8).toNat ≤ 1 then
        answered t .adm .icmPolicy .done ((if recorded then 1#8 else 0#8) :: b2 period) ∧
        t.icmRecord = recorded ∧ t.icmAlertS = period ∧
        { t with icmRecord := s.icmRecord, icmAlertS := s.icmAlertS, links := s.links, origin := s.origin,
                 released := s.released } = s
      else answered t .adm .icmPolicy .range [] ∧ onlyLinks s t

/-! ## Lines -/

/-- LINE_DEFINE (R58, R89, R96, R100): the present fields are stored, clamped; the line's state follows its type and
its highway; the detector restarts, a burst ends; a change of state is reported with cause DEFINE. Camp queue, holders
and watch flag stand. The causes of WATCH are notes/assumptions/24.md, and LINE_STATE before WATCH is
notes/assumptions/25.md. -/
def Obligations.LineDefineTaken : Prop :=
  ∀ (L : LineId) (f : LineFields) (c : LineCodes) (s : State), s.latch .adm = none →
    optCode lineTypeOf f.ltype = some c.ltype → optCode privacyOf f.privacy = some c.privacy →
    optCode policyOf f.policy = some c.policy → optCode reloadOf f.reload = some c.reload →
    let r := s.lines.get L
    (r.state = .disabled ∨ r.state = .outOfService ∨ r.state = .idle) → (r.ltype = .ht → legOf s L = none) →
    let num (lo top old : Nat) (v : Option Half) : Nat :=
      match v with | some x => max lo (min x.toNat top) | none => old
    let off (top old : Nat) (v : Option Half) : Nat :=
      match v with | some x => if x.toNat = 0 then 0 else max 10 (min x.toNat top) | none => old
    let ltype := c.ltype.getD r.ltype
    let state := if ltype = .none then LineState.disabled else if s.lineUp L then .idle else .outOfService
    let new : Line := { r with
      ltype := ltype
      privacy := c.privacy.getD r.privacy
      policy := c.policy.getD r.policy
      reload := c.reload.getD r.reload
      guardMs := num 0 2000 r.guardMs f.guardMs
      offerS := num 1 10 r.offerS f.offerS
      recallS := off 600 r.recallS f.recallS
      alertS := num 1 60 r.alertS f.alertS
      autoReleaseS := off 3600 r.autoReleaseS f.autoReleaseS
      sig := ⟨num 0 1000 r.sig.preQuiet f.preQuiet, num 20 2000 r.sig.minBurst f.minBurst,
        num 0 200 r.sig.gapAllow f.gapAllow, num 20 2000 r.sig.postQuiet f.postQuiet,
        num 100 4000 r.sig.outBurst f.outBurst⟩
      farPresent := false
      pendingRing := false
      timer := none
      state := state }
    let u := if state = r.state then s else
      post (watchRoute (s.routes.get L)) (.watch L r.state state .define)
        (post (lineRoute s L) (.lineState L state r.holders.length r.holdOwner r.camp.length) s)
    ∃ t, exec (.lineDefine .adm (idByte L) f) s = .next t ∧ noNotice u t ∧
      answered t .adm .lineDefine .done (bLineFields new) ∧ t.lines = s.lines.set L new ∧
      t.rings = s.rings.set L (RingDet.start ((new.sig.preQuiet + 3) / 4)) ∧
      t.gens = s.gens.modify L (fun g => { g with burst := 0 }) ∧
      { t with lines := s.lines, rings := s.rings, gens := s.gens, links := s.links, origin := s.origin,
               released := s.released } = s

/-- A LINE_TAKE of an IDLE or ALERTING line, or of one OFFERED to the position, by a free handset or key (R59 to R62):
the lowest FREE bridge is taken, the line's source joins it first and the handset's next, the line is CONNECTED, a
channel is ASSIGNED under RECORD and REQUIRED, CONNECT is written, LINE_STATE and WATCH follow. The body's 0xFF for no
channel, and its two bytes for no displaced binding, are notes/assumptions/8.md. The causes of WATCH are
notes/assumptions/24.md, and LINE_STATE before WATCH is notes/assumptions/25.md. -/
def Obligations.LineTakeFresh : Prop :=
  ∀ (l : LinkId) (p : PosId) (e : Endpoint) (L : LineId) (fl : Byte) (b : BridgeId) (ch : Option ChanId) (s : State),
    mayTake s l .lineTake (some p) → (s.positions.get p).isOpen = true → s.posUp p = true → s.appears p L = true →
    e ≠ .mic → s.binding p e = .none → channelAt s p e = none → fl.getLsbD 2 = false →
    let r := s.lines.get L
    (r.ltype = .mr ∨ r.ltype = .ar) → (r.state = .idle ∨ r.state = .alerting ∨
      (r.state = .offered ∧ r.camp.head? = some p)) → r.holders = [] → r.monitors = [] →
    (s.bridges.get b).use = .free → (∀ d, d < b → (s.bridges.get d).use ≠ .free) →
    (if r.policy = .none then ch = none
      else ∃ c, ch = some c ∧ s.channels.get c = none ∧ ∀ d, d < c → s.channels.get d ≠ none) →
    (r.policy = .required → s.log.level ≠ .lost ∧ s.timeValid = true) →
    let new : Line := { r with
      state := .connected
      holders := [(p, e)]
      holdOwner := none
      timer := none
      camp := r.camp.filter (· ≠ p)
      bridge := some b
      farPresent := r.farPresent || (r.ltype = .ar && r.state = .alerting) }
    let cs : List Contrib := ⟨lineSource L, 1024, 0, .owner⟩ ::
      (endpointSource p e).toList.map fun x => ⟨x, min ((s.positions.get p).gain e) 4095, 0, .owner⟩
    let made : Bridge :=
      { use := .line L
        contributors := cs
        period := 1000 * r.autoReleaseS
        mask := r.reload
        active := cs.any fun c => s.active c.source
        idle := if (cs.any fun c => r.reload.selects c.source && s.active c.source) ∨ r.autoReleaseS = 0 then none
          else some (1000 * r.autoReleaseS) }
    let u := submit { kind := .connect, line := some L, bridge := some b, pos := some p, endpoint := some e,
                      channel := ch, parties := some [(p, e)] } s
    ∃ t, exec (.lineTake l (idByte p) (endByte e) (idByte L) fl) s = .next t ∧
      answered t l .lineTake .done
        [5#8, 0#8, 1#8, idByte b, (match ch with | some c => idByte c | none => 0xFF#8), 0#8, 0xFF#8] ∧
      t.lines = s.lines.set L new ∧ t.bridges = s.bridges.set b made ∧
      t.positions = s.positions.modify p (fun x => x.setBinding e (.holder L)) ∧
      t.gens = (if r.ltype = .ar then s.gens.modify L fun g => { g with sustained := true } else s.gens) ∧
      t.channels = (match ch with
        | some c => s.channels.set c (some ⟨p, e, none, b, if s.timeValid then some s.log.time else none⟩)
        | none => s.channels) ∧
      t.log = u.log ∧
      noNotice (post (watchRoute (s.routes.get L)) (.watch L r.state .connected .take)
        (post (lineRoute s L) (.lineState L .connected 1 none new.camp.length) u)) t ∧
      { t with lines := s.lines, bridges := s.bridges, positions := s.positions, gens := s.gens,
               channels := s.channels, log := s.log, links := s.links, origin := s.origin,
               released := s.released } = s

/-- A LINE_TAKE that joins a CONNECTED line with room, or retrieves a HELD one (R60, R62, R70): the holder is
appended, a handset's source joins the line's bridge, a channel is ASSIGNED under RECORD and REQUIRED, CONNECT or
RETRIEVE is written; the line leaves HELD with LINE_STATE and WATCH, and stays CONNECTED with LINE_STATE alone. The
body's absent fields are notes/assumptions/8.md. The causes of WATCH are notes/assumptions/24.md, and LINE_STATE
before WATCH is notes/assumptions/25.md. -/
def Obligations.LineTakeJoins : Prop :=
  ∀ (l : LinkId) (p : PosId) (e : Endpoint) (L : LineId) (fl : Byte) (b : BridgeId) (ch : Option ChanId)
    (s : State),
    mayTake s l .lineTake (some p) → (s.positions.get p).isOpen = true → s.posUp p = true → s.appears p L = true →
    e ≠ .mic → s.binding p e = .none → channelAt s p e = none → fl.getLsbD 2 = false →
    let r := s.lines.get L
    (r.ltype = .mr ∨ r.ltype = .ar) → r.bridge = some b → (∀ x ∈ r.monitors, x.1 ≠ p) →
    (r.state = .connected ∧ (∀ x ∈ r.holders, x.1 ≠ p) ∧ r.holders.length < (if r.privacy = .shared then 4 else 1) ∨
      r.state = .held ∧ r.holders = [] ∧ (r.holdOwner = some p ∨ r.privacy = .shared)) →
    (∀ x, endpointSource p e = some x →
      (s.bridges.get b).contributors.length < 12 ∧ (s.bridges.get b).has x = false) →
    (if r.policy = .none then ch = none
      else ∃ c, ch = some c ∧ s.channels.get c = none ∧ ∀ d, d < c → s.channels.get d ≠ none) →
    (r.policy = .required → s.log.level ≠ .lost ∧ s.timeValid = true) →
    let new : Line := { r with
      state := .connected
      holders := r.holders ++ [(p, e)]
      holdOwner := none
      timer := none
      camp := r.camp.filter (· ≠ p) }
    let u := submit { kind := if r.state = .held then .retrieve else .connect, line := some L, bridge := some b,
                      pos := some p, endpoint := some e, channel := ch, parties := some new.holders } s
    let v := post (lineRoute s L) (.lineState L .connected new.holders.length none new.camp.length) u
    ∃ t, exec (.lineTake l (idByte p) (endByte e) (idByte L) fl) s = .next t ∧
      answered t l .lineTake .done ([5#8] ++ b2 new.holders.length ++ [idByte b] ++
        (match ch with | some c => [idByte c] | none => [0xFF#8]) ++ [0#8, 0xFF#8]) ∧
      t.lines = s.lines.set L new ∧ (∀ d, d ≠ b → t.bridges.get d = s.bridges.get d) ∧
      (t.bridges.get b).use = (s.bridges.get b).use ∧
      (t.bridges.get b).contributors = (s.bridges.get b).contributors ++
        (endpointSource p e).toList.map (fun x => ⟨x, min ((s.positions.get p).gain e) 4095, 0, .owner⟩) ∧
      t.positions = s.positions.modify p (fun x => x.setBinding e (.holder L)) ∧
      t.gens = (if r.ltype = .ar ∧ r.holders = [] then s.gens.modify L fun g => { g with sustained := true }
        else s.gens) ∧
      t.channels = (match ch with
        | some c => s.channels.set c (some ⟨p, e, none, b, if s.timeValid then some s.log.time else none⟩)
        | none => s.channels) ∧
      t.log = u.log ∧
      noNotice (if r.state = .held then post (watchRoute (s.routes.get L)) (.watch L .held .connected .take) v else v) t ∧
      { t with lines := s.lines, bridges := s.bridges, positions := s.positions, gens := s.gens,
               channels := s.channels, log := s.log,
               links := s.links, origin := s.origin, released := s.released } = s

/-- The other outcomes of LINE_TAKE: a take of the endpoint that already holds the line changes nothing (R59; its body
is notes/assumptions/41.md); a MONITOR take appends a monitor with no record and no notice (R64); a line that another
call holds is BUSY, one in CLEARING is GUARD, one out of service is FACILITY (R60), and with CAMP a BUSY or GUARD take
of a position that does not wait yet joins the queue's tail (R63). The bodies' absent fields and
the one byte of the index in CAMPED are notes/assumptions/8.md. -/
def Obligations.LineTakeOther : Prop :=
  ∀ (l : LinkId) (p : PosId) (e : Endpoint) (L : LineId) (fl : Byte) (s : State),
    mayTake s l .lineTake (some p) → (s.positions.get p).isOpen = true → s.posUp p = true → e ≠ .mic →
    let r := s.lines.get L
    (r.ltype = .mr ∨ r.ltype = .ar) →
    let c := Instr.lineTake l (idByte p) (endByte e) (idByte L) fl
    (fl.getLsbD 2 = false → s.appears p L = true → holderEntry s L p = some e →
      ∃ t, exec c s = .next t ∧ onlyLinks s t ∧ noNotice s t ∧
        answered t l .lineTake .done (b1 r.state.code ++ b2 r.holders.length ++ bOpt (r.bridge.map (·.val)) ++
          bOpt ((channelAt s p e).map (·.val)) ++ [0#8, 0xFF#8])) ∧
    (fl.getLsbD 2 = true → s.mayMonitor p L = true → (e = .ha ∨ e = .hb) → s.binding p e = .none →
      r.state = .connected → (∀ x ∈ r.holders ++ r.monitors, x.1 ≠ p) → r.monitors.length < 4 →
      ∃ t, exec c s = .next t ∧ noNotice s t ∧
        answered t l .lineTake .done ([5#8] ++ b2 (r.monitors.length + 1)) ∧
        t.lines = s.lines.set L { r with monitors := r.monitors ++ [(p, e)] } ∧
        t.positions = s.positions.modify p (fun x => x.setBinding e (.monitor L)) ∧
        { t with lines := s.lines, positions := s.positions, links := s.links, origin := s.origin,
                 released := s.released } = s) ∧
    (fl.getLsbD 2 = false → s.appears p L = true → (∀ x ∈ r.holders, x.1 ≠ p) → ∀ res : Result,
      (res = .busy ∧ (r.state = .offered ∧ r.camp.head? ≠ some p ∨
          r.state = .connected ∧ (if r.privacy = .shared then 4 else 1) ≤ r.holders.length ∨
          r.state = .held ∧ r.holdOwner ≠ some p ∧ r.privacy = .single) ∨
        res = .guard ∧ r.state = .clearing ∨
        res = .facility ∧ r.state = .outOfService) →
      ∃ t, exec c s = .next t ∧ noNotice s t ∧
        if fl.getLsbD 0 = true ∧ res ≠ .facility then
          (if p ∈ r.camp then answered t l .lineTake .duplicate [] ∧ onlyLinks s t
           else if 8 ≤ r.camp.length then answered t l .lineTake .full [] ∧ onlyLinks s t
           else answered t l .lineTake .camped [BitVec.ofNat 8 r.camp.length] ∧
            t.lines = s.lines.set L { r with camp := r.camp ++ [p] } ∧
            { t with lines := s.lines, links := s.links, origin := s.origin, released := s.released } = s)
        else answered t l .lineTake res [] ∧ onlyLinks s t)

/-- LINE_TAKE that moves or displaces. A take by another endpoint of the position that holds the line (R9) puts the
new endpoint in the holder entry's place: the old endpoint is unbound, its source leaves and the new one's joins, its
channel goes with it with a SEGMENT record of cause MOVE, and nothing is reported; a line talk on the old key ends
with cause NONE (notes/assumptions/40.md); the body is notes/assumptions/41.md. A take by an endpoint that holds
another line alone (R7) ends that binding first: the other line is released, or, with PARK_PREVIOUS, HELD; one that
monitors a line, or a key that listens without talk, just gives that up. These are the model's choices: in the bodies,
0xFF for no channel and the two bytes of a displaced binding (notes/assumptions/8.md); that the TALK_END of a line
talk names the MIC and no channel, and the fields of its TALK_STATE (notes/assumptions/9.md). The causes of WATCH are
notes/assumptions/24.md, and LINE_STATE before WATCH is notes/assumptions/25.md. -/
def Obligations.LineTakeMoves : Prop :=
  ∀ (l : LinkId) (p : PosId) (e : Endpoint) (L : LineId) (fl : Byte) (s : State),
    mayTake s l .lineTake (some p) → (s.positions.get p).isOpen = true → s.posUp p = true → s.appears p L = true →
    e ≠ .mic → fl.getLsbD 2 = false →
    let r := s.lines.get L
    let c := Instr.lineTake l (idByte p) (endByte e) (idByte L) fl
    (r.ltype = .mr ∨ r.ltype = .ar) →
    (∀ (old : Endpoint) (b : BridgeId), holderEntry s L p = some old → old ≠ e → old ≠ .mic → s.binding p e = .none →
      (∀ k, old = .key k → (s.positions.get p).mic ≠ .talk k) → r.bridge = some b →
      (r.policy = .required → channelAt s p old ≠ none) → (s.bridges.get b).contributors.length < 12 →
      (∀ x, endpointSource p e = some x → (s.bridges.get b).has x = false) →
      let entry (x : ChanId) (y : Channel) : Record :=
        { kind := .segment, channel := some x, pos := some p, endpoint := some e, bridge := some b, line := some L,
          cause := some (if y.bridge = b then .move else .retarget) }
      ∃ t, exec c s = .next t ∧
        t.lines = s.lines.set L
          { r with holders := r.holders.map fun x => if x = (p, old) then (p, e) else x } ∧
        t.positions = s.positions.modify p (fun x => (x.setBinding old .none).setBinding e (.holder L)) ∧
        (∀ d, d ≠ b → t.bridges.get d = s.bridges.get d) ∧
        (t.bridges.get b).contributors =
          ((s.bridges.get b).contributors.filter fun y => some y.source ≠ endpointSource p old) ++
            (endpointSource p e).toList.map (fun x => ⟨x, min ((s.positions.get p).gain e) 4095, 0, .owner⟩) ∧
        (channelAt s p old = none → noNotice s t ∧ t.log = s.log ∧ t.channels = s.channels ∧
          (channelAt s p e = none → answered t l .lineTake .done
            (b1 r.state.code ++ b2 r.holders.length ++ [idByte b, 0xFF#8, 0#8, 0xFF#8]))) ∧
        (∀ x, channelAt s p old = some x → ∀ y, s.channels.get x = some y → noNotice (submit (entry x y) s) t ∧
          t.log = (submit (entry x y) s).log ∧
          t.channels = s.channels.set x (some { y with pos := p, endpoint := e, key := none, bridge := b }) ∧
          (channelAt s p e = none → answered t l .lineTake .done
            (b1 r.state.code ++ b2 r.holders.length ++ [idByte b, idByte x, 0#8, 0xFF#8]))) ∧
        { t with lines := s.lines, positions := s.positions, bridges := s.bridges, channels := s.channels,
                 log := s.log, links := s.links, origin := s.origin, released := s.released } = s) ∧
    (∀ (k : KeyId) (b : BridgeId), holderEntry s L p = some (.key k) → (e = .ha ∨ e = .hb) → s.binding p e = .none →
      (s.positions.get p).mic = .talk k → r.bridge = some b → r.policy ≠ .required → channelAt s p (.key k) = none →
      channelAt s p e = none → (∀ x, endpointSource p e = some x → (s.bridges.get b).has x = false) →
      let stay := (s.bridges.get b).contributors.filter fun y => y.source ≠ micSource p
      stay.length < 12 →
      let u := submit { kind := .talkEnd, line := some L, bridge := some b, pos := some p, endpoint := some .mic,
                        key := some k, cause := some .none } s
      ∃ t, exec c s = .next t ∧ answered t l .lineTake .done
          (b1 r.state.code ++ b2 r.holders.length ++ [idByte b, 0xFF#8, 0#8, 0xFF#8]) ∧
        t.lines = s.lines.set L
          { r with holders := r.holders.map fun x => if x = (p, .key k) then (p, e) else x } ∧
        t.positions = s.positions.modify p (fun x =>
          { (x.setBinding (.key k) .none).setBinding e (.holder L) with mic := .none }) ∧
        (∀ d, d ≠ b → t.bridges.get d = s.bridges.get d) ∧
        (t.bridges.get b).contributors = stay ++
          (endpointSource p e).toList.map (fun x => ⟨x, min ((s.positions.get p).gain e) 4095, 0, .owner⟩) ∧
        t.log = u.log ∧
        noNotice (post (posRoute (s.begin (some l)) [p]) (.talkState none k .none false .none) u) t ∧
        { t with lines := s.lines, positions := s.positions, bridges := s.bridges, log := s.log, links := s.links,
                 origin := s.origin, released := s.released } = s) ∧
    (∀ (b : BridgeId), r.policy = .none → channelAt s p e = none → r.holders = [] → r.monitors = [] → r.state = .idle →
      r.ltype = .mr →
      (s.bridges.get b).use = .free → (∀ d, d < b → (s.bridges.get d).use ≠ .free) →
      let new : Line := { r with
        state := .connected
        holders := [(p, e)]
        holdOwner := none
        timer := none
        camp := r.camp.filter (· ≠ p)
        bridge := some b }
      let cs : List Contrib := ⟨lineSource L, 1024, 0, .owner⟩ ::
        (endpointSource p e).toList.map fun x => ⟨x, min ((s.positions.get p).gain e) 4095, 0, .owner⟩
      let took (u : State) : State :=
        submit { kind := .connect, line := some L, bridge := some b, pos := some p, endpoint := some e,
                 parties := some [(p, e)] } u
      let told (u : State) : State :=
        post (watchRoute (s.routes.get L)) (.watch L .idle .connected .take)
          (post (lineRoute s L) (.lineState L .connected 1 none new.camp.length) (took u))
      let body (old : Binding) : List Byte := [5#8, 0#8, 1#8, idByte b, 0xFF#8] ++ bBinding old
      let base (t : State) : Prop := t.binding p e = .holder L ∧ t.lines.get L = new ∧
        (t.bridges.get b).use = .line L ∧ (t.bridges.get b).contributors = cs ∧ t.channels = s.channels ∧
        { t with lines := s.lines, bridges := s.bridges, positions := s.positions, gens := s.gens, log := s.log,
                 links := s.links, origin := s.origin, released := s.released } = s
      (∀ (M : LineId) (a : BridgeId), s.binding p e = .holder M → M ≠ L →
        (∀ k, e = .key k → (s.positions.get p).mic ≠ .talk k) →
        let m := s.lines.get M
        m.state = .connected → m.holders = [(p, e)] → m.monitors = [] → m.bridge = some a → a ≠ b →
        (∀ d, isConference s d (lineSource M) = false) →
        let reported (new : LineState) (cause : Cause) (owner : Option PosId) (u : State) : State :=
          post (watchRoute (s.routes.get M)) (.watch M .connected new cause)
            (post (lineRoute s M) (.lineState M new 0 owner m.camp.length) u)
        (fl.getLsbD 1 = false → m.guardMs ≠ 0 →
          let u := reported .clearing .none none
            (submit { kind := .disconnect, line := some M, pos := some p, endpoint := some e, cause := some .none,
                      parties := some [] } s)
          ∃ t, exec c s = .next t ∧ answered t l .lineTake .done (body (.holder M)) ∧ base t ∧
            t.lines.get M = { m with
              state := .clearing
              holders := []
              holdOwner := none
              bridge := none
              farPresent := false
              timer := some ⟨.guard, m.guardMs⟩ } ∧
            t.bridges.get a = Bridge.reset ∧ t.log = (took u).log ∧ noNotice (told u) t) ∧
        (fl.getLsbD 1 = true → (s.bridges.get a).contributors.all (fun y => y.origin = .owner) = true →
          let u := reported .held .park (some p)
            (submit { kind := .hold, line := some M, bridge := some a, pos := some p } s)
          ∃ t, exec c s = .next t ∧ answered t l .lineTake .done (body (.holder M)) ∧ base t ∧
            t.lines.get M = { m with
              state := .held
              holders := []
              holdOwner := some p
              timer := if m.recallS = 0 then none else some ⟨.recall, 1000 * m.recallS⟩ } ∧
            (t.bridges.get a).contributors =
              ((s.bridges.get a).contributors.filter fun y => some y.source ≠ endpointSource p e) ∧
            t.log = (took u).log ∧ noNotice (told u) t)) ∧
      ((∃ M, s.binding p e = .monitor M ∧ M ≠ L) ∨
          (∃ k d h, e = .key k ∧ s.binding p e = .listen d ∧ s.hoots.get d = some h ∧ p ∉ h.talkers) →
        ∃ t, exec c s = .next t ∧ answered t l .lineTake .done (body (s.binding p e)) ∧ base t ∧
          (∀ M, s.binding p e = .monitor M →
            (t.lines.get M).monitors = (s.lines.get M).monitors.filter (· ≠ (p, e))) ∧
          t.log = (took s).log ∧ noNotice (told s) t))

/-- The resources of a holder take (R61, R157): with no FREE bridge a take of an IDLE line is NO_BRIDGE; a handset
that joins a line whose bridge holds twelve sources is FULL; a REQUIRED line is NO_RECORDING, with the condition that
fails (no FREE channel 0, the log LOST 1, the time base INVALID 2). Each changes nothing. A line of policy RECORD goes
ahead with no FREE channel, and an UNRECORDED record stands before CONNECT (R156, R163). The model's choices in the
bodies are notes/assumptions/8.md: the byte of NO_RECORDING, 0xFF for no channel, the two bytes of an absent displaced
binding. The causes of WATCH are notes/assumptions/24.md, and LINE_STATE before WATCH is notes/assumptions/25.md. -/
def Obligations.LineTakeResources : Prop :=
  ∀ (l : LinkId) (p : PosId) (e : Endpoint) (L : LineId) (fl : Byte) (s : State),
    mayTake s l .lineTake (some p) → (s.positions.get p).isOpen = true → s.posUp p = true → s.appears p L = true →
    e ≠ .mic → fl.getLsbD 2 = false → holderEntry s L p = none →
    let r := s.lines.get L
    let c := Instr.lineTake l (idByte p) (endByte e) (idByte L) fl
    let refused (res : Result) (body : List Byte) : Prop :=
      ∃ t, exec c s = .next t ∧ onlyLinks s t ∧ noNotice s t ∧ answered t l .lineTake res body
    (r.ltype = .mr ∨ r.ltype = .ar) →
    let fresh : Prop := r.state = .idle ∨ r.state = .alerting ∨ (r.state = .offered ∧ r.camp.head? = some p)
    let joins : Prop := r.state = .connected ∧ r.holders.length < (if r.privacy = .shared then 4 else 1) ∨
      r.state = .held ∧ (r.holdOwner = some p ∨ r.privacy = .shared)
    (fresh → (∀ b, (s.bridges.get b).use ≠ .free) → refused .noBridge []) ∧
    (joins → (e = .ha ∨ e = .hb) → ∀ b, r.bridge = some b → 12 ≤ (s.bridges.get b).contributors.length →
      refused .full []) ∧
    (fresh ∧ (∃ b, (s.bridges.get b).use = .free) ∨
        joins ∧ (∃ b, r.bridge = some b ∧ ((∃ k, e = .key k) ∨ (s.bridges.get b).contributors.length < 12)) →
      r.policy = .required → channelAt s p e = none →
      ((∀ d, s.channels.get d ≠ none) → refused .noRecording [0#8]) ∧
      ((∃ d, s.channels.get d = none) → s.log.level = .lost → refused .noRecording [1#8]) ∧
      ((∃ d, s.channels.get d = none) → s.log.level ≠ .lost → s.timeValid = false → refused .noRecording [2#8])) ∧
    ∀ b, r.state = .idle → r.holders = [] → r.monitors = [] → r.policy = .record → s.binding p e = .none →
      (s.bridges.get b).use = .free → (∀ d, d < b → (s.bridges.get d).use ≠ .free) →
      (∀ d, s.channels.get d ≠ none) → channelAt s p e = none →
      let u := submit { kind := .connect, line := some L, bridge := some b, pos := some p, endpoint := some e,
                        parties := some [(p, e)] }
        (submit { kind := .unrecorded, pos := some p, endpoint := some e, bridge := some b, line := some L,
                  cause := some .noChannel } s)
      ∃ t, exec c s = .next t ∧ answered t l .lineTake .done [5#8, 0#8, 1#8, idByte b, 0xFF#8, 0#8, 0xFF#8] ∧
        t.binding p e = .holder L ∧ (t.lines.get L).state = .connected ∧ (t.lines.get L).bridge = some b ∧
        (t.bridges.get b).use = .line L ∧ t.channels = s.channels ∧ t.log = u.log ∧
        noNotice (post (watchRoute (s.routes.get L)) (.watch L .idle .connected .take)
          (post (lineRoute s L) (.lineState L .connected 1 none (r.camp.filter (· ≠ p)).length) u)) t

/-- LINE_DROP and LINE_PARK, by the endpoint's binding (R66, R67, R69). LINE_DROP of an endpoint that is NONE changes
nothing, a monitor's ends the monitor with no record and no notice, and one of another binding is NOT_BOUND, as
LINE_PARK of anything but a holder is. A holder leaves by either while others stay, and the line stays CONNECTED; the
last one's LINE_DROP releases the line, as `Released` says, and its LINE_PARK takes it to HELD with the position as hold
owner; either ends the monitors with MONITOR_END. The line talk of a key whose MIC talks on it ends first, with TALK_END
and TALK_STATE (R132), whose fields are notes/assumptions/9.md. The channel is released, DISCONNECT or HOLD is written.
The causes of WATCH are notes/assumptions/24.md, and LINE_STATE before WATCH is notes/assumptions/25.md. -/
def Obligations.LineDropPark : Prop :=
  ∀ (l : LinkId) (p : PosId) (e : Endpoint) (s : State), (s.positions.get p).isOpen = true → e ≠ .mic →
    let v := s.binding p e
    let drop := exec (.lineDrop l (idByte p) (endByte e)) s
    (mayTake s l .lineDrop (some p) →
      (v = .none → ∃ t, drop = .next t ∧ onlyLinks s t ∧ noNotice s t ∧ answered t l .lineDrop .done []) ∧
      (v ≠ .none → (∀ L, v ≠ .holder L ∧ v ≠ .monitor L) →
        ∃ t, drop = .next t ∧ onlyLinks s t ∧ noNotice s t ∧ answered t l .lineDrop .notBound []) ∧
      ∀ L, v = .monitor L → (e = .ha ∨ e = .hb) → ∃ t, drop = .next t ∧ noNotice s t ∧
        answered t l .lineDrop .done [] ∧
        t.lines = s.lines.modify L (fun r => { r with monitors := r.monitors.filter (· ≠ (p, e)) }) ∧
        t.positions = s.positions.modify p (fun x => x.setBinding e .none) ∧
        { t with lines := s.lines, positions := s.positions, links := s.links, origin := s.origin,
                 released := s.released } = s) ∧
    (mayTake s l .linePark (some p) → (∀ L, v ≠ .holder L) →
      ∃ t, exec (.linePark l (idByte p) (endByte e)) s = .next t ∧ onlyLinks s t ∧ noNotice s t ∧
        answered t l .linePark .notBound []) ∧
    ∀ (L : LineId) (b : BridgeId), v = .holder L →
    let r := s.lines.get L
    r.state = .connected → r.bridge = some b → (p, e) ∈ r.holders →
    let rest := r.holders.filter (· ≠ (p, e))
    let ch := channelAt s p e
    let talks := (keyTalks s (p, e)).isSome
    let freed := match ch with | some c => s.channels.set c none | none => s.channels
    let stays (c : Contrib) : Bool := some c.source ≠ endpointSource p e && !(talks && c.source = micSource p)
    (rest ≠ [] → ∀ park : Bool, mayTake s l (if park then .linePark else .lineDrop) (some p) →
      let u := holderEnded s (some l) L .none (p, e) rest s
      ∃ t, exec (if park then .linePark l (idByte p) (endByte e) else .lineDrop l (idByte p) (endByte e)) s = .next t ∧
        answered t l (if park then .linePark else .lineDrop) .done (if park then [5#8] else []) ∧
        t.positions = s.positions.modify p (fun x =>
          { x.setBinding e .none with mic := if talks then .none else x.mic }) ∧
        t.channels = freed ∧ t.lines = s.lines.set L { r with holders := rest } ∧ t.log = u.log ∧
        (∀ d, d ≠ b → t.bridges.get d = s.bridges.get d) ∧
        (t.bridges.get b).contributors = (s.bridges.get b).contributors.filter stays ∧
        noNotice (post (lineRoute s L) (.lineState L .connected rest.length r.holdOwner r.camp.length) u) t ∧
        { t with lines := s.lines, bridges := s.bridges, positions := s.positions, channels := s.channels, log := s.log,
                 links := s.links, origin := s.origin, released := s.released } = s) ∧
    (r.holders = [(p, e)] → InCall s L →
      (mayTake s l .lineDrop (some p) → ∃ t, drop = .next t ∧ answered t l .lineDrop .done [] ∧
        Released s t (some l) L .none .monitorEnd) ∧
      (mayTake s l .linePark (some p) →
        let w := submit { kind := .hold, line := some L, bridge := some b, pos := some p, channel := ch }
          (monitorsEnded s (some l) L .monitorEnd (talkEnded s (some l) L .none (p, e) s))
        ∃ t, exec (.linePark l (idByte p) (endByte e)) s = .next t ∧ answered t l .linePark .done [6#8] ∧
          t.lines = s.lines.set L { r with
            state := .held
            holders := []
            monitors := []
            holdOwner := some p
            timer := if r.recallS = 0 then none else some ⟨.recall, 1000 * r.recallS⟩ } ∧
          unbound s t ((p, e) :: r.monitors) ∧ t.channels = freed ∧ t.gens = s.gens ∧ t.log = w.log ∧
          (t.bridges.get b).use = (s.bridges.get b).use ∧
          (((s.bridges.get b).contributors.map (·.source)).Nodup → (t.bridges.get b).contributors =
            (s.bridges.get b).contributors.filter fun c => c.origin = .owner && stays c) ∧
          (∀ d, d ≠ b → unconferred s t L d) ∧ t.calls = s.calls ∧ t.icm = s.icm ∧ t.hoots = s.hoots ∧ onlyCalls s t ∧
          noNotice (post (watchRoute (s.routes.get L)) (.watch L .connected .held .park)
            (post (lineRoute s L) (.lineState L .held 0 (some p) r.camp.length) w)) t))

/-- LINE_SIGNAL (R80, R98) starts the burst of a holder's MANUAL_RINGDOWN line and writes RING_OUT. CAMP_CANCEL (R74)
takes the position out of the camp queue; a position that does not wait changes nothing; the offered party alone is
told, and the offer passes to the next, or the line is IDLE when the queue is then empty; that OFFER_LAPSED stands
before the LINE_STATE of the advance is notes/assumptions/25.md. The causes of WATCH are notes/assumptions/24.md. -/
def Obligations.LineSignalCamp : Prop :=
  ∀ (l : LinkId) (p : PosId) (L : LineId) (s : State), (s.positions.get p).isOpen = true →
    let r := s.lines.get L
    (mayTake s l .lineSignal (some p) → r.ltype = .mr → r.state = .connected → (∃ e, (p, e) ∈ r.holders) →
      let u := submit { kind := .ringOut, line := some L, pos := some p } s
      ∃ t, exec (.lineSignal l (idByte p) (idByte L)) s = .next t ∧ answered t l .lineSignal .done [] ∧
        noNotice u t ∧ t.log = u.log ∧ t.gens = s.gens.modify L (fun g => { g with burst := r.sig.outBurst }) ∧
        { t with gens := s.gens, log := s.log, links := s.links, origin := s.origin, released := s.released } = s) ∧
    (mayTake s l .campCancel (some p) →
      (p ∉ r.camp → ∃ t, exec (.campCancel l (idByte p) (idByte L)) s = .next t ∧ onlyLinks s t ∧ noNotice s t ∧
        answered t l .campCancel .done [0#8]) ∧
      (p ∈ r.camp → ¬ (r.state = .offered ∧ r.camp.head? = some p) →
        ∃ t, exec (.campCancel l (idByte p) (idByte L)) s = .next t ∧ noNotice s t ∧
          answered t l .campCancel .done [1#8] ∧
          t.lines = s.lines.set L { r with camp := r.camp.filter (· ≠ p) } ∧
          { t with lines := s.lines, links := s.links, origin := s.origin, released := s.released } = s) ∧
      (∀ q rest, r.camp = p :: q :: rest → p ∉ q :: rest → r.state = .offered →
        ∃ t, exec (.campCancel l (idByte p) (idByte L)) s = .next t ∧ answered t l .campCancel .done [1#8] ∧
          t.lines = s.lines.set L { r with camp := q :: rest, timer := some ⟨.offer, 1000 * r.offerS⟩ } ∧
          noNotice (post (posRoute (s.begin (some l)) [q]) (.offer L r.offerS)
            (post (posRoute (s.begin (some l)) [p]) (.offerLapsed L .cancelled true) s)) t ∧
          { t with lines := s.lines, links := s.links, origin := s.origin, released := s.released } = s) ∧
      (r.camp = [p] → r.state = .offered →
        ∃ t, exec (.campCancel l (idByte p) (idByte L)) s = .next t ∧ answered t l .campCancel .done [1#8] ∧
          t.lines = s.lines.set L { r with camp := [], state := .idle, timer := none } ∧
          noNotice (post (watchRoute (s.routes.get L)) (.watch L .offered .idle .offerEnd)
            (post (lineRoute s L) (.lineState L .idle r.holders.length r.holdOwner 0)
              (post (posRoute (s.begin (some l)) [p]) (.offerLapsed L .cancelled true) s))) t ∧
          { t with lines := s.lines, links := s.links, origin := s.origin, released := s.released } = s))

/-- FORCE_DROP (R82) releases a line with cause ADMIN, as `Released` says: every holder and monitor is unbound with
BINDING_LOST and a DISCONNECT of that cause, or the hold is released with one, the line goes to CLEARING, or with a
guard of 0 on to IDLE or to the first of its camp queue, and its bridge is FREE; on a line that is neither CONNECTED nor
HELD it changes nothing. The body's three counts, of holders, monitors and holds, are notes/assumptions/18.md, the
fields of TALK_STATE, TALK_END and of a hold's DISCONNECT notes/assumptions/9.md, the causes of WATCH
notes/assumptions/24.md, and LINE_STATE before WATCH notes/assumptions/25.md. -/
def Obligations.ForceDropTaken : Prop :=
  ∀ (L : LineId) (s : State), s.latch .adm = none →
    let r := s.lines.get L
    (r.ltype = .mr ∨ r.ltype = .ar) →
    (r.state ≠ .connected → r.state ≠ .held →
      ∃ t, exec (.forceDrop .adm (idByte L)) s = .next t ∧ onlyLinks s t ∧ noNotice s t ∧
        answered t .adm .forceDrop .done [0#8, 0#8, 0#8, 0#8, 0#8, 0#8]) ∧
    (InCall s L → ∃ t, exec (.forceDrop .adm (idByte L)) s = .next t ∧ Released s t (some .adm) L .admin .admin ∧
      answered t .adm .forceDrop .done (b2 r.holders.length ++ (if r.state = .held then b2 0 ++ b2 1
        else b2 r.monitors.length ++ b2 0)))

/-- BRIDGE_JOIN and BRIDGE_LEAVE (R25, R26): the source of another CONNECTED line joins a line's bridge as a CONFERENCE
entry, or has its gain set where it already is one; BRIDGE_LEAVE takes it off again. No notice, no record. -/
def Obligations.ConferenceTaken : Prop :=
  ∀ (b : BridgeId) (L M : LineId) (gain : Half) (s : State), s.latch .adm = none →
    let r := s.bridges.get b
    let x := lineSource M
    let g := min gain.toNat 4095
    let rest (t : State) : Prop := noNotice s t ∧ (∀ d, d ≠ b → t.bridges.get d = s.bridges.get d) ∧
      { t with bridges := s.bridges, links := s.links, origin := s.origin, released := s.released } = s
    (r.use = .line L → (s.lines.get L).state = .connected → (s.lines.get M).state = .connected → M ≠ L →
      ((s.lines.get M).ltype = .mr ∨ (s.lines.get M).ltype = .ar) →
      (r.has x = false → r.contributors.length < 12 →
        ∃ t, exec (.bridgeJoin .adm (idByte b) (idByte M) gain) s = .next t ∧ rest t ∧
          answered t .adm .bridgeJoin .done (b2 g ++ b2 (r.contributors.length + 1)) ∧
          (t.bridges.get b).contributors = r.contributors ++ [⟨x, g, 0, .conference⟩]) ∧
      (isConference s b x = true →
        ∃ t, exec (.bridgeJoin .adm (idByte b) (idByte M) gain) s = .next t ∧ rest t ∧
          answered t .adm .bridgeJoin .done (b2 g ++ b2 r.contributors.length) ∧
          t.bridges.get b = { r with
            contributors := r.contributors.map fun c => if c.source = x then { c with gain := g } else c })) ∧
    (isConference s b x = true →
      ∃ t, exec (.bridgeLeave .adm (idByte b) (idByte M)) s = .next t ∧ rest t ∧
        answered t .adm .bridgeLeave .done [] ∧
        (t.bridges.get b).contributors = r.contributors.filter fun c => c.source ≠ x) ∧
    (isConference s b x = false →
      ∃ t, exec (.bridgeLeave .adm (idByte b) (idByte M)) s = .next t ∧ rest t ∧ onlyLinks s t ∧
        answered t .adm .bridgeLeave .notBound [])

/-! ## Talk and hoots -/

/-- TALK_ON on a key that holds a line (R129): the MIC talks on the key, and its source joins the line's bridge; a key
without a channel is given the lowest FREE one under the policy RECORD, or an UNRECORDED record is written; TALK_GRANT
and TALK_STATE follow. A MIC that already talks on the key changes nothing. The fields of TALK_STATE for a line talk
are notes/assumptions/9.md, the channel's byte in the body is notes/assumptions/39.md. -/
def Obligations.LineTalkOn : Prop :=
  ∀ (l : LinkId) (p : PosId) (k : KeyId) (L : LineId) (b : BridgeId) (ch : Option ChanId) (s : State),
    mayTake s l .talkOn (some p) → (s.positions.get p).isOpen = true → s.posUp p = true →
    s.binding p (.key k) = .holder L → (s.lines.get L).bridge = some b →
    let x := micSource p
    let wants : Bool := (s.lines.get L).policy = .record ∧ channelAt s p (.key k) = none
    getsChannel s wants p (.key k) ch →
    ((s.positions.get p).mic = .talk k →
      ∃ t, exec (.talkOn l (idByte p) (idByte k)) s = .next t ∧ onlyLinks s t ∧ noNotice s t ∧
        answered t l .talkOn .done (bOpt ((channelAt s p (.key k)).map (·.val)))) ∧
    ((s.positions.get p).mic = .none → (s.bridges.get b).contributors.length < 12 → (s.bridges.get b).has x = false →
      let u := submit { kind := .talkGrant, line := some L, bridge := some b, pos := some p, endpoint := some .mic,
                        key := some k, channel := ch }
        (noteUnrecorded wants ch
          { kind := .unrecorded, pos := some p, endpoint := some (.key k), bridge := some b, line := some L } s)
      ∃ t, exec (.talkOn l (idByte p) (idByte k)) s = .next t ∧ answered t l .talkOn .done (bOpt (ch.map (·.val))) ∧
        t.positions = s.positions.modify p (fun r => { r with mic := .talk k }) ∧
        (∀ d, d ≠ b → t.bridges.get d = s.bridges.get d) ∧ (t.bridges.get b).use = (s.bridges.get b).use ∧
        (t.bridges.get b).contributors = (s.bridges.get b).contributors ++
          [⟨x, min (s.positions.get p).gainMIC 4095, 0, .owner⟩] ∧
        t.channels = withChannel s wants ch (p, .key k) none b s.channels ∧ t.log = u.log ∧
        noNotice (post (posRoute (s.begin (some l)) [p]) (.talkState none k .granted false .none) u) t ∧
        { t with positions := s.positions, bridges := s.bridges, channels := s.channels, log := s.log, links := s.links,
                 origin := s.origin, released := s.released } = s)

/-- TALK_ON on a key that listens to a hoot (R126 to R128), with the MIC free and QUIET and no clash: with a talk slot
open it is GRANTED, the MIC joins the hoot's bridge, under the policy RECORD the lowest FREE channel is ASSIGNED or an
UNRECORDED record written, TALK_GRANT and TALK_STATE follow; with none open it is QUEUED at the tail, and FULL when
eight wait; a position that already has its talk changes nothing. A granted set names each talker's MIC, and
TALK_STATE carries a cause, by notes/assumptions/9.md; the channel's byte in the body is notes/assumptions/39.md, and
the one byte of the index in QUEUED and the talk state of the last case are notes/assumptions/8.md. -/
def Obligations.HootTalkOn : Prop :=
  ∀ (l : LinkId) (p : PosId) (k : KeyId) (b : BridgeId) (h : Hoot) (s : State),
    mayTake s l .talkOn (some p) → (s.positions.get p).isOpen = true → s.posUp p = true → s.mayTalk p b = true →
    s.binding p (.key k) = .listen b → s.hoots.get b = some h →
    let x := micSource p
    let c := Instr.talkOn l (idByte p) (idByte k)
    (p ∈ h.talkers → ∃ t, exec c s = .next t ∧ onlyLinks s t ∧ noNotice s t ∧
      answered t l .talkOn .done (b1 (talkStateOf h p).code ++ (talkStateOf h p).index)) ∧
    (p ∉ h.talkers → (s.positions.get p).mic = .none →
      (∀ ch, getsChannel s h.record p .mic ch → h.granted.length < h.slots → s.active x = false → h.clashing = false →
        clashCondition s h = false → (s.bridges.get b).contributors.length < 12 → (s.bridges.get b).has x = false →
        let timer := if h.talkIdleS = 0 then none else some (1000 * h.talkIdleS)
        let new : Hoot := { h with granted := h.granted ++ [⟨p, k, timer⟩] }
        let u := submit { kind := .talkGrant, hoot := some b, pos := some p, endpoint := some .mic, key := some k,
                          channel := ch, parties := some (new.granted.map fun y => (y.pos, .mic)) }
          (noteUnrecorded h.record ch { kind := .unrecorded, pos := some p, endpoint := some .mic, key := some k,
                                        bridge := some b, hoot := some b } s)
        ∃ t, exec c s = .next t ∧ answered t l .talkOn .granted (b2 new.granted.length ++ [0#8] ++
            bOpt (ch.map (·.val))) ∧
          t.positions = s.positions.modify p (fun r => { r with mic := .talk k }) ∧
          t.hoots = s.hoots.set b (some new) ∧ (∀ d, d ≠ b → t.bridges.get d = s.bridges.get d) ∧
          (t.bridges.get b).contributors = (s.bridges.get b).contributors ++
            [⟨x, min (s.positions.get p).gainMIC 4095, 0, .owner⟩] ∧
          t.channels = withChannel s h.record ch (p, .mic) (some k) b s.channels ∧ t.log = u.log ∧
          noNotice (post (posRoute (s.begin (some l)) [p]) (.talkState (some b) k .granted false .none) u) t ∧
          { t with positions := s.positions, bridges := s.bridges, hoots := s.hoots, channels := s.channels,
                   log := s.log, links := s.links, origin := s.origin, released := s.released } = s) ∧
      (h.slots ≤ h.granted.length → h.queue.length < 8 →
        ∃ t, exec c s = .next t ∧ answered t l .talkOn .queued [BitVec.ofNat 8 h.queue.length] ∧
          t.hoots = s.hoots.set b (some { h with queue := h.queue ++ [(p, k)] }) ∧
          noNotice (post (posRoute (s.begin (some l)) [p])
            (.talkState (some b) k (.queued h.queue.length) h.clashing .none) s) t ∧
          { t with hoots := s.hoots, links := s.links, origin := s.origin, released := s.released } = s) ∧
      (h.slots ≤ h.granted.length → 8 ≤ h.queue.length →
        ∃ t, exec c s = .next t ∧ onlyLinks s t ∧ noNotice s t ∧ answered t l .talkOn .full []))

/-- TALK_OFF (R130, R132, R133): a line talk ends with TALK_END and TALK_STATE; a grant ends likewise, its channel is
released, and with no one waiting and no clash nothing follows; a queue entry goes with TALK_STATE alone; a key
without talk changes nothing. The response shows NONE. The TALK_END of a line talk names the MIC and no channel, and
TALK_STATE carries its fields, by notes/assumptions/9.md. -/
def Obligations.TalkOffTaken : Prop :=
  ∀ (l : LinkId) (p : PosId) (k : KeyId) (s : State),
    mayTake s l .talkOff (some p) → (s.positions.get p).isOpen = true →
    let x := micSource p
    let c := Instr.talkOff l (idByte p) (idByte k)
    let told (hoot : Option BridgeId) (clashing : Bool) (u t : State) : Prop :=
      noNotice (post (posRoute (s.begin (some l)) [p]) (.talkState hoot k .none clashing .none) u) t
    let quiet (t : State) : Prop := (t.positions = s.positions.modify p fun r => { r with mic := .none }) ∧
      { t with positions := s.positions, bridges := s.bridges, hoots := s.hoots, channels := s.channels, log := s.log,
               links := s.links, origin := s.origin, released := s.released } = s
    (s.binding p (.key k) = .none ∨ (∃ L, s.binding p (.key k) = .holder L ∧ (s.positions.get p).mic ≠ .talk k) ∨
        (∃ b h, s.binding p (.key k) = .listen b ∧ s.hoots.get b = some h ∧ p ∉ h.talkers) →
      ∃ t, exec c s = .next t ∧ onlyLinks s t ∧ noNotice s t ∧ answered t l .talkOff .done [0#8, 0xFF#8]) ∧
    (∀ L b, s.binding p (.key k) = .holder L → (s.positions.get p).mic = .talk k → (s.lines.get L).bridge = some b →
      let u := submit { kind := .talkEnd, line := some L, bridge := some b, pos := some p, endpoint := some .mic,
                        key := some k, cause := some .none } s
      ∃ t, exec c s = .next t ∧ answered t l .talkOff .done [0#8, 0xFF#8] ∧ quiet t ∧ t.hoots = s.hoots ∧
        t.channels = s.channels ∧ t.log = u.log ∧ (∀ d, d ≠ b → t.bridges.get d = s.bridges.get d) ∧
        (t.bridges.get b).contributors = ((s.bridges.get b).contributors.filter fun y => y.source ≠ x) ∧
        told none false u t) ∧
    (∀ b h g, s.binding p (.key k) = .listen b → s.hoots.get b = some h → h.talker p = some g → g.key = k →
      (s.positions.get p).mic = .talk k → h.queue = [] → h.clashing = false → clashCondition s h = false →
      let rest := h.granted.filter fun y => y.pos ≠ p
      let u := submit { kind := .talkEnd, hoot := some b, pos := some p, endpoint := some .mic, key := some k,
                        channel := channelAt s p .mic, cause := some .none,
                        parties := some (rest.map fun y => (y.pos, .mic)) } s
      ∃ t, exec c s = .next t ∧ answered t l .talkOff .done [0#8, 0xFF#8] ∧ quiet t ∧
        t.hoots = s.hoots.set b (some { h with granted := rest }) ∧
        t.channels = (match channelAt s p .mic with | some d => s.channels.set d none | none => s.channels) ∧
        t.log = u.log ∧ (∀ d, d ≠ b → t.bridges.get d = s.bridges.get d) ∧
        (t.bridges.get b).contributors = ((s.bridges.get b).contributors.filter fun y => y.source ≠ x) ∧
        told (some b) false u t) ∧
    (∀ b h, s.binding p (.key k) = .listen b → s.hoots.get b = some h → h.talker p = none → h.queued p = some (p, k) →
      ∃ t, exec c s = .next t ∧ (p ∉ (h.queue.filter (· ≠ (p, k))).map (·.1) →
          answered t l .talkOff .done [0#8, 0xFF#8]) ∧
        t.hoots = s.hoots.set b (some { h with queue := h.queue.filter (· ≠ (p, k)) }) ∧
        told (some b) h.clashing s t ∧
        { t with hoots := s.hoots, links := s.links, origin := s.origin, released := s.released } = s)

/-- Promotion (R131): the end of a grant by TALK_OFF opens a slot, and the head of the talk queue leaves the queue.
Where its key still listens to the hoot and its MIC is free it is GRANTED: its MIC joins, a channel is asked for under
the policy RECORD (the one just released is not FREE for it: R156), TALK_GRANT and TALK_STATE follow. Where its key
has left, or its MIC is in use, it is dropped with TALK_DROPPED STALE. Here no trunk leg is ACTIVE, so no clash is
concerned; the records' parties and TALK_STATE are notes/assumptions/9.md. The reason 0xFF of an entry whose key has
left the hoot is the model's choice, notes/assumptions/43.md. -/
def Obligations.PromotionTaken : Prop :=
  ∀ (l : LinkId) (p q : PosId) (k j : KeyId) (b : BridgeId) (h : Hoot) (g : Talker) (rest : List (PosId × KeyId))
    (s : State),
    mayTake s l .talkOff (some p) → (s.positions.get p).isOpen = true → s.binding p (.key k) = .listen b →
    s.hoots.get b = some h → h.talker p = some g → g.key = k → (s.positions.get p).mic = .talk k →
    h.queue = (q, j) :: rest → q ≠ p → h.clashing = false →
    (∀ x ∈ h.legs, x.joined = true → s.active (lineSource x.line) = false) →
    let left := h.granted.filter fun y => y.pos ≠ p
    left.length + 1 = h.slots →
    let tell (x : PosId) (n : Notice) (u : State) : State := post (posRoute (s.begin (some l)) [x]) n u
    let u := tell p (.talkState (some b) k .none false .none)
      (submit { kind := .talkEnd, hoot := some b, pos := some p, endpoint := some .mic, key := some k,
                channel := channelAt s p .mic, cause := some .none, parties := some (left.map fun y => (y.pos, .mic)) } s)
    let cs := (s.bridges.get b).contributors.filter fun y => y.source ≠ micSource p
    let freed := match channelAt s p .mic with | some d => s.channels.set d none | none => s.channels
    let quiet (t : State) : Prop :=
      (∀ d, d ≠ b → t.bridges.get d = s.bridges.get d) ∧
      { t with positions := s.positions, bridges := s.bridges, hoots := s.hoots, channels := s.channels, log := s.log,
               links := s.links, origin := s.origin, released := s.released } = s
    (s.binding q (.key j) = .listen b → (s.positions.get q).isOpen = true → s.posUp q = true →
      (s.positions.get q).mic = .none → cs.length < 12 → (s.bridges.get b).has (micSource q) = false →
      ∀ ch, getsChannel s h.record q .mic ch →
      let timer := if s.active (micSource q) = true ∨ h.talkIdleS = 0 then none else some (1000 * h.talkIdleS)
      let granted := left ++ [⟨q, j, timer⟩]
      let v := submit { kind := .talkGrant, hoot := some b, pos := some q, endpoint := some .mic, key := some j,
                        channel := ch, parties := some (granted.map fun y => (y.pos, .mic)) }
        (noteUnrecorded h.record ch { kind := .unrecorded, pos := some q, endpoint := some .mic, key := some j,
                                      bridge := some b, hoot := some b } u)
      ∃ t, exec (.talkOff l (idByte p) (idByte k)) s = .next t ∧ quiet t ∧
        t.hoots = s.hoots.set b (some { h with granted := granted, queue := rest }) ∧
        t.positions = (s.positions.modify p fun r => { r with mic := .none }).modify q
          (fun r => { r with mic := .talk j }) ∧
        (t.bridges.get b).contributors = cs ++ [⟨micSource q, min (s.positions.get q).gainMIC 4095, 0, .owner⟩] ∧
        t.channels = withChannel s h.record ch (q, .mic) (some j) b freed ∧ t.log = v.log ∧
        noNotice (tell q (.talkState (some b) j .granted false .none) v) t) ∧
    (rest = [] → ∀ reason : Option Result,
      (s.binding q (.key j) ≠ .listen b ∧ reason = none ∨
        s.binding q (.key j) = .listen b ∧ (s.positions.get q).isOpen = true ∧ s.posUp q = true ∧
          (s.positions.get q).mic ≠ .none ∧ reason = some .inUse) →
      ∃ t, exec (.talkOff l (idByte p) (idByte k)) s = .next t ∧ quiet t ∧
        t.hoots = s.hoots.set b (some { h with granted := left, queue := [] }) ∧
        t.positions = s.positions.modify p (fun r => { r with mic := .none }) ∧
        (t.bridges.get b).contributors = cs ∧ t.channels = freed ∧ t.log = u.log ∧
        noNotice (tell q (.talkDropped b j .stale reason) u) t)

/-- HOOT_DEFINE on a FREE bridge (R121, R122): the hoot has the fields given, clamped, and the defaults of R120; each
leg whose line is IDLE is JOINED with its gain, the others are OUT; the idle timer runs from the quiet period unless a
leg is ACTIVE. On a hoot without talk the present fields replace the stored ones; without a leg list the legs stand;
with one, the old legs that it lacks leave, those it keeps take their new gain, and the others are appended.
HOOT_REMOVE (R123) of a hoot without talk frees its bridge and unbinds the keys that listen to it. In the HOOT_DEFINE
body, the count byte before the legs and the codes JOINED 0 and OUT 1 are the model's choice, notes/assumptions/8.md.
-/
def Obligations.HootDefineRemove : Prop :=
  (∀ (b : BridgeId) (f : HootFields) (legs : List (LineId × Half)) (policy : Option ClashPolicy)
    (recorded : Option Bool) (s : State), s.latch .adm = none → f.fits = true →
    (s.bridges.get b).use = .free → s.hoots.get b = none → hootCount s < 32 →
    f.legs.getD [] = legs.map (fun x => (idByte x.1, x.2)) → optCode clashPolicyOf f.policy = some policy →
    optCode yesNoOf f.record = some recorded → (legs.map (·.1)).Nodup →
    (∀ x ∈ legs, (s.lines.get x.1).ltype = .ht ∧ legOf s x.1 = none) →
    let num (lo top old : Nat) (v : Option Half) : Nat :=
      match v with | some x => max lo (min x.toNat top) | none => old
    let idle (x : LineId × Half) : Bool := (s.lines.get x.1).state = .idle
    let new : Hoot :=
      { slots := num 1 4 1 f.slots
        talkIdleS := match f.talkIdleS with
          | some v => if v.toNat = 0 then 0 else max 5 (min v.toNat 300)
          | none => 0
        quietS := num 1 600 10 f.quietS
        policy := policy.getD .localPriority
        shift := num 0 12 2 f.shift
        record := recorded.getD false
        legs := legs.map fun x => ⟨x.1, min x.2.toNat 4095, idle x⟩
        granted := []
        queue := []
        clashing := false
        live := false }
    let cs : List Contrib := (legs.filter idle).map fun x => ⟨lineSource x.1, min x.2.toNat 4095, 0, .owner⟩
    let act := cs.any fun c => s.active c.source
    ∃ t, exec (.hootDefine .adm (idByte b) f) s = .next t ∧ noNotice s t ∧
      answered t .adm .hootDefine .done (bHootFields new ++
        bList (fun x => b1 x.line.val ++ b2 x.gain ++ [if x.joined then 0#8 else 1#8]) new.legs) ∧
      t.hoots = s.hoots.set b (some new) ∧
      t.bridges = s.bridges.set b
        { use := .hoot
          contributors := cs
          period := 1000 * new.quietS
          mask := .both
          active := act
          idle := if act then none else some (1000 * new.quietS) } ∧
      { t with hoots := s.hoots, bridges := s.bridges, links := s.links, origin := s.origin,
               released := s.released } = s) ∧
  (∀ (b : BridgeId) (h : Hoot) (f : HootFields) (legs : List (LineId × Half)) (policy : Option ClashPolicy)
    (recorded : Option Bool) (s : State), s.latch .adm = none → f.fits = true →
    (s.bridges.get b).use = .hoot → s.hoots.get b = some h → h.granted = [] → h.queue = [] →
    (∀ xs, f.legs = some xs → xs = legs.map fun x => (idByte x.1, x.2)) → optCode clashPolicyOf f.policy = some policy →
    optCode yesNoOf f.record = some recorded → (legs.map (·.1)).Nodup →
    (∀ x ∈ legs, (s.lines.get x.1).ltype = .ht ∧ (legOf s x.1 = none ∨ legOf s x.1 = some b) ∧
      ((∀ y ∈ h.legs, y.line ≠ x.1) → (s.bridges.get b).has (lineSource x.1) = false)) →
    h.clashing = false → (s.bridges.get b).contributors.length + legs.length ≤ 12 →
    let num (lo top old : Nat) (v : Option Half) : Nat :=
      match v with | some x => max lo (min x.toNat top) | none => old
    let idle (x : LineId × Half) : Bool := (s.lines.get x.1).state = .idle
    let kept (L : LineId) : Option (LineId × Half) := legs.find? fun x => x.1 = L
    let fresh := legs.filter fun x => h.legs.all fun y => y.line ≠ x.1
    let cs := (s.bridges.get b).contributors
    let new : Hoot :=
      { h with
        slots := num 1 4 h.slots f.slots
        talkIdleS := match f.talkIdleS with
          | some v => if v.toNat = 0 then 0 else max 5 (min v.toNat 300)
          | none => h.talkIdleS
        quietS := num 1 600 h.quietS f.quietS
        policy := policy.getD h.policy
        shift := num 0 12 h.shift f.shift
        record := recorded.getD h.record
        legs := if f.legs = none then h.legs else
          (h.legs.filterMap fun y => (kept y.line).map fun x => { y with gain := min x.2.toNat 4095 }) ++
            fresh.map fun x => ⟨x.1, min x.2.toNat 4095, idle x⟩ }
    ∃ t, exec (.hootDefine .adm (idByte b) f) s = .next t ∧ noNotice s t ∧
      answered t .adm .hootDefine .done (bHootFields new ++
        bList (fun x => b1 x.line.val ++ b2 x.gain ++ [if x.joined then 0#8 else 1#8]) new.legs) ∧
      t.hoots = s.hoots.set b (some new) ∧ (∀ d, d ≠ b → t.bridges.get d = s.bridges.get d) ∧
      (let r := t.bridges.get b
       r.use = .hoot ∧ r.period = 1000 * new.quietS ∧ r.mask = .both ∧
       r.idle = (if r.contributors.any (fun c => s.active c.source) ∨ new.quietS = 0 then none
         else some (1000 * new.quietS)) ∧
       r.contributors = if f.legs = none then cs else
         ((cs.filter fun c => h.legs.all fun y => !(y.joined && lineSource y.line = c.source && (kept y.line).isNone)).map
           fun c => match legs.find? fun x => lineSource x.1 = c.source && h.legs.any fun y => y.line = x.1 with
             | some x => { c with gain := min x.2.toNat 4095 }
             | none => c) ++
          (fresh.filter idle).map fun x => ⟨lineSource x.1, min x.2.toNat 4095, 0, .owner⟩) ∧
      { t with hoots := s.hoots, bridges := s.bridges, links := s.links, origin := s.origin,
               released := s.released } = s) ∧
  ∀ (b : BridgeId) (h : Hoot) (s : State), s.latch .adm = none → s.hoots.get b = some h → h.granted = [] →
    h.queue = [] →
    ∃ t, exec (.hootRemove .adm (idByte b)) s = .next t ∧
      answered t .adm .hootRemove .done (b2 (listeners s b).length) ∧ t.hoots = s.hoots.set b none ∧
      t.bridges = s.bridges.set b Bridge.reset ∧ t.log = s.log ∧ t.lines = s.lines ∧ t.channels = s.channels ∧
      (∀ p k, s.binding p (.key k) = .listen b → t.binding p (.key k) = .none) ∧
      (∀ p k, s.binding p (.key k) ≠ .listen b → t.binding p (.key k) = s.binding p (.key k)) ∧ onlyCalls s t

/-! ## Intercom -/

/-- ICM_DIAL (R106, R107) and ICM_GROUP (R108) by an idle caller with a free endpoint: the lowest FREE bridge carries
the call, the caller joins it and is CALLING; the target, or each available member, is ALERTED, hears a VOICE or group
call, and its link receives ICM_ALERT, or the call waits at a busy target, whose link receives ICM_WAITING; under the
policy RECORD the caller gets the lowest FREE channel, or an UNRECORDED record is written (R116); ICM_START is
written. The channel's byte in the bodies is notes/assumptions/39.md. -/
def Obligations.IcmCallsPlaced : Prop :=
  ∀ (l : LinkId) (p : PosId) (e : Endpoint) (c : BridgeId) (held : Option ChanId) (s : State),
    (s.positions.get p).isOpen = true → s.posUp p = true → (s.perms.get p).icm = true → (e = .ha ∨ e = .hb ∨ e = .mic) →
    s.binding p e = .none → s.icmState p = .idle →
    (s.bridges.get c).use = .free → (∀ d, d < c → (s.bridges.get d).use ≠ .free) →
    getsChannel s s.icmRecord p e held →
    let ch := bOpt (held.map (·.val))
    let tell (q : PosId) (n : Notice) (u : State) : State := post (posRoute (s.begin (some l)) [q]) n u
    let placed (t : State) (mode : CallMode) (group : Option GroupId) (presented : List Presented) (told : State) :
        Prop :=
      let u := submit { kind := .icmStart, bridge := some c, pos := some p, endpoint := some e, group := group,
                        channel := held, parties := some [(p, e)] }
        (noteUnrecorded s.icmRecord held
          { kind := .unrecorded, pos := some p, endpoint := some e, bridge := some c } told)
      noNotice u t ∧ t.log = u.log ∧ t.channels = withChannel s s.icmRecord held (p, e) none c s.channels ∧
      t.calls = s.calls.set c (some ⟨mode, group, (p, e), presented, [(p, e)], false, some (1000 * s.icmAlertS)⟩) ∧
      t.binding p e = .icm c ∧ t.icmState p = .calling c ∧
      (t.positions.get p).feed = (if e = .mic then some c else (s.positions.get p).feed) ∧
      (∀ d, d ≠ c → t.bridges.get d = s.bridges.get d) ∧ (t.bridges.get c).use = .icm ∧
      (t.bridges.get c).contributors =
        (endpointSource p e).toList.map (fun x => ⟨x, min ((s.positions.get p).gain e) 4095, 0, .owner⟩) ∧
      { t with positions := s.positions, bridges := s.bridges, icm := s.icm, calls := s.calls,
               channels := s.channels, log := s.log, links := s.links, origin := s.origin, released := s.released } = s
    (∀ (q : PosId) (voice : Bool), mayTake s l .icmDial (some p) → q ≠ p → (s.positions.get q).isOpen = true →
      s.posUp q = true → (s.perms.get q).icm = true →
      let mode : CallMode := if voice then .voice else .tone
      let r := exec (.icmDial l (idByte p) (endByte e) (idByte q) (if voice then 0#8 else 1#8)) s
      (s.icmState q = .idle → ∃ t, r = .next t ∧ answered t l .icmDial .done ([idByte c, 0#8] ++ ch) ∧
        placed t mode none [⟨q, false⟩] (tell q (.icmAlert c (p, e) mode voice) s) ∧
        t.icmState q = .alerted c ∧ t.waiting q = s.waiting q ∧
        (t.positions.get q).feed = (if voice then some c else (s.positions.get q).feed)) ∧
      (s.icmState q ≠ .idle → s.waiting q = none → ∃ t, r = .next t ∧
        answered t l .icmDial .done ([idByte c, 1#8] ++ ch) ∧
        placed t mode none [⟨q, true⟩] (tell q (.icmWaiting c (p, e)) s) ∧
        t.icmState q = s.icmState q ∧ t.waiting q = some c) ∧
      (s.icmState q ≠ .idle → s.waiting q ≠ none → ∃ t, r = .next t ∧ onlyLinks s t ∧ noNotice s t ∧
        answered t l .icmDial .busy [])) ∧
    ∀ (g : GroupId) (conf : Bool), mayTake s l .icmGroup (some p) →
      let others := (s.groups.get g).filter (· ≠ p)
      let members := others.filter fun q => (s.positions.get q).isOpen && s.posUp q && (s.perms.get q).icm &&
        s.icmState q = .idle
      let mode : CallMode := if conf then .conference else .announceFirst
      let r := exec (.icmGroup l (idByte p) (endByte e) (idByte g) (if conf then 1#8 else 0#8)) s
      (members ≠ [] → ∃ t, r = .next t ∧
        answered t l .icmGroup .done
          (idByte c :: (b2 members.length ++ b2 (others.length - members.length) ++ ch)) ∧
        placed t mode (some g) (members.map fun q => ⟨q, false⟩)
          (members.foldl (fun u q => tell q (.icmAlert c (p, e) mode true) u) s) ∧
        ∀ q ∈ members, t.icmState q = .alerted c ∧ (t.positions.get q).feed = some c) ∧
      (members = [] → ∃ t, r = .next t ∧ onlyLinks s t ∧ noNotice s t ∧
        answered t l .icmGroup .busy (b2 others.length))

/-- ICM_PICKUP of the presented call (R109, R110): the position becomes a party and ACTIVE, and so do the caller and
the call; the answering source joins the call's bridge; CONNECT is written, ICM_STATE goes to the position and to the caller; under the policy RECORD it gets the
lowest FREE channel, or an UNRECORDED record is written (R116). An ANNOUNCE_FIRST call withdraws every other
presentation, in list order, with ICM_STATE ANSWERED_ELSEWHERE (here no call waits at those positions); CONFERENCE and
DIRECT calls withdraw none. A position with nothing presented is NOT_BOUND. ICM_HANGUP (R112, R113): with no call
nothing changes and the response says ENDED; the caller's hangup ends the call whole: its bridge is FREE, every party
is unbound and no longer in the call, and nothing of it is presented: a position that was ALERTED by it no longer is
and is not fed its tap, nor does it stand in a waiting slot. The codes PRESENTING 0, ACTIVE 1 and ENDED 2 are
notes/assumptions/8.md, the channel's byte is notes/assumptions/39.md. The fields of ICM_STATE are
notes/assumptions/9.md, and its cause NONE after an answer is notes/assumptions/21.md: the model's choices. -/
def Obligations.IcmAnswerHangup : Prop :=
  (∀ (l : LinkId) (q : PosId) (e : Endpoint) (s : State), mayTake s l .icmPickup (some q) →
    (s.positions.get q).isOpen = true → s.posUp q = true → (e = .ha ∨ e = .hb ∨ e = .mic) →
    ((∀ c, s.icmState q ≠ .alerted c) → ∃ t, exec (.icmPickup l (idByte q) (endByte e) 0#8) s = .next t ∧
      onlyLinks s t ∧ noNotice s t ∧ answered t l .icmPickup .notBound []) ∧
    ∀ (c : BridgeId) (r : Call) (ch : Option ChanId), s.icmState q = .alerted c → s.calls.get c = some r →
      s.binding q e = .none → getsChannel s s.icmRecord q e ch → (r.mode = .conference → r.parties.length < 12) →
      r.caller.1 ≠ q →
      let rest := r.presented.filter fun x => x.pos ≠ q
      let gone := if r.mode = .announceFirst then rest else []
      (∀ x ∈ gone, x.waiting = false ∧ x.pos ≠ r.caller.1 ∧ s.waiting x.pos = none) →
      let left := if r.mode = .announceFirst then [] else rest
      let new : Call := { r with
        parties := r.parties ++ [(q, e)]
        presented := left
        active := true
        alert := if left.isEmpty then none else r.alert }
      let tell (p : PosId) (n : Notice) (u : State) : State := post (posRoute (s.begin (some l)) [p]) n u
      let u := submit { kind := .connect, bridge := some c, pos := some q, endpoint := some e, channel := ch,
                        parties := some new.parties }
        (noteUnrecorded s.icmRecord ch { kind := .unrecorded, pos := some q, endpoint := some e, bridge := some c }
          (gone.foldl (fun u x => tell x.pos (.icmState x.pos .idle .answeredElsewhere 0) u) s))
      ∃ t, exec (.icmPickup l (idByte q) (endByte e) 0#8) s = .next t ∧
        answered t l .icmPickup .done (1#8 :: (b2 new.parties.length ++ bOpt (ch.map (·.val)))) ∧
        t.calls = s.calls.set c (some new) ∧
        t.icm.get r.caller.1 =
          ⟨if r.active then s.icmState r.caller.1 else .active c, s.waiting r.caller.1⟩ ∧
        (∀ p, p ≠ r.caller.1 → t.icm.get p =
          if p = q then ⟨.active c, s.waiting q⟩ else if p ∈ gone.map (·.pos) then ⟨.idle, none⟩ else s.icm.get p) ∧
        (∀ p, t.positions.get p =
          if p = q then { (s.positions.get q).setBinding e (.icm c) with feed := if e = .mic then some c else none }
          else if p ∈ gone.map (·.pos) then { s.positions.get p with feed := none } else s.positions.get p) ∧
        t.channels = withChannel s s.icmRecord ch (q, e) none c s.channels ∧
        ((∀ y, endpointSource q e = some y →
            (s.bridges.get c).has y = false ∧ (s.bridges.get c).contributors.length < 12) →
          (t.bridges.get c).contributors = (s.bridges.get c).contributors ++
            (endpointSource q e).toList.map (fun x => ⟨x, min ((s.positions.get q).gain e) 4095, 0, .owner⟩)) ∧
        t.log = u.log ∧ (∀ d, d ≠ c → t.bridges.get d = s.bridges.get d) ∧
        (let about (p : PosId) : State → State := tell p (.icmState p (t.icmState p) .none (partyCount t p))
         noNotice (about r.caller.1 (about q u)) t) ∧
        { t with positions := s.positions, bridges := s.bridges, icm := s.icm, calls := s.calls,
                 channels := s.channels, log := s.log, links := s.links, origin := s.origin,
                 released := s.released } = s) ∧
  ∀ (l : LinkId) (p : PosId) (s : State), mayTake s l .icmHangup (some p) → (s.positions.get p).isOpen = true →
    (s.icmState p = .idle → ∃ t, exec (.icmHangup l (idByte p)) s = .next t ∧ onlyLinks s t ∧ noNotice s t ∧
      answered t l .icmHangup .done [2#8]) ∧
    ∀ (c : BridgeId) (r : Call), s.calls.get c = some r →
      (s.icmState p = .calling c ∨ s.icmState p = .active c ∧ r.caller.1 = p) →
      ∃ t, exec (.icmHangup l (idByte p)) s = .next t ∧ answered t l .icmHangup .done [2#8] ∧
        t.calls.get c = none ∧ t.bridges.get c = Bridge.reset ∧ onlyCalls s t ∧ t.lines = s.lines ∧ t.hoots = s.hoots ∧
        (∀ x ∈ r.parties, t.binding x.1 x.2 = .none ∧ t.icmState x.1 ≠ .calling c ∧ t.icmState x.1 ≠ .active c) ∧
        ∀ x ∈ r.presented,
          (x.waiting = true → t.waiting x.pos = none) ∧
          (x.waiting = false → s.waiting x.pos ≠ some c →
            t.icmState x.pos ≠ .alerted c ∧ (t.positions.get x.pos).feed ≠ some c) ∧
          (x.waiting = false → s.waiting x.pos = none →
            t.icmState x.pos = .idle ∧ (t.positions.get x.pos).feed = none)

/-- The other ends of an intercom relation, by ICM_HANGUP (R112, R113): the one target of a DIRECT call that declines
it ends the call, with NO_ANSWER to the caller; one of several presented positions that declines just leaves; a party
of a GROUP call that goes on leaves with DISCONNECT, ICM_STATE HUNG_UP, and ICM_STATE PARTY_LEFT to the caller.
ICM_PICKUP of the waiting call (R111) by a party of such a GROUP call leaves that call so and answers the waiting one,
which becomes ACTIVE with its caller (a waiting call is DIRECT, so its presented list is then empty and its alert
timer stopped), and asks for a channel under the policy RECORD (R116, R156). Nothing waits at the positions that
return to IDLE. What rests on the model's choices: the body codes PRESENTING 0, ACTIVE 1 and ENDED 2
(notes/assumptions/8.md); the fields of ICM_STATE (notes/assumptions/9.md); its causes HUNG_UP to the party that
leaves, PARTY_LEFT to the caller that stays, and NONE after an answer (notes/assumptions/21.md); the cause NONE of the
DISCONNECT (notes/assumptions/28.md); the last byte of the ICM_PICKUP body, the channel or 0xFF
(notes/assumptions/39.md). -/
def Obligations.IcmRelationsEnd : Prop :=
  ∀ (l : LinkId) (p : PosId) (c : BridgeId) (r : Call) (s : State), (s.positions.get p).isOpen = true →
    s.calls.get c = some r → r.caller.1 ≠ p →
    let a := r.caller
    let tell (x : PosId) (n : Notice) (u : State) : State := post (posRoute (s.begin (some l)) [x]) n u
    let others := r.presented.filter fun x => x.pos ≠ p
    let only (t : State) : Prop :=
      { t with positions := s.positions, bridges := s.bridges, icm := s.icm, calls := s.calls,
               channels := s.channels, log := s.log, links := s.links, origin := s.origin,
               released := s.released } = s
    let freed (x : PosId × Endpoint) : Tab (Option Channel) 64 :=
      match channelAt s x.1 x.2 with | some d => s.channels.set d none | none => s.channels
    (mayTake s l .icmHangup (some p) → s.icmState p = .alerted c → s.waiting p = none →
      (others = [] → r.active = false → r.parties = [a] → s.binding a.1 a.2 = .icm c →
        (a.2 = .ha ∨ a.2 = .hb ∨ a.2 = .mic) →
        s.waiting a.1 = none →
        let u := tell a.1 (.icmState a.1 .idle .declined 0)
          (tell a.1 (.bindingLost a.1 a.2 (.icm c) .ended) (tell p (.icmState p .idle .declined 0) s))
        let v := submit { kind := .icmEnd, bridge := some c, pos := some a.1, endpoint := some a.2,
                          cause := some .declined, parties := some [a] } u
        ∃ t, exec (.icmHangup l (idByte p)) s = .next t ∧ answered t l .icmHangup .done [2#8] ∧ only t ∧
          t.calls = s.calls.set c none ∧ t.bridges = s.bridges.set c Bridge.reset ∧
          t.icmState p = .idle ∧ t.icmState a.1 = .idle ∧ (∀ x, x ≠ p → x ≠ a.1 → t.icm.get x = s.icm.get x) ∧
          t.positions = ((s.positions.modify p fun x => { x with feed := none }).modify a.1 fun x =>
            { x.setBinding a.2 .none with feed := none }) ∧
          t.channels = freed a ∧ t.log = v.log ∧ noNotice (tell a.1 (.noAnswer c .declined) v) t) ∧
      (others ≠ [] →
        ∃ t, exec (.icmHangup l (idByte p)) s = .next t ∧
          answered t l .icmHangup .done [if r.active then 1#8 else 0#8] ∧ only t ∧
          t.calls = s.calls.set c (some { r with presented := others }) ∧ t.bridges = s.bridges ∧
          t.icm = s.icm.set p ⟨.idle, none⟩ ∧ t.positions = s.positions.modify p (fun x => { x with feed := none }) ∧
          t.channels = s.channels ∧ t.log = s.log ∧ noNotice (tell p (.icmState p .idle .declined 0) s) t)) ∧
    ∀ (e : Endpoint), s.icmState p = .active c → (r.parties.find? fun x => x.1 = p) = some (p, e) →
      s.binding p e = .icm c → (e = .ha ∨ e = .hb ∨ e = .mic) → r.group.isSome → s.icmState a.1 = .active c →
      let stay := r.parties.filter fun x => x.1 ≠ p
      2 ≤ stay.length →
      let u := tell a.1 (.icmState a.1 (.active c) .partyLeft stay.length) (tell p (.icmState p .idle .hungUp 0)
        (submit { kind := .disconnect, bridge := some c, pos := some p, endpoint := some e,
                  channel := channelAt s p e, cause := some .none, parties := some stay } s))
      let cs (b : BridgeId) (x : Endpoint) : List Contrib := match endpointSource p x with
        | some y => (s.bridges.get b).contributors.filter fun z => z.source ≠ y
        | none => (s.bridges.get b).contributors
      (mayTake s l .icmHangup (some p) → s.waiting p = none →
        ∃ t, exec (.icmHangup l (idByte p)) s = .next t ∧
          answered t l .icmHangup .done [if r.active then 1#8 else 0#8] ∧ only t ∧
          t.calls = s.calls.set c (some { r with parties := stay }) ∧
          (∀ d, d ≠ c → t.bridges.get d = s.bridges.get d) ∧ (t.bridges.get c).contributors = cs c e ∧
          t.icm = s.icm.set p ⟨.idle, none⟩ ∧
          t.positions = s.positions.modify p (fun x => { x.setBinding e .none with feed := none }) ∧
          t.channels = freed (p, e) ∧ t.log = u.log ∧ noNotice u t) ∧
      ∀ (d : BridgeId) (w : Call), mayTake s l .icmPickup (some p) → s.posUp p = true →
        s.waiting p = some d → d ≠ c → s.calls.get d = some w → w.caller.1 ≠ p →
        w.caller.1 ≠ a.1 → w.mode ≠ .announceFirst → (w.mode = .conference → w.parties.length < 12) →
        (w.active = false ∧ s.icmState w.caller.1 = .calling d ∨
          w.active = true ∧ s.icmState w.caller.1 = .active d) →
        (∀ x y, s.channels.get x = some y → y.pos = p → y.endpoint = e → channelAt s p e = some x) →
        (∀ y, endpointSource p e = some y →
          (s.bridges.get d).has y = false ∧ (s.bridges.get d).contributors.length < 12) →
        let left := w.presented.filter fun x => x.pos ≠ p
        let n := w.parties.length + 1
        ∀ ch, (if s.icmRecord then lowestFree s ch else ch = none) →
        let v := submit { kind := .connect, bridge := some d, pos := some p, endpoint := some e, channel := ch,
                          parties := some (w.parties ++ [(p, e)]) }
          (noteUnrecorded s.icmRecord ch { kind := .unrecorded, pos := some p, endpoint := some e, bridge := some d } u)
        ∃ t, exec (.icmPickup l (idByte p) (endByte e) 1#8) s = .next t ∧
          answered t l .icmPickup .done ([1#8] ++ b2 n ++ bOpt (ch.map (·.val))) ∧ only t ∧
          t.calls = (s.calls.set c (some { r with parties := stay })).set d (some { w with
            parties := w.parties ++ [(p, e)]
            presented := left
            active := true
            alert := if left.isEmpty then none else w.alert }) ∧
          (t.bridges.get c).contributors = cs c e ∧
          (t.bridges.get d).contributors = (s.bridges.get d).contributors ++
            (endpointSource p e).toList.map (fun x => ⟨x, min ((s.positions.get p).gain e) 4095, 0, .owner⟩) ∧
          (∀ b, b ≠ c → b ≠ d → t.bridges.get b = s.bridges.get b) ∧ 
          t.icm = (s.icm.set p ⟨.active d, none⟩).set w.caller.1 ⟨.active d, s.waiting w.caller.1⟩ ∧
          t.positions = s.positions.modify p (fun x =>
            { x.setBinding e (.icm d) with feed := if e = .mic then some d else none }) ∧
          t.channels = withChannel s s.icmRecord ch (p, e) none d (freed (p, e)) ∧ t.log = v.log ∧
          noNotice (tell w.caller.1 (.icmState w.caller.1 (.active d) .none n)
            (tell p (.icmState p (.active d) .none n) v)) t

/-! ## The whole part, the detail log and the recorder -/

/-- PART_CLEAR (R189, with R16, R42, R87, R118, R139, R165): every call and every talk has ended, no position holds
anything but its listener keys, every hoot has no talker and no clash, every line that was OFFERED, ALERTING, CONNECTED,
HELD or CLEARING is IDLE, no line has a holder, a monitor, a hold owner or a bridge, every camp queue is empty, every
LINE and ICM bridge and every channel is FREE; CLEAR is the last record unless the log is LOST; every link's queue holds
one RESYNC. The body counts lines, calls and talks (notes/assumptions/18.md). Settings and permissions stand. -/
def Obligations.PartClearTaken : Prop :=
  ∀ s : State, s.latch .adm = none → ∃ t, exec (.partClear .adm) s = .next t ∧
    answered t .adm .partClear .done
      (b2 (s.lines.list.filter fun r => r.state = .connected || r.state = .held).length ++
        b2 (s.calls.list.filter Option.isSome).length ++ b2 (talkCount s)) ∧ onlyCalls s t ∧
    (∀ c, t.calls.get c = none ∧ ((s.calls.get c).isSome → t.bridges.get c = Bridge.reset)) ∧
    (∀ b, t.hoots.get b = (s.hoots.get b).map fun h => { h with granted := [], queue := [], clashing := false }) ∧
    (∀ p, HoldsNothing t p ∧ ∀ k,
      ((∀ b, s.binding p (.key k) ≠ .listen b) → t.binding p (.key k) = .none) ∧
      ∀ b, s.binding p (.key k) = .listen b →
        (∀ L, (p, .key k) ∉ (s.lines.get L).holders ++ (s.lines.get L).monitors) →
        (∀ c r, s.calls.get c = some r → (p, .key k) ∉ r.parties) → t.binding p (.key k) = .listen b) ∧
    (∀ b, ((s.bridges.get b).use = .icm ∨ ∃ L, (s.bridges.get b).use = .line L) → t.bridges.get b = Bridge.reset) ∧
    (∀ c, t.channels.get c = none) ∧
    (∀ L, let r := s.lines.get L
      (t.lines.get L).state = (if r.state = .disabled ∨ r.state = .outOfService then r.state else .idle) ∧
      (t.lines.get L).camp = [] ∧ (t.lines.get L).timer = none ∧ (t.lines.get L).farPresent = false ∧
      (t.lines.get L).pendingRing = false ∧ (t.gens.get L).sustained = false ∧
      (t.lines.get L).holders = [] ∧ (t.lines.get L).monitors = [] ∧ (t.lines.get L).holdOwner = none ∧
      (t.lines.get L).bridge = none) ∧
    (t.log.level ≠ .lost → ∃ r, t.log.queue.getLast? = some r ∧ r.kind = .clear ∧ r.cause = some .admin) ∧
    ∀ l, (t.link l).mask = (s.link l).mask ∧ (t.link l).attention = true ∧ (t.link l).resync = none ∧
      (t.link l).dropped = 0 ∧ ∃ n, (t.link l).queue = [.resync .partClear n]

/-- A record submitted to the detail log (R168 to R170): created and admitted, suppressed, or created and lost, by the
state of the log; the first loss opens the episode, the capture keeps the record that mattered most, the counts stop at
their tops. Nothing but the log and the recorder's notices changes. -/
def Obligations.SubmitTaken : Prop :=
  ∀ (r : Record) (s : State), LogOk s.log →
    let g := s.log
    let n := g.queue.length
    let new : Record := { r with seq := g.seq, time := if s.timeValid then some g.time else none }
    let admitted : Log := { g with queue := g.queue ++ [new], seq := g.seq + 1 }
    let kept : Captured := ⟨new.seq, new.kind, new.time, new.line, new.pos, false⟩
    let lost : Log := { g with
      seq := g.seq + 1
      level := .lost
      totalLost := min (g.totalLost + 1) 65535
      episode := match g.episode with
        | none => some ⟨g.seq, 1⟩
        | some e => some ⟨e.first, min (e.count + 1) (2 ^ 32 - 1)⟩
      captured := match g.captured with
        | none => some kept
        | some c => if c.kind.isCall = false ∧ c.replaced = false ∧ r.kind.isCall = true then
            some { kept with replaced := true } else some c }
    let t := submit r s
    { t with log := s.log, links := s.links } = s ∧
      match g.level with
      | .normal =>
        if n + 1 = g.hw then t.log = { admitted with level := .throttled } ∧
          noNotice (postRecorder (.logLevel .normal .throttled (n + 1)) s) t
        else t.log = admitted ∧ noNotice s t
      | .throttled =>
        if r.kind = .activity ∨ r.kind = .clash then t = s
        else if n < 1024 then t.log = admitted ∧ noNotice s t
        else t.log = lost ∧ noNotice (postRecorder (.logLevel .throttled .lost 1024) s) t
      | .lost => t.log = lost ∧ noNotice s t

/-- LOG_READ (R172): up to eight records leave from the head, and are the last batch when there is one; at low water
the log becomes NORMAL, from LOST with a GAP record (R171). LOG_READ with AGAIN (R173) and LOG_STATUS (R174) change
nothing; GAP_CLEAR (R175) empties the capture and the total lost count. The forms of the bodies (0xFF in an absent
sequence, time, line or position, CALL 0 and OTHER 1, the capture's leading byte) are notes/assumptions/8.md. -/
def Obligations.RecorderReads : Prop :=
  ∀ s : State, LogOk s.log → s.latch .recorder = none →
    let g := s.log
    let body (x : Log) (rs : List Record) : List Byte :=
      b2 rs.length ++ rs.flatMap Record.bytes ++ b1 x.level.code ++ b2 x.queue.length
    let opt4 (v : Option Word) : List Byte := match v with | some w => wordBytes w | none => List.replicate 4 0xFF#8
    let capture : List Byte := (match g.captured with
      | none => [0#8]
      | some c => [1#8] ++ wordBytes c.seq ++ b1 c.kind.code ++ [if c.kind.isCall then 0#8 else 1#8] ++ opt4 c.time ++
          bOpt (c.line.map (·.val)) ++ bOpt (c.pos.map (·.val)) ++ [if c.replaced then 1#8 else 0#8]) ++ b4 g.totalLost
    let status : List Byte :=
      b2 g.queue.length ++ b1 g.level.code ++ b2 g.hw ++ b2 g.lw ++ wordBytes g.seq ++
        opt4 (g.queue.head?.map (·.seq)) ++ opt4 (g.queue.getLast?.map (·.seq)) ++ opt4 (g.episode.map (·.first)) ++
        opt4 (g.episode.map fun e => BitVec.ofNat 32 e.count) ++ capture ++ b2 g.lastBatch.length ++
        opt4 (g.lastBatch.head?.map (·.seq)) ++ opt4 (g.lastBatch.getLast?.map (·.seq)) ++ wordBytes g.time ++
        [if s.timeValid then 1#8 else 0#8]
    (∀ n : Half,
      let k := min (max 1 (min n.toNat 8)) g.queue.length
      let fill := g.queue.length - k
      let g' : Log := { g with queue := g.queue.drop k, lastBatch := if k = 0 then g.lastBatch else g.queue.take k }
      ∃ t, exec (.logRead .recorder n) s = .next t ∧
        answered t .recorder .logRead .done (body t.log (g.queue.take k)) ∧
        { t with log := s.log, links := s.links, origin := s.origin, released := s.released } = s ∧
        (if g.level = .normal ∨ g.lw < fill then t.log = g' ∧ noNotice s t
         else if g.level = .throttled then t.log = { g' with level := .normal } ∧
           noNotice (postRecorder (.logLevel .throttled .normal fill) s) t
         else ∃ gap : Record, gap.kind = .gap ∧ gap.seq = g.seq ∧ gap.firstLost = g.episode.map (·.first) ∧
           gap.lost = g.episode.map (fun e => BitVec.ofNat 32 e.count) ∧
           t.log = { g' with queue := g'.queue ++ [gap], seq := g.seq + 1, episode := none,
                             level := if fill + 1 = g.hw then .throttled else .normal } ∧
           noNotice ((if fill + 1 = g.hw then postRecorder (.logLevel .normal .throttled (fill + 1)) else id)
             (postRecorder (.logLevel .lost .normal (fill + 1)) s)) t)) ∧
    (∀ n : Half, ∃ t, exec (.logReadAgain .recorder n) s = .next t ∧ onlyLinks s t ∧ noNotice s t ∧
      answered t .recorder .logRead .done (body g g.lastBatch)) ∧
    (∃ t, exec (.logStatus .recorder) s = .next t ∧ onlyLinks s t ∧ noNotice s t ∧
      answered t .recorder .logStatus .done status) ∧
    ∃ t, exec (.gapClear .recorder) s = .next t ∧ noNotice s t ∧
      answered t .recorder .gapClear .done capture ∧ t.log = { g with captured := none, totalLost := 0 } ∧
      { t with log := s.log, links := s.links, origin := s.origin, released := s.released } = s

/-! ## Frames, highways and activity -/

/-- FRAME_SYNC_PULSE (R192, with R32, R33, R45, R88, R97): every sink takes the saturated half-up unity value of its
accumulator, and counts a clip where saturation changed it; every detector's energy moves by a 64th of the difference,
rounded down; the frame count advances modulo 32. A QUIET source counts the frames at or above Ton and turns ACTIVE
when that count reaches the onset; an ACTIVE one counts the frames below Toff and turns QUIET at 8 times the hangover,
and at 1 at the least (R46, R47). A highway that is UP goes DOWN with its eighth wrong check slot in a row, one that
is DOWN comes UP with its sixty-fourth correct one (R194). A frame in which nothing of this falls changes nothing but
these counts; one in which one activity event, one highway change or the signalling sample falls, with the presence
bits of R193, has on the state with its counts taken exactly the effect of that event; several are taken in an order
that is free (notes/assumptions/4.md). That the mix comes first, then detectors and check slots, is
notes/assumptions/5.md; that a signalling sample falls on the new frame count 0 is notes/assumptions/6.md. -/
def Obligations.FramePulseTaken : Prop :=
  ∀ (f : InFrame) (s : State), let x := samples s f
    let energy (y : SourceId) : Int := let e : Int := (s.detectors.get y).energy
      max 0 (e + ((magnitude (x.get y) : Int) - e) / 64)
    let vad (y : SourceId) : VadParams := if y.val < 144 then s.vadPos else s.vadLine
    let onset (y : SourceId) : Nat := if ((vad y).ton : Int) ≤ energy y then (s.detectors.get y).onset + 1 else 0
    let hang (y : SourceId) : Nat := if energy y < (vad y).toff then (s.detectors.get y).hang + 1 else 0
    let turns (y : SourceId) : Bool :=
      if (s.detectors.get y).active then decide (1 ≤ hang y ∧ 8 * (vad y).hangMs ≤ hang y)
      else decide ((vad y).onset ≤ onset y)
    let good (slots : Tab Half 64) : Bool := slots.get 63 = 0x6C93#16
    let moves (ok : Bool) (h : Highway) : Bool :=
      if h.up then !ok && decide (8 ≤ h.bad + 1) else ok && decide (64 ≤ h.good + 1)
    let count (ok : Bool) (h : Highway) : Highway :=
      if moves ok h then h
      else if h.up then { h with bad := if ok then 0 else h.bad + 1 }
      else { h with good := if ok then h.good + 1 else 0 }
    ∃ t, exec (.frameSyncPulse f) s = .next t ∧ t.syncPresent = true ∧ t.pulsed = true ∧
      (∀ k, let z := (accumulator s x k + 512) / 1024
        (t.sinkOut.get k).toInt = max (-32768) (min 32767 z) ∧
        t.clips.get k = if -32768 ≤ z ∧ z ≤ 32767 then s.clips.get k else min (s.clips.get k + 1) 65535) ∧
      (∀ L : LineId, t.presenceOut.getLsbD L.val = ((s.gens.get L).sustained || decide (0 < (s.gens.get L).burst))) ∧
      (∀ y, ((t.detectors.get y).energy : Int) = energy y) ∧
      t.frameCount = (s.frameCount + 1) % 32 ∧
      let taken : State := { s with
        sinkOut := t.sinkOut
        recOut := t.recOut
        clips := t.clips
        presenceOut := t.presenceOut
        syncPresent := true
        pulsed := true
        frameCount := t.frameCount
        detectors := s.detectors.mapIdx fun y d =>
          if turns y then { d with energy := (energy y).toNat }
          else if d.active then { d with energy := (energy y).toNat, hang := hang y }
          else { d with energy := (energy y).toNat, onset := onset y }
        posHw := s.posHw.mapIdx fun n h => count (good (f.position.get n)) h
        lineHw := s.lineHw.mapIdx fun n h => count (good (f.line.get n)) h }
      let sources (but : Option SourceId) : Prop := ∀ y, some y ≠ but → turns y = false
      let positions (but : Option HwId) : Prop :=
        ∀ n, some n ≠ but → moves (good (f.position.get n)) (s.posHw.get n) = false
      let lines (but : Option HwId) : Prop := ∀ n, some n ≠ but → moves (good (f.line.get n)) (s.lineHw.get n) = false
      (sources none → positions none → lines none →
        (t.frameCount ≠ 0 → { t with origin := s.origin, released := s.released } = taken) ∧
        (t.frameCount = 0 → ∀ bits : BitVec 192,
          (∀ L : LineId, bits.getLsbD L.val =
            ((f.line.get (Fin.ofNat 4 (L.val / 48))).get (Fin.ofNat 64 (48 + L.val % 48 / 16))).getMsbD (L.val % 16)) →
          exec (.signallingSample bits) taken = .next t)) ∧
      (t.frameCount ≠ 0 →
        (∀ y, turns y = true → sources (some y) → positions none → lines none →
          exec (if (s.detectors.get y).active then .activityEnd y else .activityStart y) taken = .next t) ∧
        (∀ n, moves (good (f.position.get n)) (s.posHw.get n) = true → sources none → positions (some n) → lines none →
          exec (if (s.posHw.get n).up then .positionHighwayDown n else .positionHighwayUp n) taken = .next t) ∧
        ∀ n, moves (good (f.line.get n)) (s.lineHw.get n) = true → sources none → positions none → lines (some n) →
          exec (if (s.lineHw.get n).up then .lineHighwayDown n else .lineHighwayUp n) taken = .next t)

/-- What FRAME_SYNC_PULSE mixes (R27 to R32, R34, R160). A source's sample is its slot of its highway, 0 while that is
DOWN. A tap is the sum of its bridge's other sources, each times its gain shifted, in unity units, times T: an ear and
a line leave out their own source, a loudspeaker the MIC. A loudspeaker sums its keys and the intercom feed; while a
priority tap of it is on an active bridge, its other taps have T shifted by the duck. A CLOSED position's sinks are 0.
A channel records its endpoint's source and sink, a FREE one 0. -/
def Obligations.MixTaken : Prop :=
  ∀ (f : InFrame) (s : State),
    let inp (y : SourceId) : Int := BitVec.toInt (
      if y.val < 144 then
        let n := Fin.ofNat 4 (y.val / 36)
        if (s.posHw.get n).up then (f.position.get n).get (Fin.ofNat 64 (y.val % 36)) else 0#16
      else
        let n := Fin.ofNat 4 ((y.val - 144) / 48)
        if (s.lineHw.get n).up then (f.line.get n).get (Fin.ofNat 64 ((y.val - 144) % 48)) else 0#16)
    let tap (out : SourceId) (T : Nat) (b : BridgeId) : Int :=
      ((((s.bridges.get b).contributors.filter fun c => c.source ≠ out).map fun c =>
        inp c.source * ((c.gain / 2 ^ c.shift : Nat) : Int)).sum + 512) / 1024 * (T : Int)
    let at0 (v : Option Int) : Int := v.getD 0
    let drive (v : Int) : Int := max (-32768) (min 32767 ((v + 512) / 1024))
    let on (v : Binding) : Option BridgeId := match v with
      | .holder L => (s.lines.get L).bridge
      | .monitor L => (s.lines.get L).bridge
      | .icm c => some c
      | .listen b => some b
      | .none => none
      | .talk _ => none
    ∃ t, exec (.frameSyncPulse f) s = .next t ∧
      (∀ p : PosId, let r := s.positions.get p
        (r.isOpen = false → ∀ k, t.sinkOut.get (posSink p k) = 0#16) ∧
        (r.isOpen = true →
          (t.sinkOut.get (posSink p 0)).toInt = drive (at0 ((on r.ha).map (tap (posSource p 0) r.ea))) ∧
          (t.sinkOut.get (posSink p 1)).toInt = drive (at0 ((on r.hb).map (tap (posSource p 1) r.eb))) ∧
          ∀ side : Side,
            let isActive (v : Option BridgeId) : Bool := v.any fun b => (s.bridges.get b).active
            let feed := if r.icmSide = side then r.feed else none
            let loud : Bool := isActive feed || (ids 8).any fun k =>
              (r.keys.get k).side = side && (r.keys.get k).priority && isActive (on (r.keys.get k).binding)
            let key (k : KeyId) : Int := let x := r.keys.get k
              if x.side = side then
                at0 ((on x.binding).map
                  (tap (micSource p) (if loud && !x.priority then x.level / 2 ^ r.duck else x.level)))
              else 0
            (t.sinkOut.get (speakerSink p side)).toInt =
              drive (((ids 8).map key).sum + at0 (feed.map (tap (micSource p) r.icmT))))) ∧
      (∀ L : LineId, let r := s.lines.get L
        (t.sinkOut.get (lineSink L)).toInt = drive (at0 (
          (if r.ltype = .ht then (legOf s L).filter fun b => (s.bridges.get b).has (lineSource L)
           else if r.state = .connected ∨ r.state = .held then r.bridge
           else none).map (tap (lineSource L) 1024)))) ∧
      ∀ c : ChanId,
        let src (y : SourceId) : Half := BitVec.ofInt 16 (inp y)
        t.recOut.get c = match s.channels.get c with
          | none => (0#16, 0#16)
          | some x =>
            let p := x.pos
            let keyOut (k : KeyId) : Half := t.sinkOut.get (speakerSink p ((s.positions.get p).keys.get k).side)
            match x.endpoint with
            | .ha => (src (posSource p 0), t.sinkOut.get (posSink p 0))
            | .hb => (src (posSource p 1), t.sinkOut.get (posSink p 1))
            | .mic => (src (micSource p), match x.key with
                | some k => keyOut k
                | none => t.sinkOut.get (speakerSink p (s.positions.get p).icmSide))
            | .key k => (if (s.positions.get p).mic = .talk k then src (micSource p) else 0#16, keyOut k)

/-- The bounds that the arithmetic of a frame keeps: a bridge sum of at most twelve entries, and its unity value (R30);
the energy estimate between its previous value and the magnitude, within 0..32767 (R45). -/
def Obligations.SampleBounds : Prop :=
  (∀ (s : State) (b : Bridge) (x : Tab Half 336) (out : SourceId), BridgeOk s b →
    let sum := bridgeSum x b.contributors out
    (-1610219520 ≤ sum ∧ sum ≤ 1610170380) ∧ -1572480 ≤ unity sum ∧ unity sum ≤ 1572432) ∧
  ∀ (e : Nat) (x : Half), e ≤ 32767 → let a := magnitude x
    a ≤ 32767 ∧ min a e ≤ nextEnergy e a ∧ nextEnergy e a ≤ max a e ∧ (a < e → nextEnergy e a < e)

/-- A position highway that goes DOWN ends the call state of its positions (R15, R194), one that comes UP changes only
itself; a line highway that goes DOWN takes its lines OUT_OF_SERVICE and their signalling to its start (R83, R96,
R100), one that comes UP takes them to IDLE (R84); a hoot's trunk legs on it become OUT and leave its bridge, or become
JOINED and join it with their gain, in ascending line order (R124, notes/assumptions/42.md); a change that has already happened changes nothing
(notes/assumptions/3.md). With the frame sync ABSENT every highway is DOWN, counts 0, and the UP ones have handed it
on, so that their lines are OUT_OF_SERVICE as well and their positions hold nothing (R195), all of them DOWN before
the first is handed on (notes/assumptions/35.md). -/
def Obligations.HighwaysTaken : Prop :=
  ∀ s : State, HootsOk s →
    let same (t : State) : Prop := { t with origin := s.origin, released := s.released } = s
    let off (t : State) (L : LineId) : Prop :=
      (s.lines.get L).state ≠ .disabled → (t.lines.get L).state = .outOfService ∧ (t.lines.get L).camp = [] ∧
        (t.lines.get L).timer = none ∧ (t.lines.get L).farPresent = false ∧ (t.lines.get L).pendingRing = false ∧
        ((s.lines.get L).state = .connected → (t.lines.get L).holders = [] ∧ (t.lines.get L).monitors = [] ∧
          (t.lines.get L).bridge = none)
    let start (t : State) (L : LineId) : Prop :=
      t.rings.get L = RingDet.start (((s.lines.get L).sig.preQuiet + 3) / 4)
    let legs (b : BridgeId) (h : Hoot) (hit : LineId → Bool) (joined : Bool) (t : State) : Prop :=
      ∃ h', t.hoots.get b = some h' ∧
        h'.legs = h.legs.map fun x => if hit x.line then { x with joined := joined } else x
    let alone (b : BridgeId) (h : Hoot) : Prop := s.hoots.get b = some h ∧
      ∀ d g, s.hoots.get d = some g → d ≠ b → ∀ x ∈ g.legs, ∀ y ∈ h.legs, x.line ≠ y.line
    (∀ n : HwId,
      (∃ t, exec (.positionHighwayDown n) s = .next t ∧
        if (s.posHw.get n).up then t.posHw = s.posHw.set n ⟨false, 0, 0⟩ ∧
          (∀ p, hwOfPos p = n → HoldsNothing t p) ∧ onlyCalls s { t with posHw := s.posHw }
        else same t) ∧
      (∃ t, exec (.positionHighwayUp n) s = .next t ∧
        if (s.posHw.get n).up then same t
        else t.posHw = s.posHw.set n ⟨true, 0, 0⟩ ∧ same { t with posHw := s.posHw }) ∧
      (∃ t, exec (.lineHighwayDown n) s = .next t ∧
        if (s.lineHw.get n).up then t.lineHw = s.lineHw.set n ⟨false, 0, 0⟩ ∧
          (∀ L, if hwOfLine L = n then off t L ∧ start t L ∧ t.gens.get L = ⟨0, false⟩
            else t.lines.get L = s.lines.get L ∧ t.rings.get L = s.rings.get L ∧ t.gens.get L = s.gens.get L) ∧
          (∀ b h, alone b h → legs b h (fun L => hwOfLine L = n) false t ∧
            ((∀ L, (s.lines.get L).bridge ≠ some b) → (∀ c ∈ (s.bridges.get b).contributors, c.origin = .owner) →
              (t.bridges.get b).contributors.map (fun c => (c.source, c.gain)) =
                ((s.bridges.get b).contributors.filter fun c =>
                  !h.legs.any fun x => hwOfLine x.line = n && lineSource x.line = c.source).map
                    fun c => (c.source, c.gain))) ∧
          onlyCalls s { t with lineHw := s.lineHw, rings := s.rings }
        else same t) ∧
      ∃ t, exec (.lineHighwayUp n) s = .next t ∧
        if (s.lineHw.get n).up then same t
        else t.lineHw = s.lineHw.set n ⟨true, 0, 0⟩ ∧ t.gens = s.gens ∧
          (∀ L, if hwOfLine L = n then
              t.lines.get L = { s.lines.get L with
                state := if (s.lines.get L).state = .outOfService then .idle else (s.lines.get L).state } ∧ start t L
            else t.lines.get L = s.lines.get L ∧ t.rings.get L = s.rings.get L) ∧
          (∀ b h, alone b h → legs b h (fun L => hwOfLine L = n) true t ∧
            let back := (List.finRange 192).filterMap fun L =>
              if hwOfLine L = n then (h.legs.find? fun x => x.line = L).map fun x => (lineSource L, min x.gain 4095)
              else none
            (∀ y ∈ back, (s.bridges.get b).has y.1 = false) → (s.bridges.get b).contributors.length + back.length ≤ 12 →
              (t.bridges.get b).contributors.map (fun c => (c.source, c.gain)) =
                (s.bridges.get b).contributors.map (fun c => (c.source, c.gain)) ++ back) ∧
          onlyCalls s { t with lineHw := s.lineHw, rings := s.rings }) ∧
    ∃ t, exec .frameSyncAbsent s = .next t ∧ t.syncPresent = false ∧
      (∀ n, t.posHw.get n = ⟨false, 0, 0⟩ ∧ t.lineHw.get n = ⟨false, 0, 0⟩) ∧
      (∀ L, s.lineUp L = true → off t L ∧ start t L ∧ t.gens.get L = ⟨0, false⟩) ∧
      (∀ p, s.posUp p = true → HoldsNothing t p) ∧
      (∀ b h, alone b h → legs b h s.lineUp false t) ∧
      onlyCalls s { t with lineHw := s.lineHw, posHw := s.posHw, rings := s.rings, syncPresent := s.syncPresent }

/-- ACTIVITY_START of a QUIET source and ACTIVITY_END of an ACTIVE one (R46, R47, R51): the detector changes its state
with both counts 0; every bridge that the source stands on re-evaluates its flag (R37) and its idle timer (R39); no
position, line, call or channel changes. Of a source on no hoot, the event is recorded when one of its bridges is named
by an ASSIGNED channel, in one ACTIVITY record with the lowest such bridge, and otherwise writes and tells nothing (R52;
of a source on a hoot, ClashTaken). An event that cannot occur changes nothing (notes/assumptions/3.md). -/
def Obligations.ActivityTaken : Prop :=
  ∀ (x : SourceId) (started : Bool) (s : State),
    ∃ t, exec (if started then .activityStart x else .activityEnd x) s = .next t ∧
      if s.active x = started then { t with origin := s.origin, released := s.released } = s
      else
        let act (y : SourceId) : Bool := if y = x then started else s.active y
        t.detectors = s.detectors.set x ⟨(s.detectors.get x).energy, started, 0, 0⟩ ∧
        (∀ b, let r := s.bridges.get b
          (t.bridges.get b).use = r.use ∧ (t.bridges.get b).contributors.map (·.source) = r.contributors.map (·.source) ∧
          if r.has x then
            (t.bridges.get b).active = (r.contributors.any fun c => act c.source) ∧
            (t.bridges.get b).idle =
              if r.mask.selects x = false then r.idle
              else if started then none
              else if r.contributors.any fun c => r.mask.selects c.source && act c.source then r.idle
              else if r.period = 0 then none else some r.period
          else (t.bridges.get b).active = r.active ∧ (t.bridges.get b).idle = r.idle) ∧
        { t with detectors := s.detectors, bridges := s.bridges, hoots := s.hoots, log := s.log, links := s.links,
                 origin := s.origin, released := s.released } = s ∧
        let recorded (b : BridgeId) : Prop :=
          (s.bridges.get b).has x = true ∧ ∃ c y, s.channels.get c = some y ∧ y.bridge = b
        (∀ b, (s.bridges.get b).has x = true → s.hoots.get b = none) →
          ((∀ b, ¬ recorded b) → t.log = s.log ∧ noNotice s t) ∧
          ∀ b, recorded b → (∀ d, d < b → ¬ recorded d) →
            t.log = (submit (activityNote x started b) s).log ∧ noNotice (submit (activityNote x started b) s) t

/-- The clash of a hoot (R134 to R137), by the activity of a contributor of that one bridge, recorded or not (R52): when
a JOINED leg and a granted talker's MIC become ACTIVE together, the hoot is CLASHING, the legs, or under
REMOTE_PRIORITY the talkers, take the clash shift, the talkers' links receive CLASH, and a CLASH record is written;
when they no longer are, every shift is 0 again, with CLASH and a record. The MIC's talk-idle timer stops at its start
and starts at its end; the first activity makes a QUIET hoot LIVE. The records' parties are notes/assumptions/9.md. -/
def Obligations.ClashTaken : Prop :=
  ∀ (x : SourceId) (started : Bool) (b : BridgeId) (h : Hoot) (s : State),
    s.active x = !started → s.hoots.get b = some h → (s.bridges.get b).has x = true →
    (∀ d, d ≠ b → (s.bridges.get d).has x = false) →
    ∀ recorded : Bool, (recorded = true ↔ ∃ c y, s.channels.get c = some y ∧ y.bridge = b) →
    let act (y : SourceId) : Bool := if y = x then started else s.active y
    let clash := (h.legs.any fun y => y.joined && act (lineSource y.line)) && h.granted.any fun g => act (micSource g.pos)
    let idle : Option Nat := if started ∨ h.talkIdleS = 0 then none else some (1000 * h.talkIdleS)
    let granted := h.granted.map fun g => if micSource g.pos = x then { g with timer := idle } else g
    let talkers := granted.map (·.pos)
    let reduced (y : SourceId) : Bool := match h.policy with
      | .localPriority => h.legs.any fun z => z.joined && lineSource z.line = y
      | .remotePriority => granted.any fun g => micSource g.pos = y
    let noted := if recorded then submit (activityNote x started b) s else s
    let base := if started ∧ h.live = false then postListeners b (.hootState b true) noted else noted
    let live := h.live || started
    let cs := (s.bridges.get b).contributors
    let e := if started then Instr.activityStart x else .activityEnd x
    let only (t : State) : Prop := (∀ d, d ≠ b → t.bridges.get d = s.bridges.get d) ∧
      { t with detectors := s.detectors, bridges := s.bridges, hoots := s.hoots, log := s.log, links := s.links,
               origin := s.origin, released := s.released } = s
    (h.clashing = clash → ∃ t, exec e s = .next t ∧ only t ∧ noNotice base t ∧ t.log = base.log ∧
      (t.bridges.get b).contributors = cs ∧
      t.hoots = s.hoots.set b (some { h with granted := granted, live := live })) ∧
    (h.clashing = false → clash = true →
      let u := submit { kind := .clash, hoot := some b, cause := some .start,
                        parties := some (granted.map fun g => (g.pos, .mic)) }
        (post (posRoute (s.begin none) talkers) (.clash b .start (some h.policy)) base)
      ∃ t, exec e s = .next t ∧ only t ∧ noNotice u t ∧ t.log = u.log ∧
        (t.bridges.get b).contributors =
          cs.map (fun c => if reduced c.source then { c with shift := min h.shift 12 } else c) ∧
        t.hoots = s.hoots.set b (some { h with granted := granted, live := live, clashing := true })) ∧
    (h.clashing = true → clash = false →
      let u := submit { kind := .clash, hoot := some b, cause := some .endOf }
        (post (posRoute (s.begin none) talkers) (.clash b .endOf none) base)
      ∃ t, exec e s = .next t ∧ only t ∧ noNotice u t ∧ t.log = u.log ∧
        (t.bridges.get b).contributors = cs.map (fun c => { c with shift := 0 }) ∧
        t.hoots = s.hoots.set b (some { h with granted := granted, live := live, clashing := false }))

/-! ## Signalling -/

/-- DETECTOR_ARMED and INBOUND_BURST_END (R92, R93) move a running detector from QUIET to ARMED, and from BURST to
QUIET or ARMED by its pre-quiet. RING_START (R77, R95) takes an IDLE line to ALERTING with RING_IN, tells the holders
of a CONNECTED MANUAL_RINGDOWN line, and marks a CLEARING line. RING_END (R78) abandons an ALERTING AUTO_RINGDOWN
line, and leaves a MANUAL_RINGDOWN line as it is. OUTBOUND_BURST_END (R98) ends the burst. An event without its cause
changes nothing, and the counts that each leaves are those of notes/assumptions/3.md. The other line states are
RingsByState's. The causes of WATCH are notes/assumptions/24.md, and LINE_STATE before WATCH is
notes/assumptions/25.md. -/
def Obligations.SignalEventsTaken : Prop :=
  ∀ (L : LineId) (s : State), let r := s.lines.get L; let d := s.rings.get L
    let same (t : State) : Prop := { t with origin := s.origin, released := s.released } = s
    let runs := (r.ltype = .mr ∨ r.ltype = .ar) ∧ s.lineUp L = true
    let ringing := d.state = .ringing ∨ d.state = .tail
    let P := (r.sig.preQuiet + 3) / 4
    let G := (r.sig.gapAllow + 3) / 4
    let Q := (r.sig.postQuiet + 3) / 4
    let quiet (n : Nat) : RingDet := { d with
      state := if P ≤ n then .armed else .quiet, quiet := if P ≤ n then 0 else n, burst := 0, gap := 0, tail := 0 }
    let reported (old new : LineState) (cause : Cause) (u : State) : State :=
      post (watchRoute (s.routes.get L)) (.watch L old new cause)
        (post (lineRoute s L) (.lineState L new r.holders.length r.holdOwner r.camp.length) u)
    let only (t : State) : Prop :=
      same { t with rings := s.rings, lines := s.lines, log := s.log, links := s.links }
    (∃ t, exec (.detectorArmed L) s = .next t ∧ same { t with rings := s.rings } ∧
      t.rings = if runs ∧ d.state = .quiet then s.rings.set L { d with state := .armed, quiet := 0 } else s.rings) ∧
    (∃ t, exec (.inboundBurstEnd L) s = .next t ∧ same { t with rings := s.rings } ∧
      t.rings = if runs ∧ d.state = .burst then s.rings.set L (quiet (G + 1)) else s.rings) ∧
    (∃ t, exec (.outboundBurstEnd L) s = .next t ∧ same { t with gens := s.gens } ∧
      t.gens = s.gens.modify L fun g => { g with burst := 0 }) ∧
    (∃ t, exec (.ringStart L) s = .next t ∧
      (¬ runs ∨ ringing → same t) ∧
      (runs → ¬ ringing →
        t.rings = s.rings.set L { d with state := .ringing, quiet := 0, burst := 0, gap := 0, tail := 0 } ∧
        (r.state = .idle → only t ∧
          t.lines = s.lines.set L { r with
            state := .alerting
            timer := if r.ltype = .mr then some ⟨.alert, 1000 * r.alertS⟩ else none
            farPresent := r.farPresent || r.ltype = .ar } ∧
          let u := submit { kind := .ringIn, line := some L } (post (lineRoute s L) (.ringIn L) s)
          t.log = u.log ∧ noNotice (reported .idle .alerting .ring u) t) ∧
        (r.state = .connected → r.ltype = .mr → only t ∧ t.lines = s.lines ∧ t.log = s.log ∧
          noNotice (post (posRoute (s.begin none) (r.holders.map (·.1))) (.farRing L) s) t) ∧
        (r.state = .clearing → same { t with rings := s.rings, lines := s.lines } ∧
          t.lines = s.lines.set L { r with pendingRing := true }))) ∧
    ∃ t, exec (.ringEnd L) s = .next t ∧
      (¬ runs ∨ ¬ ringing → same t) ∧
      (runs → ringing → t.rings = s.rings.set L (quiet Q) ∧
        (r.ltype = .mr → same { t with rings := s.rings }) ∧
        (r.ltype = .ar → r.state = .alerting → r.camp = [] → only t ∧
          t.lines = s.lines.set L { r with state := .idle, timer := none, farPresent := false } ∧
          let u := submit { kind := .abandoned, line := some L } s
          t.log = u.log ∧ noNotice (reported .alerting .idle .abandoned u) t))

/-- The other line states of a ring (R77, R78). RING_START withdraws an offer and alerts an OFFERED line, starts the
alert timer of an ALERTING MANUAL_RINGDOWN line again, tells the hold owner of a HELD one, and marks the far end of a
CONNECTED or HELD AUTO_RINGDOWN line present. RING_END on an AUTO_RINGDOWN line releases a CONNECTED or HELD one whose
far end was present with cause FAR_CLEAR, as `Released` says, with BINDING_LOST and DISCONNECT of that cause, forgets
the ring of a CLEARING line, and means nothing otherwise. The detector moves as SignalEventsTaken says. The fields of
TALK_STATE, TALK_END and of a hold's DISCONNECT are notes/assumptions/9.md, the causes of WATCH notes/assumptions/24.md,
and LINE_STATE before WATCH notes/assumptions/25.md. -/
def Obligations.RingsByState : Prop :=
  ∀ (L : LineId) (s : State), let r := s.lines.get L; let d := s.rings.get L
    let ringing := d.state = .ringing ∨ d.state = .tail
    let same (t : State) : Prop := { t with rings := s.rings, origin := s.origin, released := s.released } = s
    let set (t : State) (x : Line) : Prop := t.lines = s.lines.set L x ∧ same { t with lines := s.lines }
    (r.ltype = .mr ∨ r.ltype = .ar) → s.lineUp L = true →
    (¬ ringing →
      (r.state = .offered → ∀ q rest, r.camp = q :: rest →
        let u := submit { kind := .ringIn, line := some L } (post (lineRoute s L) (.ringIn L)
          (post (posRoute (s.begin none) [q]) (.offerLapsed L .ring true) s))
        ∃ t, exec (.ringStart L) s = .next t ∧
          t.lines = s.lines.set L { r with
            state := .alerting
            timer := if r.ltype = .mr then some ⟨.alert, 1000 * r.alertS⟩ else none
            farPresent := r.farPresent || r.ltype = .ar } ∧
          t.log = u.log ∧ same { t with lines := s.lines, log := s.log, links := s.links } ∧
          noNotice (post (watchRoute (s.routes.get L)) (.watch L .offered .alerting .ring)
            (post (lineRoute s L) (.lineState L .alerting r.holders.length r.holdOwner r.camp.length) u)) t) ∧
      (r.state = .alerting → ∃ t, exec (.ringStart L) s = .next t ∧
        if r.ltype = .mr then set t { r with timer := some ⟨.alert, 1000 * r.alertS⟩ } else same t) ∧
      (r.ltype = .mr → r.state = .held → ∃ t, exec (.ringStart L) s = .next t ∧ same { t with links := s.links } ∧
        noNotice (post (posRoute (s.begin none) r.holdOwner.toList) (.farRing L) s) t) ∧
      (r.ltype = .ar → (r.state = .connected ∨ r.state = .held) → ∃ t, exec (.ringStart L) s = .next t ∧
        set t { r with farPresent := true })) ∧
    (ringing → r.ltype = .ar →
      ((r.state = .connected ∨ r.state = .held) → ∃ t, exec (.ringEnd L) s = .next t ∧
        if r.farPresent = false then same t
        else InCall s L → Released s { t with rings := s.rings } none L .farClear .farClear) ∧
      (r.state = .clearing → ∃ t, exec (.ringEnd L) s = .next t ∧ set t { r with pendingRing := false }) ∧
      ((r.state = .idle ∨ r.state = .offered) → ∃ t, exec (.ringEnd L) s = .next t ∧ same t))

/-- SIGNALLING_SAMPLE (R88) gives every running detector its raw bit, through the glitch filter, and no other; without
a ring nothing else changes, and one ring that it raises has on the lines, the log, the links and all else the effect
of its RING_START or RING_END (R95; their effects are SignalEventsTaken's and RingsByState's). A detector that has
been quiet for its pre-quiet raises one RING_START at the last sample of a minimum burst and none at a shorter one, and
one RING_END at the last sample of its post-quiet and none before; presence that returns within the post-quiet goes on
with the ring. A gap within the gap allowance leaves the burst its count, and a longer one ends it and counts toward
the pre-quiet; presence before the pre-quiet is complete raises nothing and starts it anew (R90 to R94). A single
present sample between absent ones is passed as absent (R90). -/
def Obligations.RingDetection : Prop :=
  (∀ (bits : BitVec 192) (s : State),
    let sampled (L : LineId) : RingDet × List Bool :=
      if ((s.lines.get L).ltype = .mr ∨ (s.lines.get L).ltype = .ar) ∧ s.lineUp L = true then
        (s.rings.get L).sample (s.lines.get L).sig (bits.getLsbD L.val)
      else (s.rings.get L, [])
    ∃ t, exec (.signallingSample bits) s = .next t ∧ (∀ L, t.rings.get L = (sampled L).1) ∧
      ((∀ L, (sampled L).2 = []) →
        { t with rings := s.rings, origin := s.origin, released := s.released } = s) ∧
      ∀ L started, (sampled L).2 = [started] → (∀ M, M ≠ L → (sampled M).2 = []) →
        ∃ u, exec (if started then .ringStart L else .ringEnd L) s = .next u ∧ { t with rings := u.rings } = u) ∧
  (∀ (g : SigParams), 2 ≤ samplesOf g.minBurst → 2 ≤ samplesOf g.postQuiet →
    let run (bits : List Bool) (x : RingDet × List Bool) : RingDet × List Bool :=
      bits.foldl (fun y b => ((y.1.sample g b).1, y.2 ++ (y.1.sample g b).2)) x
    let absent (n : Nat) : List Bool := List.replicate n false
    let present (n : Nat) : List Bool := List.replicate n true
    let P := samplesOf g.preQuiet
    let M := samplesOf g.minBurst
    let G := samplesOf g.gapAllow
    let Q := samplesOf g.postQuiet
    let armed := run (absent P) (RingDet.start P, [])
    let rung := run (present M) armed
    armed.2 = [] ∧ armed.1.state = .armed ∧
    (∀ n, n < P → ∀ k, let x := run (absent n ++ present (k + 2)) (RingDet.start P, [])
      x.2 = [] ∧ x.1.state = .quiet ∧ x.1.quiet = 0) ∧
    (∀ k, k < M → (run (present k) armed).2 = []) ∧ rung.2 = [true] ∧ rung.1.state = .ringing ∧
    (∀ k n, 2 ≤ k → k < M → let x := run (present k ++ absent n) armed
      x.2 = [] ∧
      (0 < n → n ≤ G → x.1.state = .burst ∧ ∀ j, 2 ≤ j →
        (k + j < M → (run (present j) x).2 = []) ∧ (k + j = M → (run (present j) x).2 = [true])) ∧
      (G < n → x.1.state = (if P ≤ n then .armed else .quiet) ∧ x.1.quiet = (if P ≤ n then 0 else n) ∧
        x.1.burst = 0)) ∧
    (∀ n, n < Q → (run (absent n) rung).2 = [true] ∧
      ∀ j, 2 ≤ j → (run (absent n ++ present j) rung).2 = [true] ∧
        (run (absent n ++ present j) rung).1.state = .ringing) ∧
    (run (absent Q) rung).2 = [true, false]) ∧
  ∀ (d : RingDet), d.held = false → d.lastPresent = false →
    (d.filter true).1 = [] ∧ ((d.filter true).2.filter false).1 = [false, false] ∧
      ((d.filter true).2.filter true).1 = [true, true]

/-! ## Timers -/

/-- The expiries of a line's timer (R71, R73, R75, R79): GUARD ends CLEARING in ALERTING when a ring is pending, in
OFFERED with an OFFER when a position waits, otherwise in IDLE; OFFER passes to the next in the queue; ALERT abandons
the line; RECALL tells the hold owner and starts again. An expiry of another timer than the one running changes
nothing (notes/assumptions/3.md). LINE_STATE before the OFFER of an entry to OFFERED, and OFFER_LAPSED before what
follows it, are notes/assumptions/25.md. The causes of WATCH are notes/assumptions/24.md. -/
def Obligations.LineTimersExpire : Prop :=
  ∀ (L : LineId) (s : State), let r := s.lines.get L
    let kind := r.timer.map (·.kind)
    let same (t : State) : Prop := { t with origin := s.origin, released := s.released } = s
    let only (t : State) : Prop := same { t with lines := s.lines, log := s.log, links := s.links }
    let tell (p : PosId) (n : Notice) (u : State) : State := post (posRoute (s.begin none) [p]) n u
    let reported (new : LineState) (cause : Cause) (camp : Nat) (u : State) : State :=
      post (watchRoute (s.routes.get L)) (.watch L r.state new cause)
        (post (lineRoute s L) (.lineState L new r.holders.length r.holdOwner camp) u)
    (∃ t, exec (.guardExpiry L) s = .next t ∧ (kind ≠ some .guard → same t) ∧
      (kind = some .guard → r.state = .clearing → only t ∧
        if r.pendingRing then
          let u := submit { kind := .ringIn, line := some L } (post (lineRoute s L) (.ringIn L) s)
          t.lines = s.lines.set L { r with
            state := .alerting
            pendingRing := false
            timer := if r.ltype = .mr then some ⟨.alert, 1000 * r.alertS⟩ else none
            farPresent := r.farPresent || r.ltype = .ar } ∧
          t.log = u.log ∧ noNotice (reported .alerting .ring r.camp.length u) t
        else t.log = s.log ∧ match r.camp with
          | [] => t.lines = s.lines.set L { r with state := .idle, timer := none } ∧
              noNotice (reported .idle .guardEnd 0 s) t
          | q :: _ => t.lines = s.lines.set L { r with state := .offered, timer := some ⟨.offer, 1000 * r.offerS⟩ } ∧
              noNotice (tell q (.offer L r.offerS) (reported .offered .guardEnd r.camp.length s)) t)) ∧
    (∃ t, exec (.offerExpiry L) s = .next t ∧ (kind ≠ some .offer → same t) ∧
      (kind = some .offer → r.state = .offered → r.camp.Nodup → only t ∧ t.log = s.log ∧ match r.camp with
        | [] => same t
        | [q] => t.lines = s.lines.set L { r with camp := [], state := .idle, timer := none } ∧
            noNotice (reported .idle .offerEnd 0 (tell q (.offerLapsed L .expired true) s)) t
        | q :: q' :: rest =>
            t.lines = s.lines.set L { r with camp := q' :: rest, timer := some ⟨.offer, 1000 * r.offerS⟩ } ∧
            noNotice (tell q' (.offer L r.offerS) (tell q (.offerLapsed L .expired true) s)) t)) ∧
    (∃ t, exec (.alertExpiry L) s = .next t ∧ (kind ≠ some .alert → same t) ∧
      (kind = some .alert → r.state = .alerting → only t ∧
        let u := submit { kind := .abandoned, line := some L } s
        t.log = u.log ∧ match r.camp with
        | [] => t.lines = s.lines.set L { r with state := .idle, timer := none, farPresent := false } ∧
            noNotice (reported .idle .abandoned 0 u) t
        | q :: _ => t.lines = s.lines.set L { r with
              state := .offered
              timer := some ⟨.offer, 1000 * r.offerS⟩
              farPresent := false } ∧
            noNotice (tell q (.offer L r.offerS) (reported .offered .abandoned r.camp.length u)) t)) ∧
    ∃ t, exec (.recallExpiry L) s = .next t ∧ (kind ≠ some .recall → same t) ∧
      (kind = some .recall → only t ∧ t.log = s.log ∧
        t.lines = s.lines.set L { r with timer := some ⟨.recall, 1000 * r.recallS⟩ } ∧
        ∀ p, r.holdOwner = some p → noNotice (tell p (.recall L p) s) t)

/-- The other expiries: BRIDGE_IDLE (R40) releases a CONNECTED or HELD line with cause IDLE_RELEASE, as `Released` says,
with BINDING_LOST and DISCONNECT of that cause (R81, R67, R72), takes a LIVE hoot to QUIET (R137), and means nothing to
an intercom call; TALK_IDLE_EXPIRY (R134) ends the grant; ICM_ALERT_EXPIRY (R114) ends a PRESENTING
call and withdraws what an ACTIVE one still presents. A timer that does not run expires without effect
(notes/assumptions/3.md). The fields of TALK_STATE, the parties of TALK_END and the empty parties of the DISCONNECT
are notes/assumptions/9.md, the cause of WATCH is notes/assumptions/24.md, and LINE_STATE before WATCH is
notes/assumptions/25.md. -/
def Obligations.OtherTimersExpire : Prop :=
  ∀ s : State,
    let same (t : State) : Prop := { t with origin := s.origin, released := s.released } = s
    (∀ b r, s.bridges.get b = r → ∃ t, exec (.bridgeIdle b) s = .next t ∧
      (r.idle = none → same t) ∧
      (r.idle ≠ none →
        ((r.use = .icm ∨ r.use = .free) → t.bridges = s.bridges.set b { r with idle := none } ∧
          same { t with bridges := s.bridges }) ∧
        (∀ h, r.use = .hoot → s.hoots.get b = some h → t.bridges = s.bridges.set b { r with idle := none } ∧
          t.hoots = s.hoots.set b (some { h with live := false }) ∧
          noNotice (if h.live then postListeners b (.hootState b false) s else s) t ∧
          same { t with bridges := s.bridges, hoots := s.hoots, links := s.links }) ∧
        (∀ L, r.use = .line L → (s.lines.get L).bridge = some b → InCall s L →
          Released s t none L .idleRelease .idleRelease))) ∧
    (∀ b p, ∃ t, exec (.talkIdleExpiry b p) s = .next t ∧
      ((∀ h g, s.hoots.get b = some h → h.talker p = some g → g.timer = none) → same t) ∧
      ∀ h g, s.hoots.get b = some h → h.talker p = some g → g.timer ≠ none → (s.positions.get p).mic = .talk g.key →
        h.queue = [] → h.clashing = false → clashCondition s h = false →
        let rest := h.granted.filter fun y => y.pos ≠ p
        let u := submit { kind := .talkEnd, hoot := some b, pos := some p, endpoint := some .mic, key := some g.key,
                          channel := channelAt s p .mic, cause := some .talkIdle,
                          parties := some (rest.map fun y => (y.pos, .mic)) }
          (post (posRoute (s.begin none) [p]) (.bindingLost p .mic (.talk g.key) .talkIdle) s)
        t.hoots = s.hoots.set b (some { h with granted := rest }) ∧
        t.positions = s.positions.modify p (fun r => { r with mic := .none }) ∧ t.log = u.log ∧
        t.channels = (match channelAt s p .mic with | some d => s.channels.set d none | none => s.channels) ∧
        (t.bridges.get b).contributors = ((s.bridges.get b).contributors.filter fun y => y.source ≠ micSource p) ∧
        noNotice (post (posRoute (s.begin none) [p]) (.talkState (some b) g.key .none false .talkIdle) u) t ∧
        onlyCalls s t ∧ t.lines = s.lines ∧ t.calls = s.calls) ∧
    ∀ c, ∃ t, exec (.icmAlertExpiry c) s = .next t ∧
      ((∀ r, s.calls.get c = some r → r.alert = none) → same t) ∧
      ∀ r, s.calls.get c = some r → r.alert ≠ none → onlyCalls s t ∧ t.lines = s.lines ∧ t.hoots = s.hoots ∧
        if r.active then ∃ r', t.calls.get c = some r' ∧ r'.presented = [] ∧ r'.alert = none ∧
          r'.parties = r.parties ∧ r'.caller = r.caller ∧ r'.active = true
        else t.calls.get c = none ∧ t.bridges.get c = Bridge.reset ∧
          ∀ x ∈ r.parties, t.binding x.1 x.2 = .none

/-- MILLISECOND_TICK (R162, R192): the time base advances by one, modulo 2^32, every running timer and burst counts
down by one, and a frame in progress is not touched. A timer is due at the tick in which it reaches 0
(notes/assumptions/27.md). With none due and the frame sync not lost, nothing else changes. With one due, and the
frame sync not lost, the tick has on the counted state exactly the effect of that timer's expiry: GUARD, OFFER, ALERT
or RECALL of a line, the idle timer of a bridge, the talk-idle timer of a talker, the alert timer of a call (their
effects are LineTimersExpire's and OtherTimersExpire's); several are taken in an order that is free
(notes/assumptions/4.md). A frame sync that is PRESENT is lost at a tick with no pulse since the tick before
(notes/assumptions/7.md): it is ABSENT then, and every highway DOWN (R192, R195); with no timer due the tick has then
exactly the effect of FRAME_SYNC_ABSENT. -/
def Obligations.TickTaken : Prop :=
  ∀ s : State, let lost : Prop := s.syncPresent = true ∧ s.pulsed = false
    let counted : State := { s with
      log := { s.log with time := s.log.time + 1 }
      lines := s.lines.map fun r => { r with timer := r.timer.map fun x => ⟨x.kind, x.remaining - 1⟩ }
      bridges := s.bridges.map fun r => { r with idle := r.idle.map (· - 1) }
      hoots := s.hoots.map (Option.map fun h => { h with
        granted := h.granted.map fun g => ⟨g.pos, g.key, g.timer.map (· - 1)⟩ })
      calls := s.calls.map (Option.map fun r => { r with alert := r.alert.map (· - 1) })
      gens := s.gens.map fun g => { g with burst := g.burst - 1 }
      pulsed := false }
    let lines (but : Option LineId) : Prop :=
      ∀ L, some L ≠ but → ∀ x, (s.lines.get L).timer = some x → 2 ≤ x.remaining
    let idles (but : Option BridgeId) : Prop := ∀ b, some b ≠ but → ∀ n, (s.bridges.get b).idle = some n → 2 ≤ n
    let talks (but : Option (BridgeId × PosId)) : Prop :=
      ∀ b h, s.hoots.get b = some h → ∀ g ∈ h.granted, some (b, g.pos) ≠ but → ∀ n, g.timer = some n → 2 ≤ n
    let alerts (but : Option BridgeId) : Prop :=
      ∀ c, some c ≠ but → ∀ r, s.calls.get c = some r → ∀ n, r.alert = some n → 2 ≤ n
    ∃ t, exec .millisecondTick s = .next t ∧ t.log.time = s.log.time + 1 ∧ t.detectors = s.detectors ∧
    t.frameCount = s.frameCount ∧ t.perms = s.perms ∧ t.pulsed = false ∧
    (lost → t.syncPresent = false ∧ ∀ n, t.posHw.get n = ⟨false, 0, 0⟩ ∧ t.lineHw.get n = ⟨false, 0, 0⟩) ∧
    (¬ lost → t.syncPresent = s.syncPresent ∧ t.posHw = s.posHw ∧ t.lineHw = s.lineHw ∧ t.rings = s.rings) ∧
    (lines none → idles none → talks none → alerts none →
      (¬ lost → { t with origin := s.origin, released := s.released } = counted) ∧
      (lost → exec .frameSyncAbsent counted = .next t)) ∧
    (¬ lost →
      (idles none → talks none → alerts none → ∀ L x, (s.lines.get L).timer = some x → x.remaining ≤ 1 →
        lines (some L) →
        exec (match x.kind with
          | .guard => .guardExpiry L
          | .offer => .offerExpiry L
          | .alert => .alertExpiry L
          | .recall => .recallExpiry L) counted = .next t) ∧
      (lines none → talks none → alerts none → ∀ b n, (s.bridges.get b).idle = some n → n ≤ 1 → idles (some b) →
        exec (.bridgeIdle b) counted = .next t) ∧
      (HootsOk s → lines none → idles none → alerts none → ∀ b h, s.hoots.get b = some h → ∀ g ∈ h.granted,
        ∀ n, g.timer = some n → n ≤ 1 → talks (some (b, g.pos)) →
        exec (.talkIdleExpiry b g.pos) counted = .next t) ∧
      (lines none → idles none → talks none → ∀ c r n, s.calls.get c = some r → r.alert = some n → n ≤ 1 →
        alerts (some c) → exec (.icmAlertExpiry c) counted = .next t))
end

