-- ==== Sys2Proof/Laws/Frames.lean ====
section
/-! SUPPORT. Reading a field of a request body gives back the field that was written, and leaves what follows it
(R190). -/

namespace Sys2Proof

theorem rdByte_wrByte (b : Byte) (r : List Byte) : rdByte (wrByte b ++ r) = some (b, r) := rfl

theorem extract_append_half (v : Half) : v.extractLsb' 8 8 ++ v.extractLsb' 0 8 = v := by
  apply BitVec.eq_of_getLsbD_eq
  intro i hi
  rw [BitVec.getLsbD_append]
  split
  · simp_all
  · rename_i h
    simp only [BitVec.getLsbD_extractLsb']
    rw [show 8 + (i - 8) = i by omega]
    simp [show i - 8 < 8 by omega]

theorem rdHalf_halfBytes (v : Half) (r : List Byte) : rdHalf (halfBytes v ++ r) = some (v, r) := by
  simp only [halfBytes, List.cons_append, List.nil_append, rdHalf, extract_append_half]

theorem extract_append_word (v : Word) :
    v.extractLsb' 24 8 ++ v.extractLsb' 16 8 ++ v.extractLsb' 8 8 ++ v.extractLsb' 0 8 = v := by
  apply BitVec.eq_of_getLsbD_eq
  intro i hi
  rw [BitVec.getLsbD_append]
  split
  · simp_all
  · rw [BitVec.getLsbD_append]
    split
    · simp only [BitVec.getLsbD_extractLsb']
      rw [show 8 + (i - 8) = i by omega]
      simp_all
    · rw [BitVec.getLsbD_append]
      split
      · simp only [BitVec.getLsbD_extractLsb']
        rw [show 16 + (i - 8 - 8) = i by omega]
        simp_all
      · simp only [BitVec.getLsbD_extractLsb']
        rw [show 24 + (i - 8 - 8 - 8) = i by omega]
        simp [show i - 8 - 8 - 8 < 8 by omega]

theorem rdWord_wordBytes (v : Word) (r : List Byte) : rdWord (wordBytes v ++ r) = some (v, r) := by
  simp only [wordBytes, List.cons_append, List.nil_append, rdWord, extract_append_word]

@[simp] theorem length_bytesOfNat (n v : Nat) : (bytesOfNat n v).length = n := by
  induction n generalizing v with
  | zero => rfl
  | succ n ih => simp [bytesOfNat, ih]

theorem natOfBytes_bytesOfNat (n v : Nat) : natOfBytes (bytesOfNat n v) = v % 256 ^ n := by
  induction n generalizing v with
  | zero => simp [bytesOfNat, natOfBytes, Nat.mod_one]
  | succ n ih =>
    simp only [bytesOfNat, natOfBytes, ih, BitVec.toNat_ofNat]
    rw [show (2 : Nat) ^ 8 = 256 by rfl, Nat.pow_succ', Nat.mod_mul]

theorem rdMap_mapBytes (n : Nat) (m : BitVec (8 * n)) (r : List Byte) :
    rdMap n (mapBytes n m ++ r) = some (m, r) := by
  have hl : (mapBytes n m).length = n := length_bytesOfNat n _
  unfold rdMap
  rw [if_pos (by simp [hl]), List.take_left' hl, List.drop_left' hl]
  congr 2
  apply BitVec.eq_of_toNat_eq
  rw [BitVec.toNat_ofNat, mapBytes, natOfBytes_bytesOfNat, Nat.pow_mul]
  have h := m.isLt
  rw [Nat.pow_mul] at h
  rw [show (2 : Nat) ^ 8 = 256 by rfl] at h ⊢
  rw [Nat.mod_eq_of_lt h, Nat.mod_eq_of_lt h]

/-- An optional field read back (R190): present or absent as its bit of the mask says. -/
theorem rdOpt_wrOpt {α : Type} {wr : α → List Byte} {rd : List Byte → Option (α × List Byte)}
    (h : ∀ x r, rd (wr x ++ r) = some (x, r)) (v : Option α) (r : List Byte) :
    rdOpt v.isSome rd (wrOpt wr v ++ r) = some (v, r) := by
  cases v with
  | none => rfl
  | some x => simp [rdOpt, wrOpt, h]

/-- A bit of a presence mask is the presence of its field. -/
theorem getLsbD_presence (w : Nat) (ps : List Bool) (hw : ps.length ≤ w) (i : Nat) :
    (presence w ps).getLsbD i = ps.getD i false := by
  induction ps generalizing i with
  | nil => simp [presence]
  | cons b r ih =>
    simp only [List.length_cons] at hw
    simp only [presence, BitVec.getLsbD_or, BitVec.getLsbD_shiftLeft]
    cases i with
    | zero =>
      cases b <;> simp
      omega
    | succ i =>
      rw [Nat.add_sub_cancel, ih (by omega)]
      have hb : (if b then 1#w else 0#w).getLsbD (i + 1) = false := by
        cases b <;> simp [BitVec.getLsbD_one]
      rw [hb]
      simp only [Bool.or_false, List.getD_cons_succ]
      by_cases hi : i + 1 < w
      · simp [hi]
      · simp only [hi, decide_false, Bool.false_and]
        rw [List.getD_eq_default _ _ (by omega)]

theorem rdLegs_flatMap (legs : List (Byte × Half)) (r : List Byte) :
    rdLegs legs.length ((legs.flatMap fun x => x.1 :: halfBytes x.2) ++ r) = some (legs, r) := by
  induction legs with
  | nil => rfl
  | cons x xs ih =>
    simp only [List.length_cons, rdLegs, List.flatMap_cons, List.cons_append, rdByte, Option.bind_eq_bind,
      Option.bind_some, List.append_assoc, rdHalf_halfBytes, ih]
    rfl

theorem rdLegList_wrLegs (legs : List (Byte × Half)) (h : legs.length ≤ 4) (r : List Byte) :
    rdLegList (wrLegs legs ++ r) = some (legs, r) := by
  have hn : (BitVec.ofNat 8 legs.length).toNat = legs.length := by
    rw [BitVec.toNat_ofNat]
    exact Nat.mod_eq_of_lt (by omega)
  simp only [wrLegs, rdLegList, List.cons_append, rdByte, Option.bind_eq_bind, Option.bind_some, hn, if_pos h,
    rdLegs_flatMap]

end Sys2Proof
end

