-- ==== Sys2Proof/Laws/Tab.lean ====
section
/-! SUPPORT. The laws of tables: what an entry reads after each way of writing one. -/

namespace Sys2Proof

/-- An entry is the list's. -/
theorem Tab.get_eq {α : Type} {n : Nat} (t : Tab α n) (i : Fin n) :
    t.get i = t.list[i.val]'(by rw [t.len]; exact i.isLt) := rfl

/-- Two tables are equal when their entries are. -/
theorem Tab.ext_get {α : Type} {n : Nat} {t u : Tab α n} (h : ∀ i, t.get i = u.get i) : t = u := by
  obtain ⟨a, ha⟩ := t
  obtain ⟨b, hb⟩ := u
  have e : a = b := by
    apply List.ext_getElem (ha.trans hb.symm)
    intro k h1 h2
    simpa [Tab.get] using h ⟨k, ha ▸ h1⟩
  subst e
  rfl

@[simp] theorem Tab.get_set_self {α : Type} {n : Nat} (t : Tab α n) (i : Fin n) (v : α) :
    (t.set i v).get i = v := by simp [Tab.get_eq, Tab.set]

@[simp] theorem Tab.get_set_ne {α : Type} {n : Nat} (t : Tab α n) {i j : Fin n} (v : α) (h : j ≠ i) :
    (t.set i v).get j = t.get j := by
  have h' : ¬ i.val = j.val := fun e => h (Fin.ext e.symm)
  simp [Tab.get_eq, Tab.set, List.getElem_set, h']

theorem Tab.get_set {α : Type} {n : Nat} (t : Tab α n) (i j : Fin n) (v : α) :
    (t.set i v).get j = if j = i then v else t.get j := by
  split
  · subst j; simp
  · rename_i h; simp [h]

@[simp] theorem Tab.get_modify_self {α : Type} {n : Nat} (t : Tab α n) (i : Fin n) (f : α → α) :
    (t.modify i f).get i = f (t.get i) := by simp [Tab.modify]

@[simp] theorem Tab.get_modify_ne {α : Type} {n : Nat} (t : Tab α n) {i j : Fin n} (f : α → α) (h : j ≠ i) :
    (t.modify i f).get j = t.get j := by simp [Tab.modify, h]

theorem Tab.get_modify {α : Type} {n : Nat} (t : Tab α n) (i j : Fin n) (f : α → α) :
    (t.modify i f).get j = if j = i then f (t.get i) else t.get j := Tab.get_set t i j _

@[simp] theorem Tab.get_map {α β : Type} {n : Nat} (t : Tab α n) (f : α → β) (i : Fin n) :
    (t.map f).get i = f (t.get i) := by simp [Tab.get_eq, Tab.map]

@[simp] theorem Tab.get_ofFn {α : Type} {n : Nat} (f : Fin n → α) (i : Fin n) : (Tab.ofFn f).get i = f i := by
  simp [Tab.get_eq, Tab.ofFn]

@[simp] theorem Tab.get_mapIdx {α β : Type} {n : Nat} (t : Tab α n) (f : Fin n → α → β) (i : Fin n) :
    (t.mapIdx f).get i = f i (t.get i) := by simp [Tab.mapIdx]

@[simp] theorem Tab.get_fill {α : Type} (n : Nat) (v : α) (i : Fin n) : (Tab.fill n v).get i = v := by
  simp [Tab.get, Tab.fill]

@[simp] theorem Tab.set_get_self {α : Type} {n : Nat} (t : Tab α n) (i : Fin n) : t.set i (t.get i) = t := by
  apply Tab.ext_get
  intro j
  rw [Tab.get_set]
  split <;> simp_all

@[simp] theorem Tab.map_id {α : Type} {n : Nat} (t : Tab α n) : t.map id = t := by
  apply Tab.ext_get
  simp

theorem Tab.map_map {α β γ : Type} {n : Nat} (t : Tab α n) (f : α → β) (g : β → γ) :
    (t.map f).map g = t.map (g ∘ f) := Tab.ext_get fun i => by simp

/-- The entries as a list. -/
theorem Tab.mem_list {α : Type} {n : Nat} (t : Tab α n) (v : α) : v ∈ t.list ↔ ∃ i, t.get i = v := by
  rw [List.mem_iff_get]
  constructor
  · rintro ⟨k, rfl⟩
    exact ⟨k.cast t.len, by simp [Tab.get]⟩
  · rintro ⟨i, rfl⟩
    exact ⟨i.cast t.len.symm, rfl⟩

@[simp] theorem mem_ids {n : Nat} (i : Fin n) : i ∈ ids n := List.mem_finRange i

end Sys2Proof
end

