-- ==== Sys2Proof/Laws/State.lean ====
section
/-! SUPPORT. What each field of the state reads after each update of one record: one lemma per field per
update, all true by computation. -/

namespace Sys2Proof.Machine


/-! ### State.modPos -/

section
variable (s : State) (p : PosId) (f : Position → Position)

@[simp] theorem modPos_pending : (s.modPos p f).pending = s.pending := rfl
@[simp] theorem modPos_positions : (s.modPos p f).positions = s.positions.modify p f := rfl
@[simp] theorem modPos_bridges : (s.modPos p f).bridges = s.bridges := rfl
@[simp] theorem modPos_clips : (s.modPos p f).clips = s.clips := rfl
@[simp] theorem modPos_detectors : (s.modPos p f).detectors = s.detectors := rfl
@[simp] theorem modPos_vadLine : (s.modPos p f).vadLine = s.vadLine := rfl
@[simp] theorem modPos_vadPos : (s.modPos p f).vadPos = s.vadPos := rfl
@[simp] theorem modPos_lines : (s.modPos p f).lines = s.lines := rfl
@[simp] theorem modPos_rings : (s.modPos p f).rings = s.rings := rfl
@[simp] theorem modPos_gens : (s.modPos p f).gens = s.gens := rfl
@[simp] theorem modPos_frameCount : (s.modPos p f).frameCount = s.frameCount := rfl
@[simp] theorem modPos_icm : (s.modPos p f).icm = s.icm := rfl
@[simp] theorem modPos_calls : (s.modPos p f).calls = s.calls := rfl
@[simp] theorem modPos_groups : (s.modPos p f).groups = s.groups := rfl
@[simp] theorem modPos_icmAlertS : (s.modPos p f).icmAlertS = s.icmAlertS := rfl
@[simp] theorem modPos_hoots : (s.modPos p f).hoots = s.hoots := rfl
@[simp] theorem modPos_perms : (s.modPos p f).perms = s.perms := rfl
@[simp] theorem modPos_latches : (s.modPos p f).latches = s.latches := rfl
@[simp] theorem modPos_routes : (s.modPos p f).routes = s.routes := rfl
@[simp] theorem modPos_channels : (s.modPos p f).channels = s.channels := rfl
@[simp] theorem modPos_icmRecord : (s.modPos p f).icmRecord = s.icmRecord := rfl
@[simp] theorem modPos_timeValid : (s.modPos p f).timeValid = s.timeValid := rfl
@[simp] theorem modPos_log : (s.modPos p f).log = s.log := rfl
@[simp] theorem modPos_links : (s.modPos p f).links = s.links := rfl
@[simp] theorem modPos_posHw : (s.modPos p f).posHw = s.posHw := rfl
@[simp] theorem modPos_lineHw : (s.modPos p f).lineHw = s.lineHw := rfl
@[simp] theorem modPos_syncPresent : (s.modPos p f).syncPresent = s.syncPresent := rfl
@[simp] theorem modPos_pulsed : (s.modPos p f).pulsed = s.pulsed := rfl
@[simp] theorem modPos_sinkOut : (s.modPos p f).sinkOut = s.sinkOut := rfl
@[simp] theorem modPos_recOut : (s.modPos p f).recOut = s.recOut := rfl
@[simp] theorem modPos_presenceOut : (s.modPos p f).presenceOut = s.presenceOut := rfl
@[simp] theorem modPos_origin : (s.modPos p f).origin = s.origin := rfl
@[simp] theorem modPos_released : (s.modPos p f).released = s.released := rfl
@[simp] theorem modPos_drawn : (s.modPos p f).drawn = s.drawn := rfl
end


/-! ### State.modBridge -/

section
variable (s : State) (b : BridgeId) (f : Bridge → Bridge)

@[simp] theorem modBridge_pending : (s.modBridge b f).pending = s.pending := rfl
@[simp] theorem modBridge_positions : (s.modBridge b f).positions = s.positions := rfl
@[simp] theorem modBridge_bridges : (s.modBridge b f).bridges = s.bridges.modify b f := rfl
@[simp] theorem modBridge_clips : (s.modBridge b f).clips = s.clips := rfl
@[simp] theorem modBridge_detectors : (s.modBridge b f).detectors = s.detectors := rfl
@[simp] theorem modBridge_vadLine : (s.modBridge b f).vadLine = s.vadLine := rfl
@[simp] theorem modBridge_vadPos : (s.modBridge b f).vadPos = s.vadPos := rfl
@[simp] theorem modBridge_lines : (s.modBridge b f).lines = s.lines := rfl
@[simp] theorem modBridge_rings : (s.modBridge b f).rings = s.rings := rfl
@[simp] theorem modBridge_gens : (s.modBridge b f).gens = s.gens := rfl
@[simp] theorem modBridge_frameCount : (s.modBridge b f).frameCount = s.frameCount := rfl
@[simp] theorem modBridge_icm : (s.modBridge b f).icm = s.icm := rfl
@[simp] theorem modBridge_calls : (s.modBridge b f).calls = s.calls := rfl
@[simp] theorem modBridge_groups : (s.modBridge b f).groups = s.groups := rfl
@[simp] theorem modBridge_icmAlertS : (s.modBridge b f).icmAlertS = s.icmAlertS := rfl
@[simp] theorem modBridge_hoots : (s.modBridge b f).hoots = s.hoots := rfl
@[simp] theorem modBridge_perms : (s.modBridge b f).perms = s.perms := rfl
@[simp] theorem modBridge_latches : (s.modBridge b f).latches = s.latches := rfl
@[simp] theorem modBridge_routes : (s.modBridge b f).routes = s.routes := rfl
@[simp] theorem modBridge_channels : (s.modBridge b f).channels = s.channels := rfl
@[simp] theorem modBridge_icmRecord : (s.modBridge b f).icmRecord = s.icmRecord := rfl
@[simp] theorem modBridge_timeValid : (s.modBridge b f).timeValid = s.timeValid := rfl
@[simp] theorem modBridge_log : (s.modBridge b f).log = s.log := rfl
@[simp] theorem modBridge_links : (s.modBridge b f).links = s.links := rfl
@[simp] theorem modBridge_posHw : (s.modBridge b f).posHw = s.posHw := rfl
@[simp] theorem modBridge_lineHw : (s.modBridge b f).lineHw = s.lineHw := rfl
@[simp] theorem modBridge_syncPresent : (s.modBridge b f).syncPresent = s.syncPresent := rfl
@[simp] theorem modBridge_pulsed : (s.modBridge b f).pulsed = s.pulsed := rfl
@[simp] theorem modBridge_sinkOut : (s.modBridge b f).sinkOut = s.sinkOut := rfl
@[simp] theorem modBridge_recOut : (s.modBridge b f).recOut = s.recOut := rfl
@[simp] theorem modBridge_presenceOut : (s.modBridge b f).presenceOut = s.presenceOut := rfl
@[simp] theorem modBridge_origin : (s.modBridge b f).origin = s.origin := rfl
@[simp] theorem modBridge_released : (s.modBridge b f).released = s.released := rfl
@[simp] theorem modBridge_drawn : (s.modBridge b f).drawn = s.drawn := rfl
end


/-! ### State.modDet -/

section
variable (s : State) (x : SourceId) (f : Detector → Detector)

@[simp] theorem modDet_pending : (s.modDet x f).pending = s.pending := rfl
@[simp] theorem modDet_positions : (s.modDet x f).positions = s.positions := rfl
@[simp] theorem modDet_bridges : (s.modDet x f).bridges = s.bridges := rfl
@[simp] theorem modDet_clips : (s.modDet x f).clips = s.clips := rfl
@[simp] theorem modDet_detectors : (s.modDet x f).detectors = s.detectors.modify x f := rfl
@[simp] theorem modDet_vadLine : (s.modDet x f).vadLine = s.vadLine := rfl
@[simp] theorem modDet_vadPos : (s.modDet x f).vadPos = s.vadPos := rfl
@[simp] theorem modDet_lines : (s.modDet x f).lines = s.lines := rfl
@[simp] theorem modDet_rings : (s.modDet x f).rings = s.rings := rfl
@[simp] theorem modDet_gens : (s.modDet x f).gens = s.gens := rfl
@[simp] theorem modDet_frameCount : (s.modDet x f).frameCount = s.frameCount := rfl
@[simp] theorem modDet_icm : (s.modDet x f).icm = s.icm := rfl
@[simp] theorem modDet_calls : (s.modDet x f).calls = s.calls := rfl
@[simp] theorem modDet_groups : (s.modDet x f).groups = s.groups := rfl
@[simp] theorem modDet_icmAlertS : (s.modDet x f).icmAlertS = s.icmAlertS := rfl
@[simp] theorem modDet_hoots : (s.modDet x f).hoots = s.hoots := rfl
@[simp] theorem modDet_perms : (s.modDet x f).perms = s.perms := rfl
@[simp] theorem modDet_latches : (s.modDet x f).latches = s.latches := rfl
@[simp] theorem modDet_routes : (s.modDet x f).routes = s.routes := rfl
@[simp] theorem modDet_channels : (s.modDet x f).channels = s.channels := rfl
@[simp] theorem modDet_icmRecord : (s.modDet x f).icmRecord = s.icmRecord := rfl
@[simp] theorem modDet_timeValid : (s.modDet x f).timeValid = s.timeValid := rfl
@[simp] theorem modDet_log : (s.modDet x f).log = s.log := rfl
@[simp] theorem modDet_links : (s.modDet x f).links = s.links := rfl
@[simp] theorem modDet_posHw : (s.modDet x f).posHw = s.posHw := rfl
@[simp] theorem modDet_lineHw : (s.modDet x f).lineHw = s.lineHw := rfl
@[simp] theorem modDet_syncPresent : (s.modDet x f).syncPresent = s.syncPresent := rfl
@[simp] theorem modDet_pulsed : (s.modDet x f).pulsed = s.pulsed := rfl
@[simp] theorem modDet_sinkOut : (s.modDet x f).sinkOut = s.sinkOut := rfl
@[simp] theorem modDet_recOut : (s.modDet x f).recOut = s.recOut := rfl
@[simp] theorem modDet_presenceOut : (s.modDet x f).presenceOut = s.presenceOut := rfl
@[simp] theorem modDet_origin : (s.modDet x f).origin = s.origin := rfl
@[simp] theorem modDet_released : (s.modDet x f).released = s.released := rfl
@[simp] theorem modDet_drawn : (s.modDet x f).drawn = s.drawn := rfl
end


/-! ### State.modLine -/

section
variable (s : State) (L : LineId) (f : Line → Line)

@[simp] theorem modLine_pending : (s.modLine L f).pending = s.pending := rfl
@[simp] theorem modLine_positions : (s.modLine L f).positions = s.positions := rfl
@[simp] theorem modLine_bridges : (s.modLine L f).bridges = s.bridges := rfl
@[simp] theorem modLine_clips : (s.modLine L f).clips = s.clips := rfl
@[simp] theorem modLine_detectors : (s.modLine L f).detectors = s.detectors := rfl
@[simp] theorem modLine_vadLine : (s.modLine L f).vadLine = s.vadLine := rfl
@[simp] theorem modLine_vadPos : (s.modLine L f).vadPos = s.vadPos := rfl
@[simp] theorem modLine_lines : (s.modLine L f).lines = s.lines.modify L f := rfl
@[simp] theorem modLine_rings : (s.modLine L f).rings = s.rings := rfl
@[simp] theorem modLine_gens : (s.modLine L f).gens = s.gens := rfl
@[simp] theorem modLine_frameCount : (s.modLine L f).frameCount = s.frameCount := rfl
@[simp] theorem modLine_icm : (s.modLine L f).icm = s.icm := rfl
@[simp] theorem modLine_calls : (s.modLine L f).calls = s.calls := rfl
@[simp] theorem modLine_groups : (s.modLine L f).groups = s.groups := rfl
@[simp] theorem modLine_icmAlertS : (s.modLine L f).icmAlertS = s.icmAlertS := rfl
@[simp] theorem modLine_hoots : (s.modLine L f).hoots = s.hoots := rfl
@[simp] theorem modLine_perms : (s.modLine L f).perms = s.perms := rfl
@[simp] theorem modLine_latches : (s.modLine L f).latches = s.latches := rfl
@[simp] theorem modLine_routes : (s.modLine L f).routes = s.routes := rfl
@[simp] theorem modLine_channels : (s.modLine L f).channels = s.channels := rfl
@[simp] theorem modLine_icmRecord : (s.modLine L f).icmRecord = s.icmRecord := rfl
@[simp] theorem modLine_timeValid : (s.modLine L f).timeValid = s.timeValid := rfl
@[simp] theorem modLine_log : (s.modLine L f).log = s.log := rfl
@[simp] theorem modLine_links : (s.modLine L f).links = s.links := rfl
@[simp] theorem modLine_posHw : (s.modLine L f).posHw = s.posHw := rfl
@[simp] theorem modLine_lineHw : (s.modLine L f).lineHw = s.lineHw := rfl
@[simp] theorem modLine_syncPresent : (s.modLine L f).syncPresent = s.syncPresent := rfl
@[simp] theorem modLine_pulsed : (s.modLine L f).pulsed = s.pulsed := rfl
@[simp] theorem modLine_sinkOut : (s.modLine L f).sinkOut = s.sinkOut := rfl
@[simp] theorem modLine_recOut : (s.modLine L f).recOut = s.recOut := rfl
@[simp] theorem modLine_presenceOut : (s.modLine L f).presenceOut = s.presenceOut := rfl
@[simp] theorem modLine_origin : (s.modLine L f).origin = s.origin := rfl
@[simp] theorem modLine_released : (s.modLine L f).released = s.released := rfl
@[simp] theorem modLine_drawn : (s.modLine L f).drawn = s.drawn := rfl
end


/-! ### State.modRing -/

section
variable (s : State) (L : LineId) (f : RingDet → RingDet)

@[simp] theorem modRing_pending : (s.modRing L f).pending = s.pending := rfl
@[simp] theorem modRing_positions : (s.modRing L f).positions = s.positions := rfl
@[simp] theorem modRing_bridges : (s.modRing L f).bridges = s.bridges := rfl
@[simp] theorem modRing_clips : (s.modRing L f).clips = s.clips := rfl
@[simp] theorem modRing_detectors : (s.modRing L f).detectors = s.detectors := rfl
@[simp] theorem modRing_vadLine : (s.modRing L f).vadLine = s.vadLine := rfl
@[simp] theorem modRing_vadPos : (s.modRing L f).vadPos = s.vadPos := rfl
@[simp] theorem modRing_lines : (s.modRing L f).lines = s.lines := rfl
@[simp] theorem modRing_rings : (s.modRing L f).rings = s.rings.modify L f := rfl
@[simp] theorem modRing_gens : (s.modRing L f).gens = s.gens := rfl
@[simp] theorem modRing_frameCount : (s.modRing L f).frameCount = s.frameCount := rfl
@[simp] theorem modRing_icm : (s.modRing L f).icm = s.icm := rfl
@[simp] theorem modRing_calls : (s.modRing L f).calls = s.calls := rfl
@[simp] theorem modRing_groups : (s.modRing L f).groups = s.groups := rfl
@[simp] theorem modRing_icmAlertS : (s.modRing L f).icmAlertS = s.icmAlertS := rfl
@[simp] theorem modRing_hoots : (s.modRing L f).hoots = s.hoots := rfl
@[simp] theorem modRing_perms : (s.modRing L f).perms = s.perms := rfl
@[simp] theorem modRing_latches : (s.modRing L f).latches = s.latches := rfl
@[simp] theorem modRing_routes : (s.modRing L f).routes = s.routes := rfl
@[simp] theorem modRing_channels : (s.modRing L f).channels = s.channels := rfl
@[simp] theorem modRing_icmRecord : (s.modRing L f).icmRecord = s.icmRecord := rfl
@[simp] theorem modRing_timeValid : (s.modRing L f).timeValid = s.timeValid := rfl
@[simp] theorem modRing_log : (s.modRing L f).log = s.log := rfl
@[simp] theorem modRing_links : (s.modRing L f).links = s.links := rfl
@[simp] theorem modRing_posHw : (s.modRing L f).posHw = s.posHw := rfl
@[simp] theorem modRing_lineHw : (s.modRing L f).lineHw = s.lineHw := rfl
@[simp] theorem modRing_syncPresent : (s.modRing L f).syncPresent = s.syncPresent := rfl
@[simp] theorem modRing_pulsed : (s.modRing L f).pulsed = s.pulsed := rfl
@[simp] theorem modRing_sinkOut : (s.modRing L f).sinkOut = s.sinkOut := rfl
@[simp] theorem modRing_recOut : (s.modRing L f).recOut = s.recOut := rfl
@[simp] theorem modRing_presenceOut : (s.modRing L f).presenceOut = s.presenceOut := rfl
@[simp] theorem modRing_origin : (s.modRing L f).origin = s.origin := rfl
@[simp] theorem modRing_released : (s.modRing L f).released = s.released := rfl
@[simp] theorem modRing_drawn : (s.modRing L f).drawn = s.drawn := rfl
end


/-! ### State.modGen -/

section
variable (s : State) (L : LineId) (f : Generator → Generator)

@[simp] theorem modGen_pending : (s.modGen L f).pending = s.pending := rfl
@[simp] theorem modGen_positions : (s.modGen L f).positions = s.positions := rfl
@[simp] theorem modGen_bridges : (s.modGen L f).bridges = s.bridges := rfl
@[simp] theorem modGen_clips : (s.modGen L f).clips = s.clips := rfl
@[simp] theorem modGen_detectors : (s.modGen L f).detectors = s.detectors := rfl
@[simp] theorem modGen_vadLine : (s.modGen L f).vadLine = s.vadLine := rfl
@[simp] theorem modGen_vadPos : (s.modGen L f).vadPos = s.vadPos := rfl
@[simp] theorem modGen_lines : (s.modGen L f).lines = s.lines := rfl
@[simp] theorem modGen_rings : (s.modGen L f).rings = s.rings := rfl
@[simp] theorem modGen_gens : (s.modGen L f).gens = s.gens.modify L f := rfl
@[simp] theorem modGen_frameCount : (s.modGen L f).frameCount = s.frameCount := rfl
@[simp] theorem modGen_icm : (s.modGen L f).icm = s.icm := rfl
@[simp] theorem modGen_calls : (s.modGen L f).calls = s.calls := rfl
@[simp] theorem modGen_groups : (s.modGen L f).groups = s.groups := rfl
@[simp] theorem modGen_icmAlertS : (s.modGen L f).icmAlertS = s.icmAlertS := rfl
@[simp] theorem modGen_hoots : (s.modGen L f).hoots = s.hoots := rfl
@[simp] theorem modGen_perms : (s.modGen L f).perms = s.perms := rfl
@[simp] theorem modGen_latches : (s.modGen L f).latches = s.latches := rfl
@[simp] theorem modGen_routes : (s.modGen L f).routes = s.routes := rfl
@[simp] theorem modGen_channels : (s.modGen L f).channels = s.channels := rfl
@[simp] theorem modGen_icmRecord : (s.modGen L f).icmRecord = s.icmRecord := rfl
@[simp] theorem modGen_timeValid : (s.modGen L f).timeValid = s.timeValid := rfl
@[simp] theorem modGen_log : (s.modGen L f).log = s.log := rfl
@[simp] theorem modGen_links : (s.modGen L f).links = s.links := rfl
@[simp] theorem modGen_posHw : (s.modGen L f).posHw = s.posHw := rfl
@[simp] theorem modGen_lineHw : (s.modGen L f).lineHw = s.lineHw := rfl
@[simp] theorem modGen_syncPresent : (s.modGen L f).syncPresent = s.syncPresent := rfl
@[simp] theorem modGen_pulsed : (s.modGen L f).pulsed = s.pulsed := rfl
@[simp] theorem modGen_sinkOut : (s.modGen L f).sinkOut = s.sinkOut := rfl
@[simp] theorem modGen_recOut : (s.modGen L f).recOut = s.recOut := rfl
@[simp] theorem modGen_presenceOut : (s.modGen L f).presenceOut = s.presenceOut := rfl
@[simp] theorem modGen_origin : (s.modGen L f).origin = s.origin := rfl
@[simp] theorem modGen_released : (s.modGen L f).released = s.released := rfl
@[simp] theorem modGen_drawn : (s.modGen L f).drawn = s.drawn := rfl
end


/-! ### State.modIcm -/

section
variable (s : State) (p : PosId) (f : IcmPos → IcmPos)

@[simp] theorem modIcm_pending : (s.modIcm p f).pending = s.pending := rfl
@[simp] theorem modIcm_positions : (s.modIcm p f).positions = s.positions := rfl
@[simp] theorem modIcm_bridges : (s.modIcm p f).bridges = s.bridges := rfl
@[simp] theorem modIcm_clips : (s.modIcm p f).clips = s.clips := rfl
@[simp] theorem modIcm_detectors : (s.modIcm p f).detectors = s.detectors := rfl
@[simp] theorem modIcm_vadLine : (s.modIcm p f).vadLine = s.vadLine := rfl
@[simp] theorem modIcm_vadPos : (s.modIcm p f).vadPos = s.vadPos := rfl
@[simp] theorem modIcm_lines : (s.modIcm p f).lines = s.lines := rfl
@[simp] theorem modIcm_rings : (s.modIcm p f).rings = s.rings := rfl
@[simp] theorem modIcm_gens : (s.modIcm p f).gens = s.gens := rfl
@[simp] theorem modIcm_frameCount : (s.modIcm p f).frameCount = s.frameCount := rfl
@[simp] theorem modIcm_icm : (s.modIcm p f).icm = s.icm.modify p f := rfl
@[simp] theorem modIcm_calls : (s.modIcm p f).calls = s.calls := rfl
@[simp] theorem modIcm_groups : (s.modIcm p f).groups = s.groups := rfl
@[simp] theorem modIcm_icmAlertS : (s.modIcm p f).icmAlertS = s.icmAlertS := rfl
@[simp] theorem modIcm_hoots : (s.modIcm p f).hoots = s.hoots := rfl
@[simp] theorem modIcm_perms : (s.modIcm p f).perms = s.perms := rfl
@[simp] theorem modIcm_latches : (s.modIcm p f).latches = s.latches := rfl
@[simp] theorem modIcm_routes : (s.modIcm p f).routes = s.routes := rfl
@[simp] theorem modIcm_channels : (s.modIcm p f).channels = s.channels := rfl
@[simp] theorem modIcm_icmRecord : (s.modIcm p f).icmRecord = s.icmRecord := rfl
@[simp] theorem modIcm_timeValid : (s.modIcm p f).timeValid = s.timeValid := rfl
@[simp] theorem modIcm_log : (s.modIcm p f).log = s.log := rfl
@[simp] theorem modIcm_links : (s.modIcm p f).links = s.links := rfl
@[simp] theorem modIcm_posHw : (s.modIcm p f).posHw = s.posHw := rfl
@[simp] theorem modIcm_lineHw : (s.modIcm p f).lineHw = s.lineHw := rfl
@[simp] theorem modIcm_syncPresent : (s.modIcm p f).syncPresent = s.syncPresent := rfl
@[simp] theorem modIcm_pulsed : (s.modIcm p f).pulsed = s.pulsed := rfl
@[simp] theorem modIcm_sinkOut : (s.modIcm p f).sinkOut = s.sinkOut := rfl
@[simp] theorem modIcm_recOut : (s.modIcm p f).recOut = s.recOut := rfl
@[simp] theorem modIcm_presenceOut : (s.modIcm p f).presenceOut = s.presenceOut := rfl
@[simp] theorem modIcm_origin : (s.modIcm p f).origin = s.origin := rfl
@[simp] theorem modIcm_released : (s.modIcm p f).released = s.released := rfl
@[simp] theorem modIcm_drawn : (s.modIcm p f).drawn = s.drawn := rfl
end


/-! ### State.modCall -/

section
variable (s : State) (c : BridgeId) (f : Call → Call)

@[simp] theorem modCall_pending : (s.modCall c f).pending = s.pending := rfl
@[simp] theorem modCall_positions : (s.modCall c f).positions = s.positions := rfl
@[simp] theorem modCall_bridges : (s.modCall c f).bridges = s.bridges := rfl
@[simp] theorem modCall_clips : (s.modCall c f).clips = s.clips := rfl
@[simp] theorem modCall_detectors : (s.modCall c f).detectors = s.detectors := rfl
@[simp] theorem modCall_vadLine : (s.modCall c f).vadLine = s.vadLine := rfl
@[simp] theorem modCall_vadPos : (s.modCall c f).vadPos = s.vadPos := rfl
@[simp] theorem modCall_lines : (s.modCall c f).lines = s.lines := rfl
@[simp] theorem modCall_rings : (s.modCall c f).rings = s.rings := rfl
@[simp] theorem modCall_gens : (s.modCall c f).gens = s.gens := rfl
@[simp] theorem modCall_frameCount : (s.modCall c f).frameCount = s.frameCount := rfl
@[simp] theorem modCall_icm : (s.modCall c f).icm = s.icm := rfl
@[simp] theorem modCall_calls : (s.modCall c f).calls = s.calls.modify c (Option.map f) := rfl
@[simp] theorem modCall_groups : (s.modCall c f).groups = s.groups := rfl
@[simp] theorem modCall_icmAlertS : (s.modCall c f).icmAlertS = s.icmAlertS := rfl
@[simp] theorem modCall_hoots : (s.modCall c f).hoots = s.hoots := rfl
@[simp] theorem modCall_perms : (s.modCall c f).perms = s.perms := rfl
@[simp] theorem modCall_latches : (s.modCall c f).latches = s.latches := rfl
@[simp] theorem modCall_routes : (s.modCall c f).routes = s.routes := rfl
@[simp] theorem modCall_channels : (s.modCall c f).channels = s.channels := rfl
@[simp] theorem modCall_icmRecord : (s.modCall c f).icmRecord = s.icmRecord := rfl
@[simp] theorem modCall_timeValid : (s.modCall c f).timeValid = s.timeValid := rfl
@[simp] theorem modCall_log : (s.modCall c f).log = s.log := rfl
@[simp] theorem modCall_links : (s.modCall c f).links = s.links := rfl
@[simp] theorem modCall_posHw : (s.modCall c f).posHw = s.posHw := rfl
@[simp] theorem modCall_lineHw : (s.modCall c f).lineHw = s.lineHw := rfl
@[simp] theorem modCall_syncPresent : (s.modCall c f).syncPresent = s.syncPresent := rfl
@[simp] theorem modCall_pulsed : (s.modCall c f).pulsed = s.pulsed := rfl
@[simp] theorem modCall_sinkOut : (s.modCall c f).sinkOut = s.sinkOut := rfl
@[simp] theorem modCall_recOut : (s.modCall c f).recOut = s.recOut := rfl
@[simp] theorem modCall_presenceOut : (s.modCall c f).presenceOut = s.presenceOut := rfl
@[simp] theorem modCall_origin : (s.modCall c f).origin = s.origin := rfl
@[simp] theorem modCall_released : (s.modCall c f).released = s.released := rfl
@[simp] theorem modCall_drawn : (s.modCall c f).drawn = s.drawn := rfl
end


/-! ### State.modHoot -/

section
variable (s : State) (b : BridgeId) (f : Hoot → Hoot)

@[simp] theorem modHoot_pending : (s.modHoot b f).pending = s.pending := rfl
@[simp] theorem modHoot_positions : (s.modHoot b f).positions = s.positions := rfl
@[simp] theorem modHoot_bridges : (s.modHoot b f).bridges = s.bridges := rfl
@[simp] theorem modHoot_clips : (s.modHoot b f).clips = s.clips := rfl
@[simp] theorem modHoot_detectors : (s.modHoot b f).detectors = s.detectors := rfl
@[simp] theorem modHoot_vadLine : (s.modHoot b f).vadLine = s.vadLine := rfl
@[simp] theorem modHoot_vadPos : (s.modHoot b f).vadPos = s.vadPos := rfl
@[simp] theorem modHoot_lines : (s.modHoot b f).lines = s.lines := rfl
@[simp] theorem modHoot_rings : (s.modHoot b f).rings = s.rings := rfl
@[simp] theorem modHoot_gens : (s.modHoot b f).gens = s.gens := rfl
@[simp] theorem modHoot_frameCount : (s.modHoot b f).frameCount = s.frameCount := rfl
@[simp] theorem modHoot_icm : (s.modHoot b f).icm = s.icm := rfl
@[simp] theorem modHoot_calls : (s.modHoot b f).calls = s.calls := rfl
@[simp] theorem modHoot_groups : (s.modHoot b f).groups = s.groups := rfl
@[simp] theorem modHoot_icmAlertS : (s.modHoot b f).icmAlertS = s.icmAlertS := rfl
@[simp] theorem modHoot_hoots : (s.modHoot b f).hoots = s.hoots.modify b (Option.map f) := rfl
@[simp] theorem modHoot_perms : (s.modHoot b f).perms = s.perms := rfl
@[simp] theorem modHoot_latches : (s.modHoot b f).latches = s.latches := rfl
@[simp] theorem modHoot_routes : (s.modHoot b f).routes = s.routes := rfl
@[simp] theorem modHoot_channels : (s.modHoot b f).channels = s.channels := rfl
@[simp] theorem modHoot_icmRecord : (s.modHoot b f).icmRecord = s.icmRecord := rfl
@[simp] theorem modHoot_timeValid : (s.modHoot b f).timeValid = s.timeValid := rfl
@[simp] theorem modHoot_log : (s.modHoot b f).log = s.log := rfl
@[simp] theorem modHoot_links : (s.modHoot b f).links = s.links := rfl
@[simp] theorem modHoot_posHw : (s.modHoot b f).posHw = s.posHw := rfl
@[simp] theorem modHoot_lineHw : (s.modHoot b f).lineHw = s.lineHw := rfl
@[simp] theorem modHoot_syncPresent : (s.modHoot b f).syncPresent = s.syncPresent := rfl
@[simp] theorem modHoot_pulsed : (s.modHoot b f).pulsed = s.pulsed := rfl
@[simp] theorem modHoot_sinkOut : (s.modHoot b f).sinkOut = s.sinkOut := rfl
@[simp] theorem modHoot_recOut : (s.modHoot b f).recOut = s.recOut := rfl
@[simp] theorem modHoot_presenceOut : (s.modHoot b f).presenceOut = s.presenceOut := rfl
@[simp] theorem modHoot_origin : (s.modHoot b f).origin = s.origin := rfl
@[simp] theorem modHoot_released : (s.modHoot b f).released = s.released := rfl
@[simp] theorem modHoot_drawn : (s.modHoot b f).drawn = s.drawn := rfl
end


/-! ### State.setCall -/

section
variable (s : State) (c : BridgeId) (v : Option Call)

@[simp] theorem setCall_pending : (s.setCall c v).pending = s.pending := rfl
@[simp] theorem setCall_positions : (s.setCall c v).positions = s.positions := rfl
@[simp] theorem setCall_bridges : (s.setCall c v).bridges = s.bridges := rfl
@[simp] theorem setCall_clips : (s.setCall c v).clips = s.clips := rfl
@[simp] theorem setCall_detectors : (s.setCall c v).detectors = s.detectors := rfl
@[simp] theorem setCall_vadLine : (s.setCall c v).vadLine = s.vadLine := rfl
@[simp] theorem setCall_vadPos : (s.setCall c v).vadPos = s.vadPos := rfl
@[simp] theorem setCall_lines : (s.setCall c v).lines = s.lines := rfl
@[simp] theorem setCall_rings : (s.setCall c v).rings = s.rings := rfl
@[simp] theorem setCall_gens : (s.setCall c v).gens = s.gens := rfl
@[simp] theorem setCall_frameCount : (s.setCall c v).frameCount = s.frameCount := rfl
@[simp] theorem setCall_icm : (s.setCall c v).icm = s.icm := rfl
@[simp] theorem setCall_calls : (s.setCall c v).calls = s.calls.set c v := rfl
@[simp] theorem setCall_groups : (s.setCall c v).groups = s.groups := rfl
@[simp] theorem setCall_icmAlertS : (s.setCall c v).icmAlertS = s.icmAlertS := rfl
@[simp] theorem setCall_hoots : (s.setCall c v).hoots = s.hoots := rfl
@[simp] theorem setCall_perms : (s.setCall c v).perms = s.perms := rfl
@[simp] theorem setCall_latches : (s.setCall c v).latches = s.latches := rfl
@[simp] theorem setCall_routes : (s.setCall c v).routes = s.routes := rfl
@[simp] theorem setCall_channels : (s.setCall c v).channels = s.channels := rfl
@[simp] theorem setCall_icmRecord : (s.setCall c v).icmRecord = s.icmRecord := rfl
@[simp] theorem setCall_timeValid : (s.setCall c v).timeValid = s.timeValid := rfl
@[simp] theorem setCall_log : (s.setCall c v).log = s.log := rfl
@[simp] theorem setCall_links : (s.setCall c v).links = s.links := rfl
@[simp] theorem setCall_posHw : (s.setCall c v).posHw = s.posHw := rfl
@[simp] theorem setCall_lineHw : (s.setCall c v).lineHw = s.lineHw := rfl
@[simp] theorem setCall_syncPresent : (s.setCall c v).syncPresent = s.syncPresent := rfl
@[simp] theorem setCall_pulsed : (s.setCall c v).pulsed = s.pulsed := rfl
@[simp] theorem setCall_sinkOut : (s.setCall c v).sinkOut = s.sinkOut := rfl
@[simp] theorem setCall_recOut : (s.setCall c v).recOut = s.recOut := rfl
@[simp] theorem setCall_presenceOut : (s.setCall c v).presenceOut = s.presenceOut := rfl
@[simp] theorem setCall_origin : (s.setCall c v).origin = s.origin := rfl
@[simp] theorem setCall_released : (s.setCall c v).released = s.released := rfl
@[simp] theorem setCall_drawn : (s.setCall c v).drawn = s.drawn := rfl
end


/-! ### State.setHoot -/

section
variable (s : State) (b : BridgeId) (v : Option Hoot)

@[simp] theorem setHoot_pending : (s.setHoot b v).pending = s.pending := rfl
@[simp] theorem setHoot_positions : (s.setHoot b v).positions = s.positions := rfl
@[simp] theorem setHoot_bridges : (s.setHoot b v).bridges = s.bridges := rfl
@[simp] theorem setHoot_clips : (s.setHoot b v).clips = s.clips := rfl
@[simp] theorem setHoot_detectors : (s.setHoot b v).detectors = s.detectors := rfl
@[simp] theorem setHoot_vadLine : (s.setHoot b v).vadLine = s.vadLine := rfl
@[simp] theorem setHoot_vadPos : (s.setHoot b v).vadPos = s.vadPos := rfl
@[simp] theorem setHoot_lines : (s.setHoot b v).lines = s.lines := rfl
@[simp] theorem setHoot_rings : (s.setHoot b v).rings = s.rings := rfl
@[simp] theorem setHoot_gens : (s.setHoot b v).gens = s.gens := rfl
@[simp] theorem setHoot_frameCount : (s.setHoot b v).frameCount = s.frameCount := rfl
@[simp] theorem setHoot_icm : (s.setHoot b v).icm = s.icm := rfl
@[simp] theorem setHoot_calls : (s.setHoot b v).calls = s.calls := rfl
@[simp] theorem setHoot_groups : (s.setHoot b v).groups = s.groups := rfl
@[simp] theorem setHoot_icmAlertS : (s.setHoot b v).icmAlertS = s.icmAlertS := rfl
@[simp] theorem setHoot_hoots : (s.setHoot b v).hoots = s.hoots.set b v := rfl
@[simp] theorem setHoot_perms : (s.setHoot b v).perms = s.perms := rfl
@[simp] theorem setHoot_latches : (s.setHoot b v).latches = s.latches := rfl
@[simp] theorem setHoot_routes : (s.setHoot b v).routes = s.routes := rfl
@[simp] theorem setHoot_channels : (s.setHoot b v).channels = s.channels := rfl
@[simp] theorem setHoot_icmRecord : (s.setHoot b v).icmRecord = s.icmRecord := rfl
@[simp] theorem setHoot_timeValid : (s.setHoot b v).timeValid = s.timeValid := rfl
@[simp] theorem setHoot_log : (s.setHoot b v).log = s.log := rfl
@[simp] theorem setHoot_links : (s.setHoot b v).links = s.links := rfl
@[simp] theorem setHoot_posHw : (s.setHoot b v).posHw = s.posHw := rfl
@[simp] theorem setHoot_lineHw : (s.setHoot b v).lineHw = s.lineHw := rfl
@[simp] theorem setHoot_syncPresent : (s.setHoot b v).syncPresent = s.syncPresent := rfl
@[simp] theorem setHoot_pulsed : (s.setHoot b v).pulsed = s.pulsed := rfl
@[simp] theorem setHoot_sinkOut : (s.setHoot b v).sinkOut = s.sinkOut := rfl
@[simp] theorem setHoot_recOut : (s.setHoot b v).recOut = s.recOut := rfl
@[simp] theorem setHoot_presenceOut : (s.setHoot b v).presenceOut = s.presenceOut := rfl
@[simp] theorem setHoot_origin : (s.setHoot b v).origin = s.origin := rfl
@[simp] theorem setHoot_released : (s.setHoot b v).released = s.released := rfl
@[simp] theorem setHoot_drawn : (s.setHoot b v).drawn = s.drawn := rfl
end


/-! ### State.modPerm -/

section
variable (s : State) (p : PosId) (f : Perm → Perm)

@[simp] theorem modPerm_pending : (s.modPerm p f).pending = s.pending := rfl
@[simp] theorem modPerm_positions : (s.modPerm p f).positions = s.positions := rfl
@[simp] theorem modPerm_bridges : (s.modPerm p f).bridges = s.bridges := rfl
@[simp] theorem modPerm_clips : (s.modPerm p f).clips = s.clips := rfl
@[simp] theorem modPerm_detectors : (s.modPerm p f).detectors = s.detectors := rfl
@[simp] theorem modPerm_vadLine : (s.modPerm p f).vadLine = s.vadLine := rfl
@[simp] theorem modPerm_vadPos : (s.modPerm p f).vadPos = s.vadPos := rfl
@[simp] theorem modPerm_lines : (s.modPerm p f).lines = s.lines := rfl
@[simp] theorem modPerm_rings : (s.modPerm p f).rings = s.rings := rfl
@[simp] theorem modPerm_gens : (s.modPerm p f).gens = s.gens := rfl
@[simp] theorem modPerm_frameCount : (s.modPerm p f).frameCount = s.frameCount := rfl
@[simp] theorem modPerm_icm : (s.modPerm p f).icm = s.icm := rfl
@[simp] theorem modPerm_calls : (s.modPerm p f).calls = s.calls := rfl
@[simp] theorem modPerm_groups : (s.modPerm p f).groups = s.groups := rfl
@[simp] theorem modPerm_icmAlertS : (s.modPerm p f).icmAlertS = s.icmAlertS := rfl
@[simp] theorem modPerm_hoots : (s.modPerm p f).hoots = s.hoots := rfl
@[simp] theorem modPerm_perms : (s.modPerm p f).perms = s.perms.modify p f := rfl
@[simp] theorem modPerm_latches : (s.modPerm p f).latches = s.latches := rfl
@[simp] theorem modPerm_routes : (s.modPerm p f).routes = s.routes := rfl
@[simp] theorem modPerm_channels : (s.modPerm p f).channels = s.channels := rfl
@[simp] theorem modPerm_icmRecord : (s.modPerm p f).icmRecord = s.icmRecord := rfl
@[simp] theorem modPerm_timeValid : (s.modPerm p f).timeValid = s.timeValid := rfl
@[simp] theorem modPerm_log : (s.modPerm p f).log = s.log := rfl
@[simp] theorem modPerm_links : (s.modPerm p f).links = s.links := rfl
@[simp] theorem modPerm_posHw : (s.modPerm p f).posHw = s.posHw := rfl
@[simp] theorem modPerm_lineHw : (s.modPerm p f).lineHw = s.lineHw := rfl
@[simp] theorem modPerm_syncPresent : (s.modPerm p f).syncPresent = s.syncPresent := rfl
@[simp] theorem modPerm_pulsed : (s.modPerm p f).pulsed = s.pulsed := rfl
@[simp] theorem modPerm_sinkOut : (s.modPerm p f).sinkOut = s.sinkOut := rfl
@[simp] theorem modPerm_recOut : (s.modPerm p f).recOut = s.recOut := rfl
@[simp] theorem modPerm_presenceOut : (s.modPerm p f).presenceOut = s.presenceOut := rfl
@[simp] theorem modPerm_origin : (s.modPerm p f).origin = s.origin := rfl
@[simp] theorem modPerm_released : (s.modPerm p f).released = s.released := rfl
@[simp] theorem modPerm_drawn : (s.modPerm p f).drawn = s.drawn := rfl
end


/-! ### State.setLatch -/

section
variable (s : State) (l : LinkId) (v : Option Violation)

@[simp] theorem setLatch_pending : (s.setLatch l v).pending = s.pending := rfl
@[simp] theorem setLatch_positions : (s.setLatch l v).positions = s.positions := rfl
@[simp] theorem setLatch_bridges : (s.setLatch l v).bridges = s.bridges := rfl
@[simp] theorem setLatch_clips : (s.setLatch l v).clips = s.clips := rfl
@[simp] theorem setLatch_detectors : (s.setLatch l v).detectors = s.detectors := rfl
@[simp] theorem setLatch_vadLine : (s.setLatch l v).vadLine = s.vadLine := rfl
@[simp] theorem setLatch_vadPos : (s.setLatch l v).vadPos = s.vadPos := rfl
@[simp] theorem setLatch_lines : (s.setLatch l v).lines = s.lines := rfl
@[simp] theorem setLatch_rings : (s.setLatch l v).rings = s.rings := rfl
@[simp] theorem setLatch_gens : (s.setLatch l v).gens = s.gens := rfl
@[simp] theorem setLatch_frameCount : (s.setLatch l v).frameCount = s.frameCount := rfl
@[simp] theorem setLatch_icm : (s.setLatch l v).icm = s.icm := rfl
@[simp] theorem setLatch_calls : (s.setLatch l v).calls = s.calls := rfl
@[simp] theorem setLatch_groups : (s.setLatch l v).groups = s.groups := rfl
@[simp] theorem setLatch_icmAlertS : (s.setLatch l v).icmAlertS = s.icmAlertS := rfl
@[simp] theorem setLatch_hoots : (s.setLatch l v).hoots = s.hoots := rfl
@[simp] theorem setLatch_perms : (s.setLatch l v).perms = s.perms := rfl
@[simp] theorem setLatch_latches : (s.setLatch l v).latches = s.latches.set (linkIdx l) v := rfl
@[simp] theorem setLatch_routes : (s.setLatch l v).routes = s.routes := rfl
@[simp] theorem setLatch_channels : (s.setLatch l v).channels = s.channels := rfl
@[simp] theorem setLatch_icmRecord : (s.setLatch l v).icmRecord = s.icmRecord := rfl
@[simp] theorem setLatch_timeValid : (s.setLatch l v).timeValid = s.timeValid := rfl
@[simp] theorem setLatch_log : (s.setLatch l v).log = s.log := rfl
@[simp] theorem setLatch_links : (s.setLatch l v).links = s.links := rfl
@[simp] theorem setLatch_posHw : (s.setLatch l v).posHw = s.posHw := rfl
@[simp] theorem setLatch_lineHw : (s.setLatch l v).lineHw = s.lineHw := rfl
@[simp] theorem setLatch_syncPresent : (s.setLatch l v).syncPresent = s.syncPresent := rfl
@[simp] theorem setLatch_pulsed : (s.setLatch l v).pulsed = s.pulsed := rfl
@[simp] theorem setLatch_sinkOut : (s.setLatch l v).sinkOut = s.sinkOut := rfl
@[simp] theorem setLatch_recOut : (s.setLatch l v).recOut = s.recOut := rfl
@[simp] theorem setLatch_presenceOut : (s.setLatch l v).presenceOut = s.presenceOut := rfl
@[simp] theorem setLatch_origin : (s.setLatch l v).origin = s.origin := rfl
@[simp] theorem setLatch_released : (s.setLatch l v).released = s.released := rfl
@[simp] theorem setLatch_drawn : (s.setLatch l v).drawn = s.drawn := rfl
end


/-! ### State.setChan -/

section
variable (s : State) (c : ChanId) (v : Option Channel)

@[simp] theorem setChan_pending : (s.setChan c v).pending = s.pending := rfl
@[simp] theorem setChan_positions : (s.setChan c v).positions = s.positions := rfl
@[simp] theorem setChan_bridges : (s.setChan c v).bridges = s.bridges := rfl
@[simp] theorem setChan_clips : (s.setChan c v).clips = s.clips := rfl
@[simp] theorem setChan_detectors : (s.setChan c v).detectors = s.detectors := rfl
@[simp] theorem setChan_vadLine : (s.setChan c v).vadLine = s.vadLine := rfl
@[simp] theorem setChan_vadPos : (s.setChan c v).vadPos = s.vadPos := rfl
@[simp] theorem setChan_lines : (s.setChan c v).lines = s.lines := rfl
@[simp] theorem setChan_rings : (s.setChan c v).rings = s.rings := rfl
@[simp] theorem setChan_gens : (s.setChan c v).gens = s.gens := rfl
@[simp] theorem setChan_frameCount : (s.setChan c v).frameCount = s.frameCount := rfl
@[simp] theorem setChan_icm : (s.setChan c v).icm = s.icm := rfl
@[simp] theorem setChan_calls : (s.setChan c v).calls = s.calls := rfl
@[simp] theorem setChan_groups : (s.setChan c v).groups = s.groups := rfl
@[simp] theorem setChan_icmAlertS : (s.setChan c v).icmAlertS = s.icmAlertS := rfl
@[simp] theorem setChan_hoots : (s.setChan c v).hoots = s.hoots := rfl
@[simp] theorem setChan_perms : (s.setChan c v).perms = s.perms := rfl
@[simp] theorem setChan_latches : (s.setChan c v).latches = s.latches := rfl
@[simp] theorem setChan_routes : (s.setChan c v).routes = s.routes := rfl
@[simp] theorem setChan_channels : (s.setChan c v).channels = s.channels.set c v := rfl
@[simp] theorem setChan_icmRecord : (s.setChan c v).icmRecord = s.icmRecord := rfl
@[simp] theorem setChan_timeValid : (s.setChan c v).timeValid = s.timeValid := rfl
@[simp] theorem setChan_log : (s.setChan c v).log = s.log := rfl
@[simp] theorem setChan_links : (s.setChan c v).links = s.links := rfl
@[simp] theorem setChan_posHw : (s.setChan c v).posHw = s.posHw := rfl
@[simp] theorem setChan_lineHw : (s.setChan c v).lineHw = s.lineHw := rfl
@[simp] theorem setChan_syncPresent : (s.setChan c v).syncPresent = s.syncPresent := rfl
@[simp] theorem setChan_pulsed : (s.setChan c v).pulsed = s.pulsed := rfl
@[simp] theorem setChan_sinkOut : (s.setChan c v).sinkOut = s.sinkOut := rfl
@[simp] theorem setChan_recOut : (s.setChan c v).recOut = s.recOut := rfl
@[simp] theorem setChan_presenceOut : (s.setChan c v).presenceOut = s.presenceOut := rfl
@[simp] theorem setChan_origin : (s.setChan c v).origin = s.origin := rfl
@[simp] theorem setChan_released : (s.setChan c v).released = s.released := rfl
@[simp] theorem setChan_drawn : (s.setChan c v).drawn = s.drawn := rfl
end


/-! ### State.modLink -/

section
variable (s : State) (l : LinkId) (f : Link → Link)

@[simp] theorem modLink_pending : (s.modLink l f).pending = s.pending := rfl
@[simp] theorem modLink_positions : (s.modLink l f).positions = s.positions := rfl
@[simp] theorem modLink_bridges : (s.modLink l f).bridges = s.bridges := rfl
@[simp] theorem modLink_clips : (s.modLink l f).clips = s.clips := rfl
@[simp] theorem modLink_detectors : (s.modLink l f).detectors = s.detectors := rfl
@[simp] theorem modLink_vadLine : (s.modLink l f).vadLine = s.vadLine := rfl
@[simp] theorem modLink_vadPos : (s.modLink l f).vadPos = s.vadPos := rfl
@[simp] theorem modLink_lines : (s.modLink l f).lines = s.lines := rfl
@[simp] theorem modLink_rings : (s.modLink l f).rings = s.rings := rfl
@[simp] theorem modLink_gens : (s.modLink l f).gens = s.gens := rfl
@[simp] theorem modLink_frameCount : (s.modLink l f).frameCount = s.frameCount := rfl
@[simp] theorem modLink_icm : (s.modLink l f).icm = s.icm := rfl
@[simp] theorem modLink_calls : (s.modLink l f).calls = s.calls := rfl
@[simp] theorem modLink_groups : (s.modLink l f).groups = s.groups := rfl
@[simp] theorem modLink_icmAlertS : (s.modLink l f).icmAlertS = s.icmAlertS := rfl
@[simp] theorem modLink_hoots : (s.modLink l f).hoots = s.hoots := rfl
@[simp] theorem modLink_perms : (s.modLink l f).perms = s.perms := rfl
@[simp] theorem modLink_latches : (s.modLink l f).latches = s.latches := rfl
@[simp] theorem modLink_routes : (s.modLink l f).routes = s.routes := rfl
@[simp] theorem modLink_channels : (s.modLink l f).channels = s.channels := rfl
@[simp] theorem modLink_icmRecord : (s.modLink l f).icmRecord = s.icmRecord := rfl
@[simp] theorem modLink_timeValid : (s.modLink l f).timeValid = s.timeValid := rfl
@[simp] theorem modLink_log : (s.modLink l f).log = s.log := rfl
@[simp] theorem modLink_links : (s.modLink l f).links = s.links.modify (linkIdx l) f := rfl
@[simp] theorem modLink_posHw : (s.modLink l f).posHw = s.posHw := rfl
@[simp] theorem modLink_lineHw : (s.modLink l f).lineHw = s.lineHw := rfl
@[simp] theorem modLink_syncPresent : (s.modLink l f).syncPresent = s.syncPresent := rfl
@[simp] theorem modLink_pulsed : (s.modLink l f).pulsed = s.pulsed := rfl
@[simp] theorem modLink_sinkOut : (s.modLink l f).sinkOut = s.sinkOut := rfl
@[simp] theorem modLink_recOut : (s.modLink l f).recOut = s.recOut := rfl
@[simp] theorem modLink_presenceOut : (s.modLink l f).presenceOut = s.presenceOut := rfl
@[simp] theorem modLink_origin : (s.modLink l f).origin = s.origin := rfl
@[simp] theorem modLink_released : (s.modLink l f).released = s.released := rfl
@[simp] theorem modLink_drawn : (s.modLink l f).drawn = s.drawn := rfl
end


/-! ### State.modLog -/

section
variable (s : State) (f : Log → Log)

@[simp] theorem modLog_pending : (s.modLog f).pending = s.pending := rfl
@[simp] theorem modLog_positions : (s.modLog f).positions = s.positions := rfl
@[simp] theorem modLog_bridges : (s.modLog f).bridges = s.bridges := rfl
@[simp] theorem modLog_clips : (s.modLog f).clips = s.clips := rfl
@[simp] theorem modLog_detectors : (s.modLog f).detectors = s.detectors := rfl
@[simp] theorem modLog_vadLine : (s.modLog f).vadLine = s.vadLine := rfl
@[simp] theorem modLog_vadPos : (s.modLog f).vadPos = s.vadPos := rfl
@[simp] theorem modLog_lines : (s.modLog f).lines = s.lines := rfl
@[simp] theorem modLog_rings : (s.modLog f).rings = s.rings := rfl
@[simp] theorem modLog_gens : (s.modLog f).gens = s.gens := rfl
@[simp] theorem modLog_frameCount : (s.modLog f).frameCount = s.frameCount := rfl
@[simp] theorem modLog_icm : (s.modLog f).icm = s.icm := rfl
@[simp] theorem modLog_calls : (s.modLog f).calls = s.calls := rfl
@[simp] theorem modLog_groups : (s.modLog f).groups = s.groups := rfl
@[simp] theorem modLog_icmAlertS : (s.modLog f).icmAlertS = s.icmAlertS := rfl
@[simp] theorem modLog_hoots : (s.modLog f).hoots = s.hoots := rfl
@[simp] theorem modLog_perms : (s.modLog f).perms = s.perms := rfl
@[simp] theorem modLog_latches : (s.modLog f).latches = s.latches := rfl
@[simp] theorem modLog_routes : (s.modLog f).routes = s.routes := rfl
@[simp] theorem modLog_channels : (s.modLog f).channels = s.channels := rfl
@[simp] theorem modLog_icmRecord : (s.modLog f).icmRecord = s.icmRecord := rfl
@[simp] theorem modLog_timeValid : (s.modLog f).timeValid = s.timeValid := rfl
@[simp] theorem modLog_log : (s.modLog f).log = f s.log := rfl
@[simp] theorem modLog_links : (s.modLog f).links = s.links := rfl
@[simp] theorem modLog_posHw : (s.modLog f).posHw = s.posHw := rfl
@[simp] theorem modLog_lineHw : (s.modLog f).lineHw = s.lineHw := rfl
@[simp] theorem modLog_syncPresent : (s.modLog f).syncPresent = s.syncPresent := rfl
@[simp] theorem modLog_pulsed : (s.modLog f).pulsed = s.pulsed := rfl
@[simp] theorem modLog_sinkOut : (s.modLog f).sinkOut = s.sinkOut := rfl
@[simp] theorem modLog_recOut : (s.modLog f).recOut = s.recOut := rfl
@[simp] theorem modLog_presenceOut : (s.modLog f).presenceOut = s.presenceOut := rfl
@[simp] theorem modLog_origin : (s.modLog f).origin = s.origin := rfl
@[simp] theorem modLog_released : (s.modLog f).released = s.released := rfl
@[simp] theorem modLog_drawn : (s.modLog f).drawn = s.drawn := rfl
end


/-! ### State.begin -/

@[simp] theorem begin_pending (s : State) (o : Option LinkId) : (s.begin o).pending = s.pending := rfl
@[simp] theorem begin_positions (s : State) (o : Option LinkId) : (s.begin o).positions = s.positions := rfl
@[simp] theorem begin_bridges (s : State) (o : Option LinkId) : (s.begin o).bridges = s.bridges := rfl
@[simp] theorem begin_clips (s : State) (o : Option LinkId) : (s.begin o).clips = s.clips := rfl
@[simp] theorem begin_detectors (s : State) (o : Option LinkId) : (s.begin o).detectors = s.detectors := rfl
@[simp] theorem begin_vadLine (s : State) (o : Option LinkId) : (s.begin o).vadLine = s.vadLine := rfl
@[simp] theorem begin_vadPos (s : State) (o : Option LinkId) : (s.begin o).vadPos = s.vadPos := rfl
@[simp] theorem begin_lines (s : State) (o : Option LinkId) : (s.begin o).lines = s.lines := rfl
@[simp] theorem begin_rings (s : State) (o : Option LinkId) : (s.begin o).rings = s.rings := rfl
@[simp] theorem begin_gens (s : State) (o : Option LinkId) : (s.begin o).gens = s.gens := rfl
@[simp] theorem begin_frameCount (s : State) (o : Option LinkId) : (s.begin o).frameCount = s.frameCount := rfl
@[simp] theorem begin_icm (s : State) (o : Option LinkId) : (s.begin o).icm = s.icm := rfl
@[simp] theorem begin_calls (s : State) (o : Option LinkId) : (s.begin o).calls = s.calls := rfl
@[simp] theorem begin_groups (s : State) (o : Option LinkId) : (s.begin o).groups = s.groups := rfl
@[simp] theorem begin_icmAlertS (s : State) (o : Option LinkId) : (s.begin o).icmAlertS = s.icmAlertS := rfl
@[simp] theorem begin_hoots (s : State) (o : Option LinkId) : (s.begin o).hoots = s.hoots := rfl
@[simp] theorem begin_perms (s : State) (o : Option LinkId) : (s.begin o).perms = s.perms := rfl
@[simp] theorem begin_latches (s : State) (o : Option LinkId) : (s.begin o).latches = s.latches := rfl
@[simp] theorem begin_routes (s : State) (o : Option LinkId) : (s.begin o).routes = s.routes := rfl
@[simp] theorem begin_channels (s : State) (o : Option LinkId) : (s.begin o).channels = s.channels := rfl
@[simp] theorem begin_icmRecord (s : State) (o : Option LinkId) : (s.begin o).icmRecord = s.icmRecord := rfl
@[simp] theorem begin_timeValid (s : State) (o : Option LinkId) : (s.begin o).timeValid = s.timeValid := rfl
@[simp] theorem begin_log (s : State) (o : Option LinkId) : (s.begin o).log = s.log := rfl
@[simp] theorem begin_links (s : State) (o : Option LinkId) : (s.begin o).links = s.links := rfl
@[simp] theorem begin_posHw (s : State) (o : Option LinkId) : (s.begin o).posHw = s.posHw := rfl
@[simp] theorem begin_lineHw (s : State) (o : Option LinkId) : (s.begin o).lineHw = s.lineHw := rfl
@[simp] theorem begin_syncPresent (s : State) (o : Option LinkId) : (s.begin o).syncPresent = s.syncPresent := rfl
@[simp] theorem begin_pulsed (s : State) (o : Option LinkId) : (s.begin o).pulsed = s.pulsed := rfl
@[simp] theorem begin_sinkOut (s : State) (o : Option LinkId) : (s.begin o).sinkOut = s.sinkOut := rfl
@[simp] theorem begin_recOut (s : State) (o : Option LinkId) : (s.begin o).recOut = s.recOut := rfl
@[simp] theorem begin_presenceOut (s : State) (o : Option LinkId) : (s.begin o).presenceOut = s.presenceOut := rfl
@[simp] theorem begin_origin (s : State) (o : Option LinkId) : (s.begin o).origin = o := rfl
@[simp] theorem begin_released (s : State) (o : Option LinkId) : (s.begin o).released = [] := rfl
@[simp] theorem begin_drawn (s : State) (o : Option LinkId) : (s.begin o).drawn = s.drawn := rfl

/-! ### Folds -/

@[simp] theorem each_nil {α : Type} (s : State) (f : α → State → State) : s.each [] f = s := rfl
@[simp] theorem each_cons {α : Type} (s : State) (x : α) (xs : List α) (f : α → State → State) :
    s.each (x :: xs) f = (f x s).each xs f := rfl

/-- A relation that is reflexive and transitive, and that every step of a fold respects, relates the ends of
the fold. -/
theorem each_rel {α : Type} {R : State → State → Prop} (refl : ∀ s, R s s)
    (trans : ∀ {s t u}, R s t → R t u → R s u) {f : α → State → State} (h : ∀ x s, R s (f x s)) :
    ∀ (xs : List α) (s : State), R s (s.each xs f)
  | [], s => refl s
  | x :: xs, s => trans (h x s) (each_rel refl trans h xs (f x s))

/-! ### Links and their numbers -/

@[simp] theorem linkOfIdx_linkIdx (l : LinkId) : linkOfIdx (linkIdx l) = l := by
  cases l with
  | pc n => simp [linkIdx, linkOfIdx]
  | adm => rfl
  | recorder => rfl

@[simp] theorem linkIdx_linkOfIdx (i : Fin 6) : linkIdx (linkOfIdx i) = i := by
  revert i; decide

theorem linkIdx_inj {l m : LinkId} (h : linkIdx l = linkIdx m) : l = m := by
  simpa using congrArg linkOfIdx h

@[simp] theorem modLink_link_self (s : State) (l : LinkId) (f : Link → Link) :
    (s.modLink l f).link l = f (s.link l) := by simp [State.link]

@[simp] theorem modLink_link_ne (s : State) {l m : LinkId} (f : Link → Link) (h : m ≠ l) :
    (s.modLink l f).link m = s.link m := by
  have : linkIdx m ≠ linkIdx l := fun e => h (linkIdx_inj e)
  simp [State.link, this]

@[simp] theorem setLatch_latch_self (s : State) (l : LinkId) (v : Option Violation) :
    (s.setLatch l v).latch l = v := by simp [State.latch]

@[simp] theorem setLatch_latch_ne (s : State) {l m : LinkId} (v : Option Violation) (h : m ≠ l) :
    (s.setLatch l v).latch m = s.latch m := by
  have : linkIdx m ≠ linkIdx l := fun e => h (linkIdx_inj e)
  simp [State.latch, this]

end Sys2Proof.Machine
end

