-- ==== Sys2Proof/Laws/Kept.lean ====
section
/-! SUPPORT. What every shared operation of the call blocks keeps, said once: the relation `Kept`, and the
primitive changes that respect it. -/

namespace Sys2Proof.Machine

/-- The fields that no shared operation of the call blocks touches. -/
structure Frame where
  pending : List Instr
  clips : Tab Nat 384
  detectors : Tab Detector 336
  vadLine : VadParams
  vadPos : VadParams
  rings : Tab RingDet 192
  frameCount : Nat
  groups : Tab (List PosId) 32
  icmAlertS : Nat
  perms : Tab Perm 48
  latches : Tab (Option Violation) 6
  routes : Tab Route 192
  icmRecord : Bool
  timeValid : Bool
  posHw : Tab Highway 4
  lineHw : Tab Highway 4
  syncPresent : Bool
  pulsed : Bool
  sinkOut : Tab Half 384
  recOut : Tab (Half × Half) 64
  presenceOut : BitVec 192
  origin : Option LinkId
  drawn : Nat

/-- The untouched fields of a state. -/
def State.frame (s : State) : Frame :=
  { pending := s.pending, clips := s.clips, detectors := s.detectors, vadLine := s.vadLine,
    vadPos := s.vadPos, rings := s.rings, frameCount := s.frameCount, groups := s.groups,
    icmAlertS := s.icmAlertS, perms := s.perms, latches := s.latches, routes := s.routes,
    icmRecord := s.icmRecord, timeValid := s.timeValid, posHw := s.posHw, lineHw := s.lineHw,
    syncPresent := s.syncPresent, pulsed := s.pulsed, sinkOut := s.sinkOut, recOut := s.recOut, presenceOut := s.presenceOut,
    origin := s.origin, drawn := s.drawn }

/-- A link record without what a notice changes. -/
def Link.wire (k : Link) : Link := { k with queue := [], resync := none, dropped := 0, attention := false }

/-- A detail log without what a record changes. -/
def Log.settings (g : Log) : Log :=
  { g with queue := [], seq := 0#32, level := .normal, episode := none, captured := none, totalLost := 0 }

/-- What a shared operation of the call blocks keeps between the state before it and the state after it. -/
structure Kept (s t : State) : Prop where
  frame : t.frame = s.frame
  wires : ∀ i, (t.links.get i).wire = (s.links.get i).wire
  logSet : t.log.settings = s.log.settings
  posSet : ∀ p, (t.positions.get p).settings = (s.positions.get p).settings
  lineSet : ∀ L, (t.lines.get L).settings = (s.lines.get L).settings
  links : LinksOk s → LinksOk t
  log : LogOk s.log → LogOk t.log
  pool : PoolOk s → PoolOk t
  hoots : HootsOk s → HootsOk t
  camps : ∀ L, (t.lines.get L).camp.Sublist (s.lines.get L).camp

theorem Kept.refl (s : State) : Kept s s :=
  ⟨rfl, fun _ => rfl, rfl, fun _ => rfl, fun _ => rfl, id, id, id, id,
    fun _ => List.Sublist.refl _⟩

theorem Kept.trans {s t u : State} (h : Kept s t) (k : Kept t u) : Kept s u :=
  ⟨k.frame.trans h.frame, fun i => (k.wires i).trans (h.wires i), k.logSet.trans h.logSet,
    fun p => (k.posSet p).trans (h.posSet p), fun L => (k.lineSet L).trans (h.lineSet L),
    k.links ∘ h.links, k.log ∘ h.log, k.pool ∘ h.pool, k.hoots ∘ h.hoots,
    fun L => (k.camps L).trans (h.camps L)⟩

/-- A camp queue that only loses positions stays as R63 says. -/
theorem Kept.campsOk {s t : State} (h : Kept s t) (k : CampsOk s) : CampsOk t := fun L =>
  ⟨(h.camps L).length_le.trans (k L).capacity, (k L).noneTwice.sublist (h.camps L)⟩

/-- A fold of kept steps is kept. -/
theorem Kept.each {α : Type} {f : α → State → State} (h : ∀ x s, Kept s (f x s)) (xs : List α) (s : State) :
    Kept s (s.each xs f) := each_rel Kept.refl Kept.trans h xs s

/-- Two arms of a choice, each kept. -/
theorem Kept.ite {c : Prop} [Decidable c] {s t u : State} (h : Kept s t) (k : Kept s u) :
    Kept s (if c then t else u) := by split <;> assumption

/-! ## The detectors that a bridge record reads -/

theorem anyActive_congr {s t : State} (h : t.detectors = s.detectors) (cs : List Contrib) :
    anyActive t cs = anyActive s cs := by simp [anyActive, State.active, h]

theorem selectedActive_congr {s t : State} (h : t.detectors = s.detectors) (r : Bridge) :
    selectedActive t r = selectedActive s r := by simp [selectedActive, State.active, h]

theorem BridgeOk.congr {s t : State} (h : t.detectors = s.detectors) {r : Bridge} (k : BridgeOk s r) :
    BridgeOk t r :=
  ⟨k.capacity, k.noneTwice, k.ranges, by rw [anyActive_congr h]; exact k.flag,
    by rw [selectedActive_congr h]; exact k.idle, k.off⟩

theorem PoolOk.congr {s t : State} (h : t.detectors = s.detectors) (hb : t.bridges = s.bridges) (k : PoolOk s) :
    PoolOk t := fun b => by rw [hb]; exact (k b).congr h

/-! ## Changes of one record -/

theorem kept_modPos (s : State) (p : PosId) (f : Position → Position) (h : ∀ r, (f r).settings = r.settings) :
    Kept s (s.modPos p f) where
  frame := rfl
  wires _ := rfl
  logSet := rfl
  posSet q := by rw [modPos_positions, Tab.get_modify]; split; subst q; exact h _; rfl
  lineSet _ := rfl
  links := id
  log := id
  pool := PoolOk.congr rfl rfl
  hoots := id
  camps _ := List.Sublist.refl _

theorem kept_modLine (s : State) (L : LineId) (f : Line → Line) (h : ∀ r, (f r).settings = r.settings)
    (hc : ∀ r, (f r).camp.Sublist r.camp) : Kept s (s.modLine L f) where
  frame := rfl
  wires _ := rfl
  logSet := rfl
  posSet _ := rfl
  lineSet M := by rw [modLine_lines, Tab.get_modify]; split; subst M; exact h _; rfl
  links := id
  log := id
  pool := PoolOk.congr rfl rfl
  hoots := id
  camps M := by
    rw [modLine_lines, Tab.get_modify]
    split
    · subst M
      exact hc _
    · exact List.Sublist.refl _

theorem kept_modGen (s : State) (L : LineId) (f : Generator → Generator) : Kept s (s.modGen L f) :=
  ⟨rfl, fun _ => rfl, rfl, fun _ => rfl, fun _ => rfl, id, id, PoolOk.congr rfl rfl, id,
    fun _ => List.Sublist.refl _⟩

theorem kept_modIcm (s : State) (p : PosId) (f : IcmPos → IcmPos) : Kept s (s.modIcm p f) :=
  ⟨rfl, fun _ => rfl, rfl, fun _ => rfl, fun _ => rfl, id, id, PoolOk.congr rfl rfl, id,
    fun _ => List.Sublist.refl _⟩

theorem kept_modCall (s : State) (c : BridgeId) (f : Call → Call) : Kept s (s.modCall c f) :=
  ⟨rfl, fun _ => rfl, rfl, fun _ => rfl, fun _ => rfl, id, id, PoolOk.congr rfl rfl, id,
    fun _ => List.Sublist.refl _⟩

theorem kept_setCall (s : State) (c : BridgeId) (v : Option Call) : Kept s (s.setCall c v) :=
  ⟨rfl, fun _ => rfl, rfl, fun _ => rfl, fun _ => rfl, id, id, PoolOk.congr rfl rfl, id,
    fun _ => List.Sublist.refl _⟩

theorem kept_setChan (s : State) (c : ChanId) (v : Option Channel) : Kept s (s.setChan c v) :=
  ⟨rfl, fun _ => rfl, rfl, fun _ => rfl, fun _ => rfl, id, id, PoolOk.congr rfl rfl, id,
    fun _ => List.Sublist.refl _⟩

theorem kept_released (s : State) (xs : List ChanId) : Kept s { s with released := xs } :=
  ⟨rfl, fun _ => rfl, rfl, fun _ => rfl, fun _ => rfl, id, id, PoolOk.congr rfl rfl, id,
    fun _ => List.Sublist.refl _⟩

theorem kept_modBridgeAt (s : State) (b : BridgeId) (f : Bridge → Bridge)
    (h : BridgeOk s (s.bridges.get b) → BridgeOk s (f (s.bridges.get b))) : Kept s (s.modBridge b f) where
  frame := rfl
  wires _ := rfl
  logSet := rfl
  posSet _ := rfl
  lineSet _ := rfl
  links := id
  log := id
  pool k c := by
    rw [modBridge_bridges, Tab.get_modify]
    split
    · exact BridgeOk.congr (s := s) (t := s.modBridge b f) rfl (h (k b))
    · exact BridgeOk.congr (s := s) (t := s.modBridge b f) rfl (k c)
  hoots := id
  camps _ := List.Sublist.refl _

theorem kept_modBridge (s : State) (b : BridgeId) (f : Bridge → Bridge) (h : ∀ r, BridgeOk s r → BridgeOk s (f r)) :
    Kept s (s.modBridge b f) := kept_modBridgeAt s b f (h _)

theorem kept_modHoot (s : State) (b : BridgeId) (f : Hoot → Hoot) (h : ∀ r, HootOk r → HootOk (f r)) :
    Kept s (s.modHoot b f) where
  frame := rfl
  wires _ := rfl
  logSet := rfl
  posSet _ := rfl
  lineSet _ := rfl
  links := id
  log := id
  pool := PoolOk.congr rfl rfl
  hoots k c r hr := by
    rw [modHoot_hoots, Tab.get_modify] at hr
    split at hr
    · obtain ⟨x, hx, rfl⟩ := Option.map_eq_some_iff.mp hr
      exact h x (k b x hx)
    · exact k c r hr
  camps _ := List.Sublist.refl _

theorem kept_setHoot (s : State) (b : BridgeId) (v : Option Hoot) (h : HootsOk s → ∀ r, v = some r → HootOk r) :
    Kept s (s.setHoot b v) where
  frame := rfl
  wires _ := rfl
  logSet := rfl
  posSet _ := rfl
  lineSet _ := rfl
  links := id
  log := id
  pool := PoolOk.congr rfl rfl
  hoots k c r hr := by
    rw [setHoot_hoots, Tab.get_set] at hr
    split at hr
    · exact h k r hr
    · exact k c r hr
  camps _ := List.Sublist.refl _

/-! ## Notices -/

theorem satCount_le (n : Nat) : satCount n ≤ 65535 := Nat.min_le_right _ _

/-- How a link takes a notice keeps the link as its rules say (R183, R187). -/
theorem LinkOk.enqueue {k : Link} (h : LinkOk k) (n : Notice) : LinkOk (k.enqueue n) := by
  unfold Link.enqueue
  split
  · exact h
  · split
    · exact ⟨h.attention, h.capacity, satCount_le _, by simp, h.frame, h.partialFrame⟩
    · rename_i hc
      have hl : k.queue.length < 64 := by
        simp [Config.queueCapacity] at hc
        exact not_le.mp (of_decide_eq_false hc.2)
      exact ⟨rfl, by simp [Link.setQueue]; omega, h.dropped, h.pending, h.frame, h.partialFrame⟩

@[simp] theorem enqueue_wire (k : Link) (n : Notice) : (k.enqueue n).wire = k.wire := by
  unfold Link.enqueue
  split
  · rfl
  · split <;> rfl

/-- Submitting a notice touches the links alone (R183). -/
theorem kept_post (dest : LinkId → Bool) (n : Notice) (s : State) : Kept s (post dest n s) where
  frame := rfl
  wires i := by simp only [post, Tab.get_mapIdx]; split <;> simp
  logSet := rfl
  posSet _ := rfl
  lineSet _ := rfl
  links h i := by
    simp only [post, Tab.get_mapIdx]
    split
    · exact (h i).enqueue n
    · exact h i
  log := id
  pool := PoolOk.congr rfl rfl
  hoots := id
  camps _ := List.Sublist.refl _

theorem kept_postPos (p : PosId) (n : Notice) (s : State) : Kept s (postPos p n s) := kept_post _ n s
theorem kept_postMany (ps : List PosId) (n : Notice) (s : State) : Kept s (postMany ps n s) := kept_post _ n s
theorem kept_postLine (L : LineId) (n : Notice) (s : State) : Kept s (postLine L n s) := kept_post _ n s
theorem kept_postListeners (b : BridgeId) (n : Notice) (s : State) : Kept s (postListeners b n s) := kept_post _ n s
theorem kept_postRecorder (n : Notice) (s : State) : Kept s (postRecorder n s) := kept_post _ n s

/-! ## The detail log -/

/-- The log without what its state promises of the fill: what stands between two changes of one request. -/
structure LogPre (g : Log) : Prop where
  capacity : g.queue.length ≤ 1024
  high : 2 ≤ g.hw ∧ g.hw ≤ 1020
  low : 1 ≤ g.lw ∧ g.lw < g.hw
  episode : g.level = .lost ↔ g.episode.isSome
  counted : ∀ e, g.episode = some e → 1 ≤ e.count ∧ e.count ≤ 2 ^ 32 - 1 ∧
    (e.count < 2 ^ 32 - 1 → g.seq = e.first + BitVec.ofNat 32 e.count)
  total : g.totalLost ≤ 65535
  batch : g.lastBatch.length ≤ 8
  numbered : g.queue.IsChain follows
  newest : ∀ r, g.queue.getLast? = some r →
    (g.episode = none → g.seq = r.seq + 1) ∧ ∀ e, g.episode = some e → e.first = r.seq + 1

theorem LogOk.pre {g : Log} (h : LogOk g) : LogPre g :=
  ⟨h.capacity, h.high, h.low, h.episode, h.counted, h.total, h.batch, h.numbered, h.newest⟩

theorem LogPre.ok {g : Log} (h : LogPre g) (hn : g.level = .normal → g.queue.length < g.hw)
    (hd : g.level ≠ .normal → g.lw < g.queue.length) : LogOk g :=
  ⟨h.capacity, h.high, h.low, hn, hd, h.episode, h.counted, h.total, h.batch, h.numbered, h.newest⟩

/-- A change of the log that keeps its settings. -/
theorem kept_modLog (s : State) (f : Log → Log) (hs : (f s.log).settings = s.log.settings)
    (h : LogOk s.log → LogOk (f s.log)) : Kept s (s.modLog f) :=
  ⟨rfl, fun _ => rfl, hs, fun _ => rfl, fun _ => rfl, id, h, PoolOk.congr rfl rfl, id,
    fun _ => List.Sublist.refl _⟩

@[simp] theorem post_log (dest : LinkId → Bool) (n : Notice) (s : State) : (post dest n s).log = s.log := rfl

@[simp] theorem setLevel_log (v : LogLevel) (s : State) : (setLevel v s).log = { s.log with level := v } := rfl

@[simp] theorem admitRecord_log (r : Record) (s : State) :
    (admitRecord r s).log = { s.log with queue := s.log.queue ++ [stamp s r], seq := s.log.seq + 1 } := rfl

/-- A record admitted while the log is not LOST stands in its place (R166, R167). -/
theorem LogPre.admitRecord {s : State} {r : Record} (h : LogPre s.log) (hl : s.log.episode = none)
    (hf : s.log.queue.length < 1024) : LogPre (admitRecord r s).log := by
  refine ⟨?_, h.high, h.low, h.episode, fun e he => by simp [hl] at he, h.total, h.batch, ?_, ?_⟩
  · simp; omega
  · rw [admitRecord_log, List.isChain_append]
    refine ⟨h.numbered, by simp, ?_⟩
    intro x hx y hy
    simp only [List.head?_cons, Option.mem_def, Option.some.injEq] at hy
    subst hy
    exact Or.inl ((h.newest x hx).1 hl)
  · intro x hx
    simp only [admitRecord_log, List.getLast?_append, List.getLast?_singleton, Option.some_or, Option.some.injEq] at hx
    subst hx
    exact ⟨fun _ => rfl, fun e he => by simp [hl] at he⟩

/-- NORMAL at high water becomes THROTTLED, and the log is as its rules say (R168). -/
theorem LogPre.throttle {s : State} (h : LogPre s.log)
    (hd : s.log.level ≠ .normal → s.log.lw < s.log.queue.length) : LogOk (throttle s).log := by
  unfold Machine.throttle
  split
  · rename_i hc
    obtain ⟨hl, hf⟩ := hc
    have hep : s.log.episode = none := by
      have := h.episode
      simp [hl] at this
      exact this
    have hlow := h.low
    refine LogPre.ok ⟨h.capacity, h.high, h.low, by simp [hep], fun e he => by simp [hep] at he, h.total, h.batch,
      h.numbered, h.newest⟩ (by simp) ?_
    intro _
    simp only [setLevel_log]
    unfold Log.fill at hf
    omega
  · rename_i hc
    refine h.ok (fun hl => ?_) hd
    unfold Log.fill at hc
    simp only [hl, true_and, not_le] at hc
    exact hc

theorem kept_setLevel (v : LogLevel) (s : State) (h : LogOk s.log → LogOk { s.log with level := v }) :
    Kept s (setLevel v s) :=
  (kept_modLog s (fun g => { g with level := v }) rfl h).trans (kept_postRecorder _ _)

/-- A record lost opens or continues an episode (R169, R170). -/
theorem lose_log_pre {r : Record} {s : State} (h : LogOk s.log) (hf : s.log.level = .lost ∨ s.log.fill = 1024) :
    LogOk { (lose r s).log with level := .lost } := by
  have hd := h.low
  have hh := h.high
  refine ⟨h.capacity, h.high, h.low, by simp, ?_, ?_, ?_, satCount_le _, h.batch, h.numbered, ?_⟩
  · intro _
    rcases hf with hf | hf
    · exact h.drained (by simp [hf])
    · unfold Log.fill at hf
      simp only [lose, modLog_log]
      omega
  · simp only [lose, modLog_log, true_iff]
    cases s.log.episode <;> rfl
  · intro e he
    simp only [lose, modLog_log] at he
    cases hep : s.log.episode with
    | none =>
      rw [hep] at he
      simp only [Episode.count1, Option.some.injEq] at he
      subst he
      exact ⟨by simp only; omega, by simp only; omega, fun _ => rfl⟩
    | some e0 =>
      rw [hep] at he
      simp only [Episode.count1, Option.some.injEq] at he
      subst he
      obtain ⟨h1, h2, h3⟩ := h.counted e0 hep
      refine ⟨by simp only; omega, Nat.min_le_right _ _, ?_⟩
      intro hlt
      simp only at hlt
      have hm : min (e0.count + 1) (2 ^ 32 - 1) = e0.count + 1 := by omega
      simp only [hm] at hlt ⊢
      simp only [lose, modLog_log]
      rw [h3 (by omega), BitVec.add_assoc]
      congr 1
      exact (BitVec.ofNat_add _ _).symm
  · intro x hx
    have hn := h.newest x hx
    refine ⟨?_, ?_⟩
    · simp only [lose, modLog_log]
      cases s.log.episode <;> simp [Episode.count1]
    · intro e he
      simp only [lose, modLog_log] at he
      cases hep : s.log.episode with
      | none =>
        rw [hep] at he
        simp only [Episode.count1, Option.some.injEq] at he
        subst he
        exact hn.1 hep
      | some e0 =>
        rw [hep] at he
        simp only [Episode.count1, Option.some.injEq] at he
        subst he
        exact hn.2 e0 hep

theorem throttle_log_settings (s : State) : (throttle s).log.settings = s.log.settings := by
  unfold throttle
  split <;> rfl

/-- A record submitted to the log keeps the log as its rules say, whatever its state (R168, R169). -/
theorem submit_logOk (r : Record) (s : State) (h : LogOk s.log) : LogOk (submit r s).log := by
  unfold submit
  split
  · rename_i hl
    have hep : s.log.episode = none := by
      have := h.episode
      simp [hl] at this
      exact this
    refine (h.pre.admitRecord hep ?_).throttle ?_
    · have := h.normal hl
      have := h.high
      omega
    · intro hn
      simp [hl] at hn
  · rename_i hl
    have hep : s.log.episode = none := by
      have := h.episode
      simp [hl] at this
      exact this
    split
    · exact h
    · split
      · rename_i hf
        refine (h.pre.admitRecord hep hf).ok (by simp [hl]) ?_
        intro _
        have := h.drained (by simp [hl])
        simp
        omega
      · rename_i hf
        refine lose_log_pre h (Or.inr ?_)
        have := h.capacity
        unfold Log.fill at *
        simp only [Config.logCapacity] at hf
        omega
  · rename_i hl
    have := lose_log_pre (r := r) h (Or.inl hl)
    have e : { (lose r s).log with level := .lost } = (lose r s).log := by
      simp [lose, hl]
    rwa [e] at this

theorem kept_admitRecord (r : Record) (s : State) (h : LogOk s.log → LogOk (admitRecord r s).log) : Kept s (admitRecord r s) :=
  kept_modLog s _ rfl h

theorem kept_throttle_links (s : State) : LinksOk s → LinksOk (throttle s) := by
  intro h
  unfold throttle
  split
  · exact (kept_postRecorder _ _).links h
  · exact h

theorem throttle_rest (s : State) : (throttle s).frame = s.frame ∧ (throttle s).positions = s.positions ∧
    (throttle s).lines = s.lines ∧ (throttle s).bridges = s.bridges ∧ (throttle s).hoots = s.hoots := by
  unfold throttle
  split <;> exact ⟨rfl, rfl, rfl, rfl, rfl⟩

theorem modLog_frame (s : State) (f : Log → Log) : (s.modLog f).frame = s.frame := rfl
theorem setLevel_frame (v : LogLevel) (s : State) : (setLevel v s).frame = s.frame := rfl
theorem lose_frame (r : Record) (s : State) : (lose r s).frame = s.frame := modLog_frame s _

theorem lose_settings (r : Record) (s : State) : (lose r s).log.settings = s.log.settings := by
  simp [lose, Log.settings]

/-- A record submitted to the log touches the log and the recorder's queue alone. -/
theorem submit_rest (r : Record) (s : State) : (submit r s).frame = s.frame ∧
    (submit r s).positions = s.positions ∧ (submit r s).lines = s.lines ∧ (submit r s).bridges = s.bridges ∧
    (submit r s).hoots = s.hoots ∧ (submit r s).log.settings = s.log.settings := by
  unfold submit
  split
  · have := throttle_rest (admitRecord r s)
    exact ⟨this.1, this.2.1, this.2.2.1, this.2.2.2.1, this.2.2.2.2, throttle_log_settings _⟩
  · split
    · exact ⟨rfl, rfl, rfl, rfl, rfl, rfl⟩
    · split
      · exact ⟨rfl, rfl, rfl, rfl, rfl, rfl⟩
      · exact ⟨(setLevel_frame _ _).trans (lose_frame r s), rfl, rfl, rfl, rfl, lose_settings r s⟩
  · exact ⟨lose_frame r s, rfl, rfl, rfl, rfl, lose_settings r s⟩

theorem throttle_wires (s : State) (i : Fin 6) : ((throttle s).links.get i).wire = (s.links.get i).wire := by
  unfold throttle
  split
  · exact (kept_postRecorder _ _).wires i
  · rfl

/-- A record submitted to the log (R168). -/
theorem kept_submit (r : Record) (s : State) : Kept s (submit r s) where
  frame := (submit_rest r s).1
  wires i := by
    unfold submit
    split
    · exact throttle_wires _ i
    · split
      · rfl
      · split
        · rfl
        · exact (kept_postRecorder _ _).wires i
    · rfl
  logSet := (submit_rest r s).2.2.2.2.2
  posSet p := by rw [(submit_rest r s).2.1]
  lineSet L := by rw [(submit_rest r s).2.2.1]
  links h := by
    unfold submit
    split
    · exact kept_throttle_links _ h
    · split
      · exact h
      · split
        · exact h
        · exact (kept_postRecorder _ _).links h
    · exact h
  log := submit_logOk r s
  pool h := h.congr (congrArg Frame.detectors (submit_rest r s).1) (submit_rest r s).2.2.2.1
  hoots h := by
    unfold HootsOk
    rw [(submit_rest r s).2.2.2.2.1]
    exact h
  camps L := by rw [(submit_rest r s).2.2.1]

end Sys2Proof.Machine
end

