-- ==== Sys2Proof/Laws/KeptPool.lean ====
section
/-! SUPPORT. The operations of the bridge pool, of the recording channels and of the position block keep what
`Kept` says. -/

namespace Sys2Proof.Machine

/-! ## Bridge records -/

/-- A bridge with no contributor and a STOPPED timer is as its rules say (R20, R21). -/
theorem BridgeOk.empty (s : State) (use : BridgeUse) (period : Nat) (mask : ReloadMask) :
    BridgeOk s { Bridge.reset with use := use, period := period, mask := mask } :=
  ⟨by simp [Bridge.reset], by simp [Bridge.reset], by simp [Bridge.reset], by simp [Bridge.reset, anyActive],
    fun _ => rfl, fun _ => rfl⟩

theorem kept_claimBridge (b : BridgeId) (use : BridgeUse) (period : Nat) (mask : ReloadMask) (s : State) :
    Kept s (claimBridge b use period mask s) := kept_modBridge s b _ fun _ _ => BridgeOk.empty s use period mask

theorem kept_dropBridge (b : BridgeId) (s : State) : Kept s (dropBridge b s) :=
  kept_modBridge s b _ fun _ _ => BridgeOk.empty s .free 0 .both

theorem startIdle_zero {n : Nat} (h : n = 0) : startIdle n = none := by simp [startIdle, h]

/-- A rearmed timer is STOPPED while a selected entry is ACTIVE, and while the period is 0 (R39). -/
theorem BridgeOk.rearm {s : State} {r : Bridge} (hc : r.contributors.length ≤ 12)
    (hn : (r.contributors.map (·.source)).Nodup) (hr : ∀ c ∈ r.contributors, c.gain ≤ 4095 ∧ c.shift ≤ 12)
    (hf : r.active = anyActive s r.contributors) : BridgeOk s (r.rearm s) := by
  refine ⟨hc, hn, hr, hf, ?_, ?_⟩
  · intro h
    have : selectedActive s r = true := h
    simp [Bridge.rearm, this]
  · intro h
    have : r.period = 0 := h
    simp [Bridge.rearm, startIdle_zero this]

/-- What the pool's acceptance of a join says (R22). -/
theorem joinAnswer_none {s : State} {b : BridgeId} {x : SourceId} (h : joinAnswer s b x = none) :
    (s.bridges.get b).has x = false ∧ (s.bridges.get b).contributors.length < 12 := by
  unfold joinAnswer at h
  split at h
  · simp at h
  · split at h
    · simp at h
    · rename_i h1 h2
      simp only [Config.maxContributors] at h2
      exact ⟨by simpa using h1, by omega⟩

theorem not_mem_of_has {r : Bridge} {x : SourceId} (h : r.has x = false) : x ∉ r.contributors.map (·.source) := by
  simpa [Bridge.has] using h

theorem kept_join (b : BridgeId) (x : SourceId) (gain shift : Nat) (origin : Origin) (s : State) :
    Kept s (join b x gain shift origin s) := by
  unfold join
  split
  · exact Kept.refl s
  · rename_i ha
    obtain ⟨hx, hl⟩ := joinAnswer_none ha
    refine kept_modBridgeAt s b _ fun h => ?_
    refine BridgeOk.rearm (s := s) ?_ ?_ ?_ rfl
    · simp only [Bridge.reflag, List.length_append, List.length_cons, List.length_nil]
      omega
    · simp only [Bridge.reflag, List.map_append, List.map_cons, List.map_nil]
      rw [List.nodup_append]
      refine ⟨h.noneTwice, by simp, ?_⟩
      intro a ha2 y hy
      simp only [List.mem_singleton] at hy
      subst hy
      intro e
      subst e
      exact not_mem_of_has hx ha2
    · intro c hc
      simp only [Bridge.reflag, List.mem_append, List.mem_singleton] at hc
      rcases hc with hc | rfl
      · exact h.ranges c hc
      · exact ⟨Nat.min_le_right _ _, Nat.min_le_right _ _⟩

/-- An entry that stays selected and ACTIVE was so before a removal. -/
theorem selectedActive_mono {s : State} {r t : Bridge} (hm : t.mask = r.mask)
    (hs : ∀ c ∈ t.contributors, c ∈ r.contributors) (h : selectedActive s t = true) : selectedActive s r = true := by
  simp only [selectedActive, List.any_eq_true] at h ⊢
  obtain ⟨c, hc, e⟩ := h
  exact ⟨c, hs c hc, hm ▸ e⟩

theorem kept_leave (b : BridgeId) (x : SourceId) (s : State) : Kept s (leave b x s) := by
  refine kept_modBridge s b _ fun r h => ?_
  dsimp only
  split
  · exact h
  · have hsub : (r.contributors.filter fun c => decide (c.source ≠ x)).Sublist r.contributors := List.filter_sublist
    have hmem : ∀ c ∈ r.contributors.filter fun c => decide (c.source ≠ x), c ∈ r.contributors :=
      fun c hc => hsub.subset hc
    split
    · rename_i hc
      simp only [Bool.and_eq_true, Bool.not_eq_true'] at hc
      refine ⟨hsub.length_le.trans h.capacity, h.noneTwice.sublist (hsub.map _),
        fun c hc => h.ranges c (hmem c hc), rfl, ?_, fun e => startIdle_zero e⟩
      intro e
      exact absurd (hc.2.symm.trans e) (by simp)
    · refine ⟨hsub.length_le.trans h.capacity, h.noneTwice.sublist (hsub.map _),
        fun c hc => h.ranges c (hmem c hc), rfl, ?_, h.off⟩
      intro e
      refine h.idle (selectedActive_mono (s := s) (r := r)
        (t := { r with contributors := r.contributors.filter fun c => decide (c.source ≠ x) }) rfl hmem e)

/-- A change of gains and shifts alone, within their ranges. -/
theorem BridgeOk.mapEntries {s : State} {r : Bridge} (f : Contrib → Contrib) (hs : ∀ c, (f c).source = c.source)
    (hr : ∀ c, c.gain ≤ 4095 ∧ c.shift ≤ 12 → (f c).gain ≤ 4095 ∧ (f c).shift ≤ 12) (h : BridgeOk s r) :
    BridgeOk s { r with contributors := r.contributors.map f } := by
  refine ⟨by simpa using h.capacity, ?_, ?_, ?_, ?_, h.off⟩
  · have : (fun c : Contrib => c.source) ∘ f = fun c => c.source := funext hs
    simp only [List.map_map, this]
    exact h.noneTwice
  · intro c hc
    obtain ⟨d, hd, rfl⟩ := List.mem_map.mp hc
    exact hr d (h.ranges d hd)
  · rw [h.flag]
    simp [anyActive, List.any_map, Function.comp_def, hs]
  · intro e
    refine h.idle ?_
    simpa [selectedActive, List.any_map, Function.comp_def, hs] using e

theorem gain_ranges (c : Contrib) (p : Prop) [Decidable p] (gain : Nat) (h : c.gain ≤ 4095 ∧ c.shift ≤ 12) :
    (if p then { c with gain := min gain 4095 } else c).gain ≤ 4095 ∧
      (if p then { c with gain := min gain 4095 } else c).shift ≤ 12 := by
  split
  · exact ⟨Nat.min_le_right _ _, h.2⟩
  · exact h

theorem kept_setGain (x : SourceId) (gain : Nat) (s : State) : Kept s (setGain x gain s) := by
  refine ⟨rfl, fun _ => rfl, rfl, fun _ => rfl, fun _ => rfl, id, id, ?_, id, fun _ => List.Sublist.refl _⟩
  intro h b
  simp only [setGain, Tab.get_map]
  exact BridgeOk.congr (s := s) (t := setGain x gain s) rfl ((h b).mapEntries _ (by intro c; split <;> rfl) fun c hc => gain_ranges c (c.source = x) gain hc)

theorem kept_setGainOn (b : BridgeId) (x : SourceId) (gain : Nat) (s : State) : Kept s (setGainOn b x gain s) :=
  kept_modBridge s b _ fun _ h =>
    h.mapEntries _ (by intro c; split <;> rfl) fun c hc => gain_ranges c (c.source = x) gain hc

theorem kept_setShift (b : BridgeId) (sel : SourceId → Bool) (shift : Nat) (s : State) :
    Kept s (setShift b sel shift s) := by
  refine kept_modBridge s b _ fun _ h =>
    h.mapEntries (fun c => if sel c.source then { c with shift := min shift 12 } else c)
      (by intro c; split <;> rfl) ?_
  intro c hc
  split
  · exact ⟨hc.1, Nat.min_le_right _ _⟩
  · exact hc

theorem kept_leaveConference (b : BridgeId) (x : SourceId) (s : State) : Kept s (leaveConference b x s) := by
  unfold leaveConference
  split
  · exact kept_leave b x s
  · exact Kept.refl s

theorem kept_endConferences (L : LineId) (s : State) : Kept s (endConferences L s) :=
  Kept.each (fun b t => kept_leaveConference b _ t) _ s

theorem kept_clearConference (b : BridgeId) (s : State) : Kept s (clearConference b s) :=
  Kept.each (fun x t => kept_leaveConference b x t) _ s

theorem kept_timerAsk (b : BridgeId) (period : Nat) (mask : ReloadMask) (s : State) :
    Kept s (timerAsk b period mask s) :=
  kept_modBridge s b _ fun _ h => BridgeOk.rearm h.capacity h.noneTwice h.ranges h.flag

/-- The idle timer stopped by its expiry (R40). -/
theorem kept_stopIdle (b : BridgeId) (s : State) : Kept s (s.modBridge b fun r => { r with idle := none }) :=
  kept_modBridge s b _ fun _ h => ⟨h.capacity, h.noneTwice, h.ranges, h.flag, fun _ => rfl, fun _ => rfl⟩

/-! ## Recording channels -/

theorem kept_assign (p : PosId) (e : Endpoint) (key : Option KeyId) (b : BridgeId) (line : Option LineId)
    (hoot : Option BridgeId) (s : State) : Kept s (assign p e key b line hoot s) := by
  unfold assign
  split
  · exact kept_setChan s _ _
  · exact kept_submit _ s

theorem kept_releaseChan (p : PosId) (e : Endpoint) (s : State) : Kept s (releaseChan p e s) := by
  unfold releaseChan
  split
  · exact (kept_setChan s _ _).trans (kept_released _ _)
  · exact Kept.refl s

theorem kept_carry (c : ChanId) (p : PosId) (e : Endpoint) (b : BridgeId) (L : LineId) (s : State) :
    Kept s (carry c p e b L s) := by
  unfold carry
  split
  · exact (kept_setChan s _ _).trans (kept_submit _ _)
  · exact Kept.refl s

/-! ## Bindings -/

theorem setBinding_settings (r : Position) (e : Endpoint) (v : Binding) :
    (r.setBinding e v).settings = r.settings := by
  cases e with
  | key k =>
    simp only [Position.setBinding, Position.settings]
    congr 1
    apply Tab.ext_get
    intro j
    rw [Tab.get_map, Tab.get_map, Tab.get_modify]
    split
    · subst j; rfl
    · rfl
  | _ => rfl

theorem clear_settings (r : Position) (e : Endpoint) : (r.clear e).settings = r.settings := by
  unfold Position.clear
  dsimp only
  split
  · split
    · exact (setBinding_settings r _ .none)
    · exact setBinding_settings r _ .none
  · exact setBinding_settings r e .none

theorem kept_bind (p : PosId) (e : Endpoint) (v : Binding) (s : State) : Kept s (bind p e v s) :=
  kept_modPos s p _ fun r => setBinding_settings r e v

theorem kept_unbind (p : PosId) (e : Endpoint) (cause : Cause) (s : State) : Kept s (unbind p e cause s) := by
  unfold unbind
  dsimp only
  split
  · exact Kept.refl s
  · have h := kept_modPos s p (Position.clear e) fun r => clear_settings r e
    split
    · exact h
    · exact h.trans (kept_postPos _ _ _)

theorem kept_setFeed (p : PosId) (c : Option BridgeId) (s : State) : Kept s (setFeed p c s) :=
  kept_modPos s p _ fun _ => rfl

theorem kept_joinEndpoint (p : PosId) (e : Endpoint) (b : BridgeId) (shift : Nat) (s : State) :
    Kept s (joinEndpoint p e b shift s) := by
  unfold joinEndpoint
  split
  · exact kept_join _ _ _ _ _ _
  · exact Kept.refl s

theorem kept_leaveEndpoint (p : PosId) (e : Endpoint) (b : BridgeId) (s : State) :
    Kept s (leaveEndpoint p e b s) := by
  unfold leaveEndpoint
  split
  · exact kept_leave _ _ _
  · exact Kept.refl s

end Sys2Proof.Machine
end

