-- ==== Sys2Proof/Laws/KeptTalk.lean ====
section
/-! SUPPORT. The operations of talk, of hoots and of their legs keep what `Kept` says. -/

namespace Sys2Proof.Machine

/-! ## Hoot records -/

/-- A hoot that loses talkers or queue entries, and nothing else that counts, is as R120 says. -/
theorem HootOk.fewer {h g : Hoot} (k : HootOk h) (hs : g.slots = h.slots) (hg : g.granted.Sublist h.granted)
    (hq : g.queue.Sublist h.queue) : HootOk g :=
  ⟨hs ▸ hg.length_le.trans k.slots, hq.length_le.trans k.queue,
    k.noneTwice.sublist ((hg.map _).append (hq.map _))⟩

/-- A hoot record replaced, seen from an earlier state. -/
theorem Kept.setHoot {s0 s : State} (h : Kept s0 s) (b : BridgeId) (v : Option Hoot)
    (hv : HootsOk s0 → ∀ r, v = some r → HootOk r) : Kept s0 (s.setHoot b v) := by
  refine ⟨h.frame, h.wires, h.logSet, h.posSet, h.lineSet, h.links, h.log, ?_, ?_, h.camps⟩
  · intro hp
    exact PoolOk.congr (s := s) (t := s.setHoot b v) rfl rfl (h.pool hp)
  · intro h0 c r hr
    rw [setHoot_hoots, Tab.get_set] at hr
    split at hr
    · exact hv h0 r hr
    · exact h.hoots h0 c r hr

theorem joinEndpoint_hoots (p : PosId) (e : Endpoint) (b : BridgeId) (n : Nat) (s : State) :
    (joinEndpoint p e b n s).hoots = s.hoots := by
  unfold joinEndpoint join
  split
  · split <;> rfl
  · rfl

theorem submit_hoots (r : Record) (s : State) : (submit r s).hoots = s.hoots := (submit_rest r s).2.2.2.2.1

theorem assign_hoots (p : PosId) (e : Endpoint) (key : Option KeyId) (b : BridgeId) (line : Option LineId)
    (hoot : Option BridgeId) (s : State) : (assign p e key b line hoot s).hoots = s.hoots := by
  unfold assign
  split
  · rfl
  · exact submit_hoots _ _

/-! ## Line talk -/

theorem kept_endLineTalk (p : PosId) (k : KeyId) (L : LineId) (cause bindCause : Cause) (s : State) :
    Kept s (endLineTalk p k L cause bindCause s) := by
  unfold endLineTalk
  split
  · split
    · exact (((kept_leave _ _ _).trans (kept_unbind _ _ _ _)).trans (kept_submit _ _)).trans (kept_postPos _ _ _)
    · exact kept_unbind _ _ _ _
  · exact Kept.refl s

theorem kept_endTalkOfEndpoint (p : PosId) (e : Endpoint) (L : LineId) (cause : Cause) (s : State) :
    Kept s (endTalkOfEndpoint p e L cause s) := by
  unfold endTalkOfEndpoint
  split
  · exact kept_endLineTalk _ _ _ _ _ _
  · exact Kept.refl s

theorem kept_endLineTalkOf (p : PosId) (cause : Cause) (s : State) : Kept s (endLineTalkOf p cause s) := by
  unfold endLineTalkOf
  split
  · exact Kept.refl s
  · split
    · exact kept_endLineTalk _ _ _ _ _ _
    · exact kept_unbind _ _ _ _
  · exact kept_unbind _ _ _ _

theorem kept_recordLineTalk (p : PosId) (k : KeyId) (L : LineId) (b : BridgeId) (s : State) :
    Kept s (recordLineTalk p k L b s) := (kept_assign _ _ _ _ _ _ s).ite (Kept.refl s)

theorem kept_startLineTalk (p : PosId) (k : KeyId) (L : LineId) (b : BridgeId) (s : State) :
    Kept s (startLineTalk p k L b s) :=
  ((((kept_bind _ _ _ _).trans (kept_joinEndpoint _ _ _ _ _)).trans (kept_recordLineTalk _ _ _ _ _)).trans
    (kept_submit _ _)).trans (kept_postPos _ _ _)

/-! ## Clash -/

theorem kept_startClash (b : BridgeId) (h : Hoot) (s : State) : Kept s (startClash b h s) := by
  unfold startClash
  refine Kept.trans ?_ (kept_submit _ _)
  refine Kept.trans ?_ (kept_postMany _ _ _)
  refine Kept.trans ?_ (kept_setShift _ _ _ _)
  exact kept_modHoot s b _ fun r k => ⟨k.slots, k.queue, k.noneTwice⟩

theorem kept_endClash (b : BridgeId) (h : Hoot) (s : State) : Kept s (endClash b h s) := by
  unfold endClash
  refine Kept.trans ?_ (kept_submit _ _)
  refine Kept.trans ?_ (kept_postMany _ _ _)
  refine Kept.trans ?_ (kept_setShift _ _ _ _)
  exact kept_modHoot s b _ fun r k => ⟨k.slots, k.queue, k.noneTwice⟩

theorem kept_evalClash (b : BridgeId) (s : State) : Kept s (evalClash b s) := by
  unfold evalClash
  split
  · split
    · exact (Kept.refl s).ite (kept_startClash _ _ s)
    · exact (kept_endClash _ _ s).ite (Kept.refl s)
  · exact Kept.refl s

/-! ## Grants -/

theorem kept_recordGrant (b : BridgeId) (p : PosId) (k : KeyId) (h : Hoot) (s : State) :
    Kept s (recordGrant b p k h s) := (kept_assign _ _ _ _ _ _ s).ite (Kept.refl s)

/-- A grant keeps the hoots, seen from a state before it, when a slot is open and the position has no talk on
the hoot (R126, R127, R131). -/
theorem Kept.grantTalk {s0 s : State} (h : Kept s0 s) (b : BridgeId) (p : PosId) (k : KeyId)
    (hb : HootsOk s0 → ∀ g, s.hoots.get b = some g → g.granted.length < g.slots ∧ p ∉ g.talkers) :
    Kept s0 (grantTalk b p k s) := by
  unfold Machine.grantTalk
  split
  · rename_i g hg
    refine Kept.trans ?_ ((kept_submit _ _).trans (kept_postPos _ _ _))
    refine Kept.trans ?_ (kept_recordGrant _ _ _ _ _)
    refine Kept.setHoot ?_ b _ ?_
    · exact (h.trans (kept_bind _ _ _ _)).trans (kept_joinEndpoint _ _ _ _ _)
    · intro h0 r hr
      obtain ⟨hl, hp⟩ := hb h0 g hg
      have hk := h.hoots h0 b g hg
      cases hr
      refine ⟨?_, hk.queue, ?_⟩
      · simp
        omega
      · have hn := hk.noneTwice
        unfold Hoot.talkers at *
        simp only [List.map_append, List.map_cons, List.map_nil, List.append_assoc, List.cons_append,
          List.nil_append]
        exact (List.nodup_middle).mpr (List.nodup_cons.mpr ⟨hp, hn⟩)
  · exact h

theorem kept_promoteHead (b : BridgeId) (s : State) : Kept s (promoteHead b s) := by
  unfold promoteHead
  split
  · rename_i h hh
    split
    · rename_i x rest hq
      split
      · rename_i hl
        dsimp only
        have hm : Kept s (s.modHoot b fun g => { g with queue := rest }) := by
          have e : (s.modHoot b fun g => { g with queue := rest }) = s.setHoot b (some { h with queue := rest }) := by
            simp [State.modHoot, State.setHoot, Tab.modify, hh]
          rw [e]
          refine kept_setHoot s b _ fun hk r hr => ?_
          cases hr
          exact (hk b h hh).fewer rfl (List.Sublist.refl _) (hq ▸ List.sublist_cons_self _ _)
        split
        · exact hm.trans (kept_postPos _ _ _)
        · split
          · refine hm.grantTalk b x.1 x.2 ?_
            intro hk g hg
            rw [modHoot_hoots, Tab.get_modify_self, hh] at hg
            cases hg
            refine ⟨hl, ?_⟩
            have hn := (hk b h hh).noneTwice
            unfold Hoot.talkers at *
            rw [hq, List.map_cons] at hn
            exact (List.nodup_cons.mp (List.nodup_middle.mp hn)).1
          · exact hm.trans (kept_postPos _ _ _)
      · exact Kept.refl s
    · exact Kept.refl s
  · exact Kept.refl s

theorem kept_promote (b : BridgeId) (s : State) : Kept s (promote b s) := by
  unfold promote
  split
  · exact Kept.each (fun _ t => kept_promoteHead b t) _ s
  · exact Kept.refl s

theorem kept_stopGrant (b : BridgeId) (p : PosId) (cause : Cause) (s : State) :
    Kept s (stopGrant b p cause s) := by
  unfold stopGrant
  split
  · rename_i h hh
    split
    · refine Kept.trans ?_ (kept_promote _ _)
      refine Kept.trans ?_ (kept_postPos _ _ _)
      refine Kept.trans ?_ (kept_submit _ _)
      refine Kept.trans ?_ (kept_releaseChan _ _ _)
      refine Kept.trans ?_ (kept_unbind _ _ _ _)
      refine Kept.trans ?_ (kept_leave _ _ _)
      refine kept_setHoot s b _ fun hk r hr => ?_
      cases hr
      exact (hk b h hh).fewer rfl List.filter_sublist (List.Sublist.refl _)
    · exact Kept.refl s
  · exact Kept.refl s

theorem kept_endGrant (b : BridgeId) (p : PosId) (cause : Cause) (s : State) : Kept s (endGrant b p cause s) := by
  unfold endGrant
  split
  · exact ((kept_stopGrant b p cause s).trans (kept_evalClash _ _)).ite (Kept.refl s)
  · exact Kept.refl s

theorem kept_endQueued (b : BridgeId) (p : PosId) (cause : Cause) (s : State) :
    Kept s (endQueued b p cause s) := by
  unfold endQueued
  split
  · split
    · refine Kept.trans ?_ (kept_postPos _ _ _)
      exact kept_modHoot s b _ fun _ k => k.fewer rfl (List.Sublist.refl _) List.filter_sublist
    · exact Kept.refl s
  · exact Kept.refl s

theorem kept_endTalkOn (b : BridgeId) (p : PosId) (cause : Cause) (s : State) :
    Kept s (endTalkOn b p cause s) := by
  unfold endTalkOn
  split
  · exact (kept_endGrant b p cause s).ite (kept_endQueued b p cause s)
  · exact Kept.refl s

theorem kept_keyLeaves (p : PosId) (k : KeyId) (cause : Cause) (s : State) : Kept s (keyLeaves p k cause s) := by
  unfold keyLeaves
  split
  · exact kept_endTalkOn _ _ _ _
  · exact Kept.refl s

theorem kept_stopTalkOn (b : BridgeId) (p : PosId) (cause : Cause) (s : State) :
    Kept s (stopTalkOn b p cause s) := by
  unfold stopTalkOn
  split
  · exact (kept_stopGrant b p cause s).ite (kept_endQueued b p cause s)
  · exact Kept.refl s

theorem kept_endTalk (w : ClashEval) (b : BridgeId) (p : PosId) (cause : Cause) (s : State) :
    Kept s (w.endTalk b p cause s) := by
  cases w
  · exact kept_endTalkOn _ _ _ _
  · exact kept_stopTalkOn _ _ _ _

/-- The clash evaluations at the end of an event (R135). -/
theorem kept_settleClash (s t : State) : Kept t (settleClash s t) := Kept.each kept_evalClash _ t

theorem kept_endAllTalk (w : ClashEval) (p : PosId) (cause : Cause) (s : State) :
    Kept s (endAllTalk w p cause s) :=
  (Kept.each (fun b t => kept_endTalk w b p cause t) _ s).trans (kept_endLineTalkOf _ _ _)

/-- A position appended to a talk queue that has room, with no talk on the hoot (R126, R128). -/
theorem kept_queueTalk {b : BridgeId} {p : PosId} {k : KeyId} {h : Hoot} {s : State}
    (hh : s.hoots.get b = some h) (hl : h.queue.length < 8) (hp : p ∉ h.talkers) : Kept s (queueTalk b p k h s) := by
  refine Kept.trans ?_ (kept_postPos _ _ _)
  refine kept_setHoot s b _ fun hk r hr => ?_
  cases hr
  have k := hk b h hh
  refine ⟨k.slots, by simp; omega, ?_⟩
  have hn := k.noneTwice
  unfold Hoot.talkers at *
  simp only [List.map_append, List.map_cons, List.map_nil]
  rw [← List.append_assoc, List.nodup_append_comm]
  exact List.nodup_cons.mpr ⟨hp, hn⟩

/-! ## Legs -/

theorem kept_setLeg (b : BridgeId) (L : LineId) (f : Leg → Leg) (s : State) : Kept s (setLeg b L f s) :=
  kept_modHoot s b _ fun _ k => ⟨k.slots, k.queue, k.noneTwice⟩

theorem kept_joinLeg (b : BridgeId) (L : LineId) (s : State) : Kept s (joinLeg b L s) := by
  unfold joinLeg
  split
  · split
    · have h : ∀ g, Kept s (join b (lineSource L) g 0 .owner s |> setLeg b L fun y => { y with joined := true }) :=
        fun g => (kept_join _ _ _ _ _ _).trans (kept_setLeg _ _ _ _)
      exact ((h _).trans (kept_setShift _ _ _ _)).ite (h _)
    · exact Kept.refl s
  · exact Kept.refl s

theorem kept_outLeg (b : BridgeId) (L : LineId) (s : State) : Kept s (outLeg b L s) :=
  (kept_leave _ _ _).trans (kept_setLeg _ _ _ _)

end Sys2Proof.Machine
end

