-- ==== Sys2Proof/Laws/KeptLine.lean ====
section
/-! SUPPORT. The operations of the line block keep what `Kept` says. -/

namespace Sys2Proof.Machine

/-- A change of a line record that leaves its settings and its camp queue. -/
theorem kept_callLine (s : State) (L : LineId) (f : Line → Line) (h : ∀ r, (f r).settings = r.settings)
    (hc : ∀ r, (f r).camp = r.camp) : Kept s (s.modLine L f) :=
  kept_modLine s L f h fun r => hc r ▸ List.Sublist.refl _

/-! ## Reporting -/

theorem kept_reportLineTo (extra : List PosId) (L : LineId) (s : State) : Kept s (reportLineTo extra L s) :=
  kept_post _ _ s
theorem kept_reportLine (L : LineId) (s : State) : Kept s (reportLine L s) :=
  kept_reportLineTo [] L s
theorem kept_reportWatch (L : LineId) (old new : LineState) (cause : Cause) (s : State) :
    Kept s (reportWatch L old new cause s) := kept_post _ _ s

theorem kept_reportChange (extra : List PosId) (L : LineId) (old : LineState) (cause : Cause) (s : State) :
    Kept s (reportChange extra L old cause s) :=
  (Kept.refl s).ite ((kept_reportLineTo _ _ _).trans (kept_reportWatch _ _ _ _ _))

theorem kept_enterStateTo (extra : List PosId) (L : LineId) (new : LineState) (cause : Cause) (s : State) :
    Kept s (enterStateTo extra L new cause s) := by
  unfold enterStateTo
  refine Kept.trans ?_ (kept_reportChange _ _ _ _ _)
  exact kept_callLine s L _ (fun _ => rfl) fun _ => rfl

theorem kept_enterState (L : LineId) (new : LineState) (cause : Cause) (s : State) :
    Kept s (enterState L new cause s) := kept_enterStateTo [] L new cause s

theorem kept_startTimer (L : LineId) (kind : TimerKind) (ms : Nat) (s : State) :
    Kept s (startTimer L kind ms s) := kept_callLine s L _ (fun _ => rfl) fun _ => rfl
theorem kept_stopTimer (L : LineId) (s : State) : Kept s (stopTimer L s) :=
  kept_callLine s L _ (fun _ => rfl) fun _ => rfl

/-! ## Alerting and offers -/

theorem kept_enterAlerting (L : LineId) (s : State) : Kept s (enterAlerting L s) := by
  unfold enterAlerting
  refine Kept.trans ?_ (kept_reportChange _ _ _ _ _)
  refine Kept.trans ?_ (kept_submit _ _)
  refine Kept.trans ?_ (kept_postLine _ _ _)
  exact kept_callLine s L _ (fun _ => rfl) fun _ => rfl

theorem kept_makeOffer (L : LineId) (s : State) : Kept s (makeOffer L s) := by
  unfold makeOffer
  split
  · exact (kept_postPos _ _ _).trans (kept_startTimer _ _ _ _)
  · exact Kept.refl s

theorem kept_offerOrIdle (L : LineId) (cause : Cause) (s : State) : Kept s (offerOrIdle L cause s) := by
  unfold offerOrIdle
  split
  · exact (kept_stopTimer _ _).trans (kept_enterState _ _ _ _)
  · exact ((kept_stopTimer _ _).trans (kept_enterState _ _ _ _)).trans (kept_makeOffer _ _)

theorem kept_advanceOffer (L : LineId) (s : State) : Kept s (advanceOffer L s) :=
  ((kept_stopTimer _ _).trans (kept_enterState _ _ _ _)).ite (kept_makeOffer _ _)

theorem kept_endClearing (L : LineId) (s : State) : Kept s (endClearing L s) := by
  unfold endClearing
  split
  · refine Kept.trans ?_ (kept_enterAlerting _ _)
    exact kept_callLine s L _ (fun _ => rfl) fun _ => rfl
  · exact kept_offerOrIdle _ _ _

theorem kept_removeCamp (L : LineId) (p : PosId) (s : State) : Kept s (removeCamp L p s) :=
  kept_modLine s L _ (fun _ => rfl) fun _ => List.filter_sublist

theorem kept_campRemove (L : LineId) (p : PosId) (cause : Cause) (s : State) :
    Kept s (campRemove L p cause s) := by
  have h : ∀ x, Kept s (postPos p (.offerLapsed L cause x) (removeCamp L p s)) :=
    fun x => (kept_removeCamp _ _ _).trans (kept_postPos _ _ _)
  exact (((h _).trans (kept_advanceOffer _ _)).ite (h _)).ite (Kept.refl s)

theorem kept_emptyCamp (L : LineId) (cause : Cause) (s : State) : Kept s (emptyCamp L cause s) := by
  refine Kept.each (fun p t => ?_) _ s
  exact (kept_removeCamp _ _ _).trans (kept_postPos _ _ _)

theorem kept_abandon (L : LineId) (s : State) : Kept s (abandon L s) := by
  unfold abandon
  refine Kept.trans ?_ (kept_offerOrIdle _ _ _)
  refine Kept.trans ?_ (kept_callLine _ L _ (fun _ => rfl) fun _ => rfl)
  exact kept_submit _ _

/-! ## Monitors and holders leaving -/

theorem kept_endMonitor (L : LineId) (x : PosId × Endpoint) (cause : Cause) (s : State) :
    Kept s (endMonitor L x cause s) := by
  unfold endMonitor
  refine Kept.trans ?_ (kept_unbind _ _ _ _)
  exact kept_callLine s L _ (fun _ => rfl) fun _ => rfl

theorem kept_endMonitors (L : LineId) (cause : Cause) (s : State) : Kept s (endMonitors L cause s) :=
  Kept.each (fun x t => kept_endMonitor L x cause t) _ s

theorem kept_releaseUnless (keep : Bool) (p : PosId) (e : Endpoint) (s : State) :
    Kept s (releaseUnless keep p e s) := (Kept.refl s).ite (kept_releaseChan _ _ _)

theorem kept_detachHolder (L : LineId) (x : PosId × Endpoint) (cause : Cause) (s : State) :
    Kept s (detachHolder L x cause s) := by
  unfold detachHolder
  refine Kept.trans ?_ (kept_unbind _ _ _ _)
  refine Kept.trans ?_ (kept_endTalkOfEndpoint _ _ _ _ _)
  refine Kept.trans (kept_callLine s L (fun r => { r with holders := r.holders.filter (· ≠ x) }) (fun _ => rfl)
    fun _ => rfl) ?_
  dsimp only
  split
  · exact kept_leaveEndpoint _ _ _ _
  · exact Kept.refl _

theorem kept_endHolder (L : LineId) (x : PosId × Endpoint) (cause : Cause) (keep : Bool) (s : State) :
    Kept s (endHolder L x cause keep s) := by
  unfold endHolder
  refine Kept.trans ?_ (kept_submit _ _)
  exact (kept_detachHolder _ _ _ _).trans (kept_releaseUnless _ _ _ _)

theorem kept_endHolders (L : LineId) (cause : Cause) (s : State) : Kept s (endHolders L cause s) :=
  Kept.each (fun x t => kept_endHolder L x cause false t) _ s

/-! ## Release -/

theorem kept_dropLineBridge (L : LineId) (s : State) : Kept s (dropLineBridge L s) := by
  unfold dropLineBridge
  split
  · exact (kept_dropBridge _ _).trans (kept_callLine _ L _ (fun _ => rfl) fun _ => rfl)
  · exact Kept.refl s

theorem kept_vacate (L : LineId) (cause : Cause) (s : State) : Kept s (vacate L cause s) := by
  unfold vacate
  refine Kept.trans ?_ (kept_callLine _ L _ (fun _ => rfl) fun _ => rfl)
  refine Kept.trans ?_ (kept_modGen _ _ _)
  refine Kept.trans ?_ (kept_dropLineBridge _ _)
  refine Kept.trans ?_ (kept_callLine _ L _ (fun _ => rfl) fun _ => rfl)
  exact (kept_endMonitors _ _ _).trans (kept_endConferences _ _)

theorem kept_enterClearing (extra : List PosId) (L : LineId) (cause : Cause) (s : State) :
    Kept s (enterClearing extra L cause s) := by
  unfold enterClearing
  have h := (kept_startTimer L .guard (s.lines.get L).guardMs s).trans (kept_enterStateTo extra L .clearing cause _)
  exact (h.trans (kept_endClearing _ _)).ite h

theorem kept_releaseLine (extra : List PosId) (L : LineId) (cause monCause : Cause) (s : State) :
    Kept s (releaseLine extra L cause monCause s) := (kept_vacate _ _ _).trans (kept_enterClearing _ _ _ _)

theorem kept_releaseHold (L : LineId) (cause : Cause) (s : State) : Kept s (releaseHold L cause s) := by
  unfold releaseHold
  split
  · exact (kept_submit _ _).trans (kept_releaseLine _ _ _ _ _)
  · exact Kept.refl s

theorem kept_teardownLine (L : LineId) (cause : Cause) (s : State) : Kept s (teardownLine L cause s) := by
  unfold teardownLine
  split
  · exact (kept_endHolders _ _ _).trans (kept_releaseLine _ _ _ _ _)
  · exact kept_releaseHold _ _ _
  · exact Kept.refl s

theorem kept_stripLine (L : LineId) (cause : Cause) (s : State) : Kept s (stripLine L cause s) := by
  unfold stripLine
  refine Kept.trans ?_ (kept_callLine _ L _ (fun _ => rfl) fun _ => rfl)
  refine Kept.trans ?_ (kept_emptyCamp _ _ _)
  split
  · exact (kept_endHolders _ _ _).trans (kept_vacate _ _ _)
  · refine Kept.trans ?_ (kept_vacate _ _ _)
    split
    · exact kept_submit _ _
    · exact Kept.refl s
  · exact Kept.refl s

theorem kept_dropHolder (L : LineId) (x : PosId × Endpoint) (cause : Cause) (keep : Bool) (s : State) :
    Kept s (dropHolder L x cause keep s) :=
  (kept_endHolder _ _ _ _ _).ite
    (((kept_endHolder _ _ _ _ _).trans (kept_releaseLine _ _ _ _ _)).ite
      ((kept_endHolder _ _ _ _ _).trans (kept_reportLine _ _)))

theorem kept_holdLine (L : LineId) (x : PosId × Endpoint) (keep : Bool) (s : State) :
    Kept s (holdLine L x keep s) := by
  unfold holdLine
  refine Kept.trans ?_ (kept_reportChange _ _ _ _ _)
  refine Kept.trans ?_ (kept_submit _ _)
  refine Kept.trans ?_ (kept_callLine _ L _ (fun _ => rfl) fun _ => rfl)
  have h : Kept s (endConferences L (endMonitors L .monitorEnd (releaseUnless keep x.1 x.2 (detachHolder L x .none s)))) :=
    (((kept_detachHolder _ _ _ _).trans (kept_releaseUnless _ _ _ _)).trans (kept_endMonitors _ _ _)).trans
      (kept_endConferences _ _)
  refine Kept.trans h ?_
  cases ((detachHolder L x .none s).lines.get L).bridge with
  | some b => exact kept_clearConference _ _
  | none =>
    dsimp only [id_eq]
    exact Kept.refl _

theorem kept_parkHolder (L : LineId) (x : PosId × Endpoint) (keep : Bool) (s : State) :
    Kept s (parkHolder L x keep s) := by
  unfold parkHolder
  split
  · exact kept_holdLine L x keep s
  · exact kept_dropHolder L x .none keep s

/-! ## Ring events -/

theorem kept_takeRingStart (L : LineId) (s : State) : Kept s (takeRingStart L s) := by
  have hf : Kept s (s.modLine L fun r => { r with farPresent := true }) :=
    kept_callLine s L _ (fun _ => rfl) fun _ => rfl
  unfold takeRingStart
  dsimp only
  split
  · exact kept_enterAlerting _ _
  · refine Kept.trans ?_ (kept_enterAlerting _ _)
    split
    · exact kept_postPos _ _ _
    · exact Kept.refl s
  · exact (kept_startTimer _ _ _ _).ite (Kept.refl s)
  · exact (kept_postMany _ _ _).ite hf
  · exact (kept_postMany _ _ _).ite hf
  · exact kept_callLine s L _ (fun _ => rfl) fun _ => rfl
  · exact Kept.refl s
  · exact Kept.refl s

theorem kept_takeRingEnd (L : LineId) (s : State) : Kept s (takeRingEnd L s) := by
  unfold takeRingEnd
  dsimp only
  split
  · exact Kept.refl s
  · split
    · exact kept_abandon _ _
    · exact (kept_teardownLine _ _ _).ite (Kept.refl s)
    · exact (kept_teardownLine _ _ _).ite (Kept.refl s)
    · exact kept_callLine s L _ (fun _ => rfl) fun _ => rfl
    all_goals exact Kept.refl s

end Sys2Proof.Machine
end

