-- ==== Sys2Proof/Laws/KeptIcm.lean ====
section
/-! SUPPORT. The operations of the intercom block keep what `Kept` says. -/

namespace Sys2Proof.Machine

theorem kept_postIcmState (p : PosId) (cause : Cause) (s : State) : Kept s (postIcmState p cause s) :=
  kept_postPos _ _ _
theorem kept_setIcm (p : PosId) (st : IcmState) (s : State) : Kept s (setIcm p st s) := kept_modIcm _ _ _
theorem kept_setWaiting (p : PosId) (c : Option BridgeId) (s : State) : Kept s (setWaiting p c s) :=
  kept_modIcm _ _ _

theorem kept_present (c : BridgeId) (r : Call) (voice : Bool) (q : PosId) (s : State) :
    Kept s (present c r voice q s) := by
  unfold present
  refine Kept.trans ?_ (kept_postPos _ _ _)
  split
  · exact (kept_setIcm _ _ _).trans (kept_setFeed _ _ _)
  · exact kept_setIcm _ _ _

theorem kept_promoteWaiting (p : PosId) (s : State) : Kept s (promoteWaiting p s) := by
  unfold promoteWaiting
  split
  · split
    · split
      · exact Kept.refl s
      · refine Kept.trans ?_ (kept_present _ _ _ _ _)
        exact (kept_setWaiting _ _ _).trans (kept_modCall _ _ _)
    · exact kept_setWaiting _ _ _
  · exact Kept.refl s

theorem kept_returnIdle (p : PosId) (cause : Cause) (s : State) : Kept s (returnIdle p cause s) :=
  (((kept_setIcm _ _ _).trans (kept_setFeed _ _ _)).trans (kept_postIcmState _ _ _)).trans
    (kept_promoteWaiting _ _)

theorem kept_unpresent (c : BridgeId) (q : PosId) (s : State) : Kept s (unpresent c q s) := kept_modCall _ _ _

theorem kept_withdraw (c : BridgeId) (x : Presented) (cause : Cause) (s : State) :
    Kept s (withdraw c x cause s) := by
  unfold withdraw
  split
  · exact ((kept_unpresent _ _ _).trans (kept_setWaiting _ _ _)).trans (kept_postIcmState _ _ _)
  · exact (kept_unpresent _ _ _).trans (kept_returnIdle _ _ _)

theorem kept_withdrawAll (c : BridgeId) (cause : Cause) (s : State) : Kept s (withdrawAll c cause s) := by
  unfold withdrawAll
  split
  · exact Kept.each (fun x t => kept_withdraw c x cause t) _ s
  · exact Kept.refl s

theorem kept_endParty (c : BridgeId) (d : Ending) (x : PosId × Endpoint) (s : State) :
    Kept s (endParty c d x s) :=
  ((kept_leaveEndpoint _ _ _ _).trans (kept_unbind _ _ _ _)).trans (kept_returnIdle _ _ _)

theorem kept_endCall (c : BridgeId) (d : Ending) (s : State) : Kept s (endCall c d s) := by
  unfold endCall
  split
  · dsimp only
    refine Kept.trans ?_ (kept_setCall _ _ _)
    refine Kept.trans ?_ (kept_dropBridge _ _)
    generalize hu : submit _ _ = u
    have h : Kept s u := by
      rw [← hu]
      refine Kept.trans ?_ (kept_submit _ _)
      refine Kept.trans ?_ (Kept.each (fun x t => kept_releaseUnless _ _ _ t) _ _)
      refine Kept.trans ?_ (Kept.each (fun x t => kept_endParty c d x t) _ _)
      exact (kept_modCall _ _ _).trans (kept_withdrawAll _ _ _)
    split
    · exact h.trans (kept_postPos _ _ _)
    · exact h
  · exact Kept.refl s

theorem kept_decline (p : PosId) (c : BridgeId) (w : Leaving) (s : State) : Kept s (decline p c w s) := by
  unfold decline
  dsimp only
  have h : Kept s (returnIdle p (w.causeOr .declined) (unpresent c p s)) :=
    (kept_unpresent _ _ _).trans (kept_returnIdle _ _ _)
  split
  · split
    · exact h.trans (kept_endCall _ _ _)
    · exact h
  · exact h

theorem kept_partyLeaves (p : PosId) (e : Endpoint) (c : BridgeId) (w : Leaving) (keep : Bool) (s : State) :
    Kept s (partyLeaves p e c w keep s) := by
  unfold partyLeaves
  dsimp only
  refine Kept.trans ?_ (kept_returnIdle _ _ _)
  refine Kept.trans ?_ (kept_submit _ _)
  refine Kept.trans ?_ (kept_releaseUnless _ _ _ _)
  refine Kept.trans ?_ (kept_unbind _ _ _ _)
  exact (kept_leaveEndpoint _ _ _ _).trans (kept_modCall _ _ _)

theorem kept_afterLeaving (c : BridgeId) (w : Leaving) (s : State) : Kept s (afterLeaving c w s) := by
  unfold afterLeaving
  split
  · exact (kept_endCall _ _ _).ite (kept_postIcmState _ _ _)
  · exact Kept.refl s

theorem kept_leaveCall (p : PosId) (w : Leaving) (keep : Bool) (s : State) : Kept s (leaveCall p w keep s) := by
  unfold leaveCall
  split
  · exact Kept.refl s
  · exact kept_endCall _ _ _
  · exact kept_decline _ _ _ _
  · split
    · split
      · exact kept_endCall _ _ _
      · split
        · exact (kept_partyLeaves _ _ _ _ _ _).trans (kept_afterLeaving _ _ _)
        · exact Kept.refl s
    · exact Kept.refl s

theorem kept_emptySlot (p : PosId) (cause : Cause) (s : State) : Kept s (emptySlot p cause s) := by
  unfold emptySlot
  split
  · rename_i c _
    dsimp only
    have h : Kept s (unpresent c p (setWaiting p none s)) := (kept_setWaiting _ _ _).trans (kept_unpresent _ _ _)
    split
    · split
      · exact h.trans (kept_endCall _ _ _)
      · exact h
    · exact h
  · exact Kept.refl s

theorem kept_clearIcm (p : PosId) (cause : Cause) (s : State) : Kept s (clearIcm p cause s) := by
  unfold clearIcm
  refine Kept.trans ?_ (kept_setFeed _ _ _)
  refine Kept.trans (Kept.each (fun e t => ?_) _ s) (kept_modIcm _ _ _)
  split
  · exact kept_unbind _ _ _ _
  · exact Kept.refl t

theorem kept_icmTeardown (p : PosId) (cause : Cause) (s : State) : Kept s (icmTeardown p cause s) :=
  ((kept_emptySlot _ _ _).trans (kept_leaveCall _ _ _ _)).trans (kept_clearIcm _ _ _)

theorem kept_icmUnpermit (p : PosId) (cause : Cause) (s : State) : Kept s (icmUnpermit p cause s) := by
  unfold icmUnpermit
  dsimp only
  split
  · exact (kept_emptySlot _ _ _).trans (kept_decline _ _ _ _)
  · exact kept_emptySlot _ _ _

theorem kept_recordParty (p : PosId) (e : Endpoint) (c : BridgeId) (s : State) :
    Kept s (recordParty p e c s) := (kept_assign _ _ _ _ _ _ s).ite (Kept.refl s)

theorem kept_openCall (c : BridgeId) (p : PosId) (e : Endpoint) (mode : CallMode) (group : Option GroupId)
    (presented : List Presented) (s : State) : Kept s (openCall c p e mode group presented s) := by
  unfold openCall
  refine Kept.trans ?_ (kept_setCall _ _ _)
  refine Kept.trans ?_ (kept_setIcm _ _ _)
  have h : Kept s (bind p e (.icm c) (joinEndpoint p e c 0 (claimBridge c .icm 0 .both s))) :=
    ((kept_claimBridge _ _ _ _ _).trans (kept_joinEndpoint _ _ _ _ _)).trans (kept_bind _ _ _ _)
  split
  · exact h.trans (kept_setFeed _ _ _)
  · exact h

theorem kept_startRecord (c : BridgeId) (p : PosId) (e : Endpoint) (group : Option GroupId) (s : State) :
    Kept s (startRecord c p e group s) := (kept_recordParty _ _ _ _).trans (kept_submit _ _)

theorem kept_applyMode (c : BridgeId) (s : State) : Kept s (applyMode c s) := by
  unfold applyMode
  split
  · exact (kept_withdrawAll _ _ _).ite (Kept.refl s)
  · exact Kept.refl s

theorem kept_activate (c : BridgeId) (q : PosId) (s : State) : Kept s (activate c q s) := by
  unfold activate
  split
  · dsimp only
    have h : Kept s (setIcm q (.active c) s) := kept_setIcm _ _ _
    split
    · exact h
    · exact (h.trans (kept_setIcm _ _ _)).trans (kept_modCall _ _ _)
  · exact Kept.refl s

theorem kept_answer (q : PosId) (e : Endpoint) (c : BridgeId) (s : State) : Kept s (answer q e c s) := by
  unfold answer
  dsimp only
  generalize hu : recordParty q e c _ = u
  have h : Kept s u := by
    rw [← hu]
    refine Kept.trans ?_ (kept_recordParty _ _ _ _)
    refine Kept.trans ?_ (kept_applyMode _ _)
    refine Kept.trans ?_ (kept_activate _ _ _)
    refine Kept.trans ?_ (kept_setFeed _ _ _)
    refine Kept.trans ?_ (kept_bind _ _ _ _)
    refine Kept.trans ?_ (kept_modCall _ _ _)
    exact (kept_unpresent _ _ _).trans (kept_joinEndpoint _ _ _ _ _)
  split
  · exact ((h.trans (kept_submit _ _)).trans (kept_postIcmState _ _ _)).trans (kept_postIcmState _ _ _)
  · exact h.trans (kept_submit _ _)

end Sys2Proof.Machine
end

