-- ==== Sys2Proof/Laws/KeptTake.lean ====
section
/-! SUPPORT. Taking a line, the teardowns that reach several blocks, and the delivery of ring and activity
events keep what `Kept` says. -/

namespace Sys2Proof.Machine

/-! ## Taking a line -/

theorem kept_displace (p : PosId) (e : Endpoint) (park keep : Bool) (s : State) :
    Kept s (displace p e park keep s) := by
  unfold displace
  split
  · exact Kept.refl s
  · split
    · exact kept_parkHolder _ _ _ _
    · exact kept_dropHolder _ _ _ _ _
  · exact kept_endMonitor _ _ _ _
  · exact kept_leaveCall _ _ _ _
  · split
    · exact (kept_keyLeaves _ _ _ _).trans (kept_bind _ _ _ _)
    · exact Kept.refl s
  · split
    · exact kept_endGrant _ _ _ _
    · exact kept_endLineTalk _ _ _ _ _ _
    · exact Kept.refl s

theorem kept_takeDisplace (L : LineId) (p : PosId) (e : Endpoint) (park : Bool) (s : State) :
    Kept s (takeDisplace L p e park s) := by
  unfold takeDisplace
  exact (kept_displace _ _ _ _ _).trans (Kept.each (fun x t => kept_endMonitor L x .none t) _ _)

theorem kept_takeBridge (L : LineId) (b : BridgeId) (s : State) : Kept s (takeBridge L b s) := by
  unfold takeBridge
  refine Kept.trans ?_ (kept_callLine _ L _ (fun _ => rfl) fun _ => rfl)
  exact (kept_claimBridge _ _ _ _ _).trans (kept_join _ _ _ _ _ _)

theorem kept_takeHolder (L : LineId) (p : PosId) (e : Endpoint) (b : BridgeId) (s : State) :
    Kept s (takeHolder L p e b s) := by
  unfold takeHolder
  dsimp only
  generalize hu : State.modLine _ L (fun r => { r with state := .connected }) = u
  have h : Kept s u := by
    rw [← hu]
    refine Kept.trans ?_ (kept_callLine _ L _ (fun _ => rfl) fun _ => rfl)
    refine Kept.trans ?_ (kept_joinEndpoint _ _ _ _ _)
    refine Kept.trans ?_ (kept_bind _ _ _ _)
    exact kept_modLine s L _ (fun _ => rfl) fun _ => List.filter_sublist
  split
  · exact h.trans (kept_modGen _ _ _)
  · exact h

theorem kept_takeRecording (L : LineId) (p : PosId) (e : Endpoint) (b : BridgeId) (s : State) :
    Kept s (takeRecording L p e b s) := by
  unfold takeRecording
  split
  · exact Kept.refl s
  · split
    · exact kept_carry _ _ _ _ _ _
    · exact kept_assign _ _ _ _ _ _ _

theorem kept_takeReport (L : LineId) (old : LineState) (s : State) : Kept s (takeReport L old s) :=
  (kept_reportLine _ _).ite (kept_reportChange _ _ _ _ _)

theorem kept_commitTake (L : LineId) (p : PosId) (e : Endpoint) (park : Bool) (course : TakeCourse) (b : BridgeId)
    (s : State) : Kept s (commitTake L p e park course b s) := by
  unfold commitTake
  dsimp only
  refine Kept.trans ?_ (kept_takeReport _ _ _)
  refine Kept.trans ?_ (kept_submit _ _)
  refine Kept.trans ?_ (kept_takeRecording _ _ _ _ _)
  refine Kept.trans ?_ (kept_takeHolder _ _ _ _ _)
  split
  · exact (kept_takeDisplace _ _ _ _ _).trans (kept_takeBridge _ _ _)
  · exact kept_takeDisplace _ _ _ _ _

/-- A position joins a camp queue that has room and does not hold it (R63). -/
theorem campTake_camps (L : LineId) (p : PosId) (s : State) (h : CampsOk s) : CampsOk (campTake L p s).1 := by
  unfold campTake
  dsimp only
  split
  · exact h
  · rename_i hc
    split
    · exact h
    · rename_i hl
      intro M
      rw [modLine_lines, Tab.get_modify]
      split
      · simp only [Config.maxWaiting] at hl
        refine ⟨by simp; omega, ?_⟩
        rw [List.nodup_append]
        refine ⟨(h L).noneTwice, by simp, ?_⟩
        intro a ha b hb
        simp only [List.mem_singleton] at hb
        subst hb
        rintro rfl
        exact hc (by simpa using ha)
      · exact h M

theorem kept_monitorTake (L : LineId) (p : PosId) (e : Endpoint) (park : Bool) (s : State) :
    Kept s (monitorTake L p e park s).1 := by
  unfold monitorTake
  dsimp only
  split
  · exact Kept.refl s
  · split
    · exact Kept.refl s
    · split
      · exact Kept.refl s
      · refine Kept.trans ?_ (kept_bind _ _ _ _)
        refine Kept.trans ?_ (kept_callLine _ L _ (fun _ => rfl) fun _ => rfl)
        exact kept_displace _ _ _ _ _

theorem kept_moveChannel (L : LineId) (p : PosId) (new : Endpoint) (b : BridgeId) (c : Option ChanId) (s : State) :
    Kept s (moveChannel L p new b c s) := by
  unfold moveChannel
  split
  · exact kept_carry _ _ _ _ _ _
  · exact Kept.refl s

theorem kept_commitMove (L : LineId) (p : PosId) (old new : Endpoint) (park : Bool) (b : BridgeId) (s : State) :
    Kept s (commitMove L p old new park b s) := by
  unfold commitMove
  refine Kept.trans ?_ (kept_moveChannel _ _ _ _ _ _)
  refine Kept.trans ?_ (kept_bind _ _ _ _)
  refine Kept.trans ?_ (kept_joinEndpoint _ _ _ _ _)
  refine Kept.trans ?_ (kept_leaveEndpoint _ _ _ _)
  refine Kept.trans ?_ (kept_bind _ _ _ _)
  refine Kept.trans ?_ (kept_endTalkOfEndpoint _ _ _ _ _)
  refine Kept.trans ?_ (kept_callLine _ L _ (fun _ => rfl) fun _ => rfl)
  exact kept_displace _ _ _ _ _

theorem kept_moveTake (L : LineId) (p : PosId) (old new : Endpoint) (park : Bool) (s : State) :
    Kept s (moveTake L p old new park s).1 := by
  unfold moveTake
  split
  · exact Kept.refl s
  · split
    · exact kept_commitMove _ _ _ _ _ _ _
    · exact Kept.refl s

/-! ## Teardowns of a position -/

theorem kept_leaveCamps (p : PosId) (cause : Cause) (s : State) : Kept s (leaveCamps p cause s) :=
  Kept.each (fun L t => kept_campRemove L p cause t) _ s

theorem kept_dropMonitorAt (p : PosId) (cause : Cause) (e : Endpoint) (s : State) :
    Kept s (dropMonitorAt p cause e s) := by
  unfold dropMonitorAt
  split
  · exact kept_endMonitor _ _ _ _
  · exact Kept.refl s

theorem kept_dropHolderAt (p : PosId) (cause : Cause) (e : Endpoint) (s : State) :
    Kept s (dropHolderAt p cause e s) := by
  unfold dropHolderAt
  split
  · exact kept_dropHolder _ _ _ _ _
  · exact Kept.refl s

/-- The call state of a position ended (R14, R15). -/
theorem kept_endCallState (w : ClashEval) (p : PosId) (cause : Cause) (s : State) :
    Kept s (endCallState w p cause s) := by
  unfold endCallState
  refine Kept.trans ?_ (Kept.each (kept_dropHolderAt p cause) _ _)
  refine Kept.trans ?_ (Kept.each (kept_dropMonitorAt p cause) _ _)
  exact ((kept_icmTeardown _ _ _).trans (kept_endAllTalk _ _ _ _)).trans (kept_leaveCamps _ _ _)

/-- What the DOWN of a position highway ends (R15). -/
theorem kept_endPositions (n : HwId) (s : State) : Kept s (endPositions n s) :=
  Kept.each (fun p t => kept_endCallState .atEnd p .facility t) _ s

theorem kept_releaseHolds (p : PosId) (cause : Cause) (s : State) : Kept s (releaseHolds p cause s) :=
  Kept.each (fun L t => (kept_releaseHold L cause t).ite (Kept.refl t)) _ s

/-! ## Permissions -/

theorem kept_unlisten (p : PosId) (b : BridgeId) (s : State) : Kept s (unlisten p b s) := by
  unfold unlisten
  dsimp only
  split
  · exact (kept_endTalkOn _ _ _ _).trans (kept_unbind _ _ _ _)
  · exact kept_endTalkOn _ _ _ _

theorem kept_unmonitor (p : PosId) (L : LineId) (s : State) : Kept s (unmonitor p L s) :=
  Kept.each (fun e t => (kept_endMonitor L (p, e) .permission t).ite (Kept.refl t)) _ s

theorem kept_unappear (p : PosId) (L : LineId) (s : State) : Kept s (unappear p L s) := by
  unfold unappear
  dsimp only
  split
  · exact (kept_campRemove _ _ _ _).trans (kept_releaseHold _ _ _)
  · exact kept_campRemove _ _ _ _

theorem kept_removalEffects (p : PosId) (old new : Perm) (part : PermPart) (s : State) :
    Kept s (removalEffects p old new part s) := by
  unfold removalEffects
  split
  · exact (kept_icmUnpermit _ _ _).ite (Kept.refl s)
  · exact Kept.each (fun b t => kept_endTalkOn b p .permission t) _ s
  · exact Kept.each (fun b t => kept_unlisten p b t) _ s
  · exact Kept.each (fun L t => kept_unmonitor p L t) _ s
  · exact Kept.each (fun L t => kept_unappear p L t) _ s

/-- The effects of a GRANT or NARROW beyond the permission record itself (R143, R145, R146). -/
theorem kept_permitPart (p : PosId) (kind : ReqKind) (old new : Perm) (part : PermPart) (s : State) :
    Kept s (permitPart p kind old new part s) := by
  unfold permitPart
  split
  · exact (kept_submit _ _).trans (kept_removalEffects _ _ _ _ _)
  · exact Kept.refl s

/-! ## Highways -/

theorem kept_lineDown (L : LineId) (s : State) : Kept s (lineDown L s) := by
  unfold lineDown
  split
  · exact Kept.refl s
  · dsimp only
    refine Kept.trans ?_ (kept_reportChange _ _ _ _ _)
    refine Kept.trans ?_ (kept_callLine _ L _ (fun _ => rfl) fun _ => rfl)
    exact kept_stripLine _ _ _

theorem kept_legDown (L : LineId) (s : State) : Kept s (legDown L s) := by
  unfold legDown
  split
  · exact kept_outLeg _ _ _
  · exact Kept.refl s

theorem kept_legUp (L : LineId) (s : State) : Kept s (legUp L s) := by
  unfold legUp
  split
  · exact kept_joinLeg _ _ _
  · exact Kept.refl s

theorem kept_lineUp (L : LineId) (s : State) : Kept s (lineUp L s) :=
  (kept_enterState _ _ _ _).ite (Kept.refl s)

/-! ## Events delivered -/

theorem kept_deliverRing (L : LineId) (started : Bool) (s : State) : Kept s (deliverRing L started s) :=
  (kept_takeRingStart _ _).ite (kept_takeRingEnd _ _)

theorem kept_recordActivity (x : SourceId) (started : Bool) (s : State) : Kept s (recordActivity x started s) := by
  unfold recordActivity
  split
  · exact kept_submit _ _
  · exact Kept.refl s

theorem kept_hootLive (b : BridgeId) (s : State) : Kept s (hootLive b s) := by
  unfold hootLive
  split
  · split
    · exact Kept.refl s
    · refine Kept.trans ?_ (kept_postListeners _ _ _)
      exact kept_modHoot s b _ fun _ k => ⟨k.slots, k.queue, k.noneTwice⟩
  · exact Kept.refl s

theorem takeActivity_pos (n : Nat) (x : SourceId) (started : Bool) (t : Talker) :
    (t.takeActivity n x started).pos = t.pos := by
  unfold Talker.takeActivity
  split <;> rfl

theorem kept_hootActivity (x : SourceId) (started : Bool) (b : BridgeId) (s : State) :
    Kept s (hootActivity x started b s) := by
  unfold hootActivity
  split
  · refine Kept.trans ?_ (kept_evalClash _ _)
    have h := kept_modHoot s b (fun h => { h with
      granted := h.granted.map (Talker.takeActivity (1000 * h.talkIdleS) x started) }) (by
        intro r k
        refine ⟨by simpa using k.slots, k.queue, ?_⟩
        have hn := k.noneTwice
        unfold Hoot.talkers at *
        simpa [Function.comp_def, takeActivity_pos] using hn)
    split
    · exact h.trans (kept_hootLive _ _)
    · exact h
  · exact Kept.refl s

/-- How a bridge takes an activity event of an entry, once the detector stands in its new state (R37, R39). -/
theorem BridgeOk.takeActivity {s t : State} {r : Bridge} {x : SourceId} {started : Bool} (h : BridgeOk s r)
    (hx : t.active x = started) (ho : ∀ y, y ≠ x → t.active y = s.active y) :
    BridgeOk t (r.takeActivity t x started) := by
  unfold Bridge.takeActivity
  dsimp only
  split
  · rename_i hm
    refine ⟨h.capacity, h.noneTwice, h.ranges, rfl, ?_, h.off⟩
    intro hs
    refine h.idle ?_
    simp only [selectedActive, Bridge.reflag, List.any_eq_true, Bool.and_eq_true] at hs ⊢
    obtain ⟨c, hc, hsel, ha⟩ := hs
    refine ⟨c, hc, hsel, ?_⟩
    rw [← ho]
    · exact ha
    · rintro rfl
      simp [Bridge.reflag, hsel] at hm
  · split
    · exact ⟨h.capacity, h.noneTwice, h.ranges, rfl, fun _ => rfl, fun _ => rfl⟩
    · rename_i hst
      split
      · rename_i hsa
        refine ⟨h.capacity, h.noneTwice, h.ranges, rfl, ?_, h.off⟩
        intro hs
        refine h.idle ?_
        simp only [selectedActive, Bridge.reflag, List.any_eq_true, Bool.and_eq_true] at hs ⊢
        obtain ⟨c, hc, hsel, ha⟩ := hs
        refine ⟨c, hc, hsel, ?_⟩
        rw [← ho]
        · exact ha
        · rintro rfl
          rw [hx] at ha
          exact hst ha
      · rename_i hsa
        refine ⟨h.capacity, h.noneTwice, h.ranges, rfl, ?_, fun e => startIdle_zero e⟩
        intro hs
        exact absurd hs hsa

/-! ## What PART_CLEAR leaves -/

@[simp] theorem Position.cleared_settings (r : Position) : r.cleared.settings = r.settings := by
  simp only [Position.cleared, Position.settings, Tab.map_map]
  congr 2
  funext k
  rcases k with ⟨v, _, _, _⟩
  cases v <;> rfl

theorem BridgeOk.cleared {s : State} {r : Bridge} (h : BridgeOk s r) : BridgeOk s r.cleared := by
  unfold Bridge.cleared
  split
  · exact BridgeOk.empty s .free 0 .both
  · exact BridgeOk.empty s .free 0 .both
  · exact h
  · exact h

@[simp] theorem clearRest_positions (s : State) : (clearRest s).positions = s.positions.map Position.cleared := rfl
@[simp] theorem clearRest_icm (s : State) : (clearRest s).icm = s.icm.map fun _ => ⟨.idle, none⟩ := rfl
@[simp] theorem clearRest_bridges (s : State) : (clearRest s).bridges = s.bridges.map Bridge.cleared := rfl
@[simp] theorem clearRest_lines (s : State) : (clearRest s).lines =
    s.lines.map fun r => { r with holders := [], monitors := [], holdOwner := none, bridge := none } := rfl
@[simp] theorem clearRest_channels (s : State) : (clearRest s).channels = s.channels.map fun _ => none := rfl
@[simp] theorem clearRest_calls (s : State) : (clearRest s).calls = s.calls := rfl
@[simp] theorem clearRest_hoots (s : State) : (clearRest s).hoots = s.hoots := rfl
@[simp] theorem clearRest_gens (s : State) : (clearRest s).gens = s.gens := rfl
@[simp] theorem clearRest_log (s : State) : (clearRest s).log = s.log := rfl
@[simp] theorem clearRest_links (s : State) : (clearRest s).links = s.links := rfl

theorem kept_clearRest (s : State) : Kept s (clearRest s) where
  frame := rfl
  wires _ := rfl
  logSet := rfl
  posSet p := by simp
  lineSet L := by simp [Line.settings]
  links := id
  log := id
  pool h b := by
    rw [clearRest_bridges, Tab.get_map]
    exact BridgeOk.congr (s := s) (t := clearRest s) rfl (h b).cleared
  hoots := id
  camps L := by simp

end Sys2Proof.Machine
end

