-- ==== Sys2Proof/Laws/PerInstr.lean ====
section
/-! SUPPORT. For each command: its frame starts with the code of its request kind, and it has a frame exactly when it
is a request and arrives on a link (R147, R190). -/

namespace Sys2Proof.Laws

open Sys2Proof.Machine

/-- The frame of a command starts with the code of its request kind; a command that is no request has neither a
frame nor a link. -/
def FrameLaw.Statement (i : Instr) : Prop :=
  (encodeFrame i).map List.head? = (kindOf i).map (fun k => some (BitVec.ofNat 8 k.code)) ∧
    i.link?.isSome = (kindOf i).isSome

theorem FrameLaw.powerOn : FrameLaw.Statement (.powerOn) := ⟨rfl, rfl⟩
theorem FrameLaw.reset : FrameLaw.Statement (.reset) := ⟨rfl, rfl⟩
theorem FrameLaw.chipSelectAsserted (l : LinkId) : FrameLaw.Statement (.chipSelectAsserted l) := ⟨rfl, rfl⟩
theorem FrameLaw.chipSelectDeasserted (l : LinkId) : FrameLaw.Statement (.chipSelectDeasserted l) := ⟨rfl, rfl⟩
theorem FrameLaw.malformed (l : LinkId) (kind : Byte) : FrameLaw.Statement (.malformed l kind) := ⟨rfl, rfl⟩
theorem FrameLaw.noticeRead (l : LinkId) (n : Half) : FrameLaw.Statement (.noticeRead l n) := ⟨rfl, rfl⟩
theorem FrameLaw.noticeMask (l : LinkId) (mask : BitVec 24) : FrameLaw.Statement (.noticeMask l mask) := ⟨rfl, rfl⟩
theorem FrameLaw.query (l : LinkId) (target : Byte) (id : Byte) (option : Byte) : FrameLaw.Statement (.query l target id option) := ⟨rfl, rfl⟩
theorem FrameLaw.linkReset (l : LinkId) : FrameLaw.Statement (.linkReset l) := ⟨rfl, rfl⟩
theorem FrameLaw.latchClear (l : LinkId) (target : Byte) : FrameLaw.Statement (.latchClear l target) := ⟨rfl, rfl⟩
theorem FrameLaw.posOpen (l : LinkId) (p : Byte) : FrameLaw.Statement (.posOpen l p) := ⟨rfl, rfl⟩
theorem FrameLaw.posClose (l : LinkId) (p : Byte) : FrameLaw.Statement (.posClose l p) := ⟨rfl, rfl⟩
theorem FrameLaw.lineTake (l : LinkId) (p : Byte) (ep : Byte) (line : Byte) (flags : Byte) : FrameLaw.Statement (.lineTake l p ep line flags) := ⟨rfl, rfl⟩
theorem FrameLaw.lineDrop (l : LinkId) (p : Byte) (ep : Byte) : FrameLaw.Statement (.lineDrop l p ep) := ⟨rfl, rfl⟩
theorem FrameLaw.linePark (l : LinkId) (p : Byte) (ep : Byte) : FrameLaw.Statement (.linePark l p ep) := ⟨rfl, rfl⟩
theorem FrameLaw.lineSignal (l : LinkId) (p : Byte) (line : Byte) : FrameLaw.Statement (.lineSignal l p line) := ⟨rfl, rfl⟩
theorem FrameLaw.campCancel (l : LinkId) (p : Byte) (line : Byte) : FrameLaw.Statement (.campCancel l p line) := ⟨rfl, rfl⟩
theorem FrameLaw.keySet (l : LinkId) (p : Byte) (key : Byte) (code : Byte) (bridge : Byte) (level : Half) (side : Byte) (priority : Byte) : FrameLaw.Statement (.keySet l p key code bridge level side priority) := ⟨rfl, rfl⟩
theorem FrameLaw.levelSet (l : LinkId) (p : Byte) (f : LevelFields) : FrameLaw.Statement (.levelSet l p f) := ⟨rfl, rfl⟩
theorem FrameLaw.talkOn (l : LinkId) (p : Byte) (key : Byte) : FrameLaw.Statement (.talkOn l p key) := ⟨rfl, rfl⟩
theorem FrameLaw.talkOff (l : LinkId) (p : Byte) (key : Byte) : FrameLaw.Statement (.talkOff l p key) := ⟨rfl, rfl⟩
theorem FrameLaw.icmDial (l : LinkId) (p : Byte) (ep : Byte) (target : Byte) (mode : Byte) : FrameLaw.Statement (.icmDial l p ep target mode) := ⟨rfl, rfl⟩
theorem FrameLaw.icmGroup (l : LinkId) (p : Byte) (ep : Byte) (group : Byte) (mode : Byte) : FrameLaw.Statement (.icmGroup l p ep group mode) := ⟨rfl, rfl⟩
theorem FrameLaw.icmPickup (l : LinkId) (p : Byte) (ep : Byte) (choice : Byte) : FrameLaw.Statement (.icmPickup l p ep choice) := ⟨rfl, rfl⟩
theorem FrameLaw.icmHangup (l : LinkId) (p : Byte) : FrameLaw.Statement (.icmHangup l p) := ⟨rfl, rfl⟩
theorem FrameLaw.narrow (l : LinkId) (p : Byte) (parts : PermParts) : FrameLaw.Statement (.narrow l p parts) := ⟨rfl, rfl⟩
theorem FrameLaw.lineDefine (l : LinkId) (line : Byte) (f : LineFields) : FrameLaw.Statement (.lineDefine l line f) := ⟨rfl, rfl⟩
theorem FrameLaw.hootDefine (l : LinkId) (bridge : Byte) (f : HootFields) : FrameLaw.Statement (.hootDefine l bridge f) := ⟨rfl, rfl⟩
theorem FrameLaw.hootRemove (l : LinkId) (bridge : Byte) : FrameLaw.Statement (.hootRemove l bridge) := ⟨rfl, rfl⟩
theorem FrameLaw.groupDefine (l : LinkId) (group : Byte) (members : List Byte) : FrameLaw.Statement (.groupDefine l group members) := ⟨rfl, rfl⟩
theorem FrameLaw.grant (l : LinkId) (p : Byte) (parts : PermParts) : FrameLaw.Statement (.grant l p parts) := ⟨rfl, rfl⟩
theorem FrameLaw.watchSet (l : LinkId) (lines : BitVec 192) (route : Byte) : FrameLaw.Statement (.watchSet l lines route) := ⟨rfl, rfl⟩
theorem FrameLaw.vadSet (l : LinkId) (cls : Byte) (f : VadFields) : FrameLaw.Statement (.vadSet l cls f) := ⟨rfl, rfl⟩
theorem FrameLaw.logLimits (l : LinkId) (hw : Option Half) (lw : Option Half) : FrameLaw.Statement (.logLimits l hw lw) := ⟨rfl, rfl⟩
theorem FrameLaw.icmPolicy (l : LinkId) (policy : Option Byte) (alertS : Option Half) : FrameLaw.Statement (.icmPolicy l policy alertS) := ⟨rfl, rfl⟩
theorem FrameLaw.timeSet (l : LinkId) (value : Word) : FrameLaw.Statement (.timeSet l value) := ⟨rfl, rfl⟩
theorem FrameLaw.forceDrop (l : LinkId) (line : Byte) : FrameLaw.Statement (.forceDrop l line) := ⟨rfl, rfl⟩
theorem FrameLaw.partClear (l : LinkId) : FrameLaw.Statement (.partClear l) := ⟨rfl, rfl⟩
theorem FrameLaw.bridgeJoin (l : LinkId) (bridge : Byte) (line : Byte) (gain : Half) : FrameLaw.Statement (.bridgeJoin l bridge line gain) := ⟨rfl, rfl⟩
theorem FrameLaw.bridgeLeave (l : LinkId) (bridge : Byte) (line : Byte) : FrameLaw.Statement (.bridgeLeave l bridge line) := ⟨rfl, rfl⟩
theorem FrameLaw.logRead (l : LinkId) (n : Half) : FrameLaw.Statement (.logRead l n) := ⟨rfl, rfl⟩
theorem FrameLaw.logReadAgain (l : LinkId) (n : Half) : FrameLaw.Statement (.logReadAgain l n) := ⟨rfl, rfl⟩
theorem FrameLaw.logStatus (l : LinkId) : FrameLaw.Statement (.logStatus l) := ⟨rfl, rfl⟩
theorem FrameLaw.gapClear (l : LinkId) : FrameLaw.Statement (.gapClear l) := ⟨rfl, rfl⟩
theorem FrameLaw.frameSyncPulse (f : InFrame) : FrameLaw.Statement (.frameSyncPulse f) := ⟨rfl, rfl⟩
theorem FrameLaw.frameSyncAbsent : FrameLaw.Statement (.frameSyncAbsent) := ⟨rfl, rfl⟩
theorem FrameLaw.activityStart (src : SourceId) : FrameLaw.Statement (.activityStart src) := ⟨rfl, rfl⟩
theorem FrameLaw.activityEnd (src : SourceId) : FrameLaw.Statement (.activityEnd src) := ⟨rfl, rfl⟩
theorem FrameLaw.positionHighwayDown (n : HwId) : FrameLaw.Statement (.positionHighwayDown n) := ⟨rfl, rfl⟩
theorem FrameLaw.positionHighwayUp (n : HwId) : FrameLaw.Statement (.positionHighwayUp n) := ⟨rfl, rfl⟩
theorem FrameLaw.lineHighwayDown (n : HwId) : FrameLaw.Statement (.lineHighwayDown n) := ⟨rfl, rfl⟩
theorem FrameLaw.lineHighwayUp (n : HwId) : FrameLaw.Statement (.lineHighwayUp n) := ⟨rfl, rfl⟩
theorem FrameLaw.signallingSample (bits : BitVec 192) : FrameLaw.Statement (.signallingSample bits) := ⟨rfl, rfl⟩
theorem FrameLaw.detectorArmed (L : LineId) : FrameLaw.Statement (.detectorArmed L) := ⟨rfl, rfl⟩
theorem FrameLaw.inboundBurstEnd (L : LineId) : FrameLaw.Statement (.inboundBurstEnd L) := ⟨rfl, rfl⟩
theorem FrameLaw.ringStart (L : LineId) : FrameLaw.Statement (.ringStart L) := ⟨rfl, rfl⟩
theorem FrameLaw.ringEnd (L : LineId) : FrameLaw.Statement (.ringEnd L) := ⟨rfl, rfl⟩
theorem FrameLaw.guardExpiry (L : LineId) : FrameLaw.Statement (.guardExpiry L) := ⟨rfl, rfl⟩
theorem FrameLaw.offerExpiry (L : LineId) : FrameLaw.Statement (.offerExpiry L) := ⟨rfl, rfl⟩
theorem FrameLaw.alertExpiry (L : LineId) : FrameLaw.Statement (.alertExpiry L) := ⟨rfl, rfl⟩
theorem FrameLaw.recallExpiry (L : LineId) : FrameLaw.Statement (.recallExpiry L) := ⟨rfl, rfl⟩
theorem FrameLaw.bridgeIdle (b : BridgeId) : FrameLaw.Statement (.bridgeIdle b) := ⟨rfl, rfl⟩
theorem FrameLaw.talkIdleExpiry (b : BridgeId) (p : PosId) : FrameLaw.Statement (.talkIdleExpiry b p) := ⟨rfl, rfl⟩
theorem FrameLaw.icmAlertExpiry (c : BridgeId) : FrameLaw.Statement (.icmAlertExpiry c) := ⟨rfl, rfl⟩
theorem FrameLaw.outboundBurstEnd (L : LineId) : FrameLaw.Statement (.outboundBurstEnd L) := ⟨rfl, rfl⟩
theorem FrameLaw.byteClocked (l : LinkId) (byte : Byte) : FrameLaw.Statement (.byteClocked l byte) := ⟨rfl, rfl⟩
theorem FrameLaw.millisecondTick : FrameLaw.Statement (.millisecondTick) := ⟨rfl, rfl⟩

end Sys2Proof.Laws
end

