-- ==== Sys2Proof/Tests/Slice0.lean ====
section
/-! SUPPORT. Tests of the model against the spec's own words, and a witness for the hypotheses of every statement of
Certificates/Slice0/Obligations.lean. -/

namespace Sys2Proof.Tests.Slice0

open Sys2Proof Sys2Proof.Machine

set_option Elab.async false

/-! ## Well-formedness: one ill-formed command for each check -/

/-- R104: a member list holds at most twelve. -/
theorem test_group_of_thirteen_refused :
    (Instr.groupDefine .adm 0#8 (List.replicate 13 0#8)).wellFormed = false ∧
      (Instr.groupDefine .adm 0#8 (List.replicate 12 0#8)).wellFormed = true := by decide

/-- R121: a leg list holds at most four. -/
theorem test_five_legs_refused :
    (Instr.hootDefine .adm 0#8 ⟨none, none, none, none, none, none, some (List.replicate 5 (0#8, 0#16))⟩).wellFormed =
        false ∧
      (Instr.hootDefine .adm 0#8 ⟨none, none, none, none, none, none, some (List.replicate 4 (0#8, 0#16))⟩).wellFormed =
        true := by decide

/-- R190: all five parts take 2 + 24 + 24 + 12 + 12 + 1 bytes, more than the 60 of a body. -/
theorem test_five_parts_refused :
    (Instr.grant .adm 0#8 ⟨some 0, some 0, some 0, some 0, some 0⟩).wellFormed = false ∧
      (Instr.narrow .adm 0#8 ⟨some 0, some 0, some 0, some 0, some 0⟩).wellFormed = false ∧
      (Instr.grant .adm 0#8 ⟨some 0, some 0, none, none, some 0⟩).wellFormed = true := by decide

/-! ## Request frames, written out from R190 -/

/-- POS_OPEN is kind 6; its body is the position. -/
theorem test_frame_posOpen : decodeFrame (.pc 0) [6, 1, 5] = some (.posOpen (.pc 0) 5) := by decide

/-- LINE_TAKE is kind 8: position 4, endpoint 12 for key 4, line 1, and flags with CAMP and PARK_PREVIOUS. -/
theorem test_frame_lineTake :
    decodeFrame (.pc 0) [8, 4, 4, 12, 1, 3] = some (.lineTake (.pc 0) 4 12 1 3) ∧
      endpointOf 12#8 = some (.key 4) := by decide

/-- KEY_SET is kind 13: position 0, key 7, HOOT 2, bridge 31, T 0x0102, side L 0, priority 1. -/
theorem test_frame_keySet :
    decodeFrame (.pc 0) [13, 8, 0, 7, 2, 31, 1, 2, 0, 1] = some (.keySet (.pc 0) 0 7 2 31 0x0102 0 1) := by decide

/-- LEVEL_SET is kind 14: the mask 9 marks EA and the intercom side, in that order. -/
theorem test_frame_levelSet :
    decodeFrame .adm [14, 5, 4, 9, 3, 0xE8, 1] =
      some (.levelSet .adm 4 ⟨some 1000, none, none, some 1, none, none, none, none⟩) := by decide

/-- GROUP_DEFINE is kind 25: the count byte stands before the members. -/
theorem test_frame_groupDefine :
    decodeFrame .adm [25, 4, 7, 2, 1, 3] = some (.groupDefine .adm 7 [1, 3]) ∧
      decodeFrame .adm [25, 4, 7, 3, 1, 3] = none := by decide

/-- TIME_SET is kind 31: four bytes, most significant first. -/
theorem test_frame_timeSet : decodeFrame .adm [31, 4, 1, 2, 3, 4] = some (.timeSet .adm 0x01020304) := by decide

/-- LOG_READ is kind 36: a count of two bytes, and the flags byte whose bit 0 is AGAIN. -/
theorem test_frame_logRead :
    decodeFrame .recorder [36, 3, 0, 8, 1] = some (.logReadAgain .recorder 8) ∧
      decodeFrame .recorder [36, 3, 0, 8, 0] = some (.logRead .recorder 8) := by decide

/-- WATCH_SET is kind 27: line 9 is byte 1, bit 1 of the map. -/
theorem test_frame_watchSet :
    decodeFrame .adm ([27, 25, 0, 2] ++ List.replicate 22 0#8 ++ [3]) = some (.watchSet .adm (1#192 <<< 9) 3) := by
  decide

/-- R181, R190: a kind that is none, a body too short, a body too long. -/
theorem test_frames_malformed :
    decodeFrame .adm [39, 0] = none ∧ decodeFrame .adm [6, 0] = none ∧ decodeFrame .adm [6, 2, 0, 0] = none := by decide

/-! ## Small states -/

/-- A MANUAL_RINGDOWN line in IDLE. -/
def ringdown : Line := { Line.reset with ltype := .mr, state := .idle }

/-- A hoot with one talk slot and no leg. -/
def box : Hoot :=
  { slots := 1, talkIdleS := 0, quietS := 10, policy := .localPriority, shift := 2, record := false, legs := [],
    granted := [], queue := [], clashing := false, live := false }

/-- Every highway UP, every position OPEN with every permission, every line MANUAL_RINGDOWN and IDLE, but for
line 1, AUTO_RINGDOWN, and line 2, HOOT_TRUNK; hoot 5 has no talker, and key 1 of position 0 listens to it. -/
def desk : State :=
  { State.reset with
    positions := (Tab.fill 48 { Position.reset with isOpen := true }).modify 0 fun r => r.setBinding (.key 1) (.listen 5)
    posHw := Tab.fill 4 ⟨true, 0, 0⟩
    lineHw := Tab.fill 4 ⟨true, 0, 0⟩
    perms := Tab.fill 48 ⟨BitVec.allOnes 192, BitVec.allOnes 192, BitVec.allOnes 96, BitVec.allOnes 96, true⟩
    lines := ((Tab.fill 192 ringdown).set 1 { ringdown with ltype := .ar }).set 2 { ringdown with ltype := .ht }
    bridges := (Tab.fill 96 Bridge.reset).set 5 { Bridge.reset with use := .hoot, period := 10000 }
    hoots := (Tab.fill 96 none).set 5 (some box) }

/-- `desk` with line 0 changed, and with the bindings of position 0. -/
def deskLine (f : Line → Line) : State := desk.modLine 0 f
def deskPos (f : Position → Position) (s : State) : State := s.modPos 0 f

/-- Line 0 CONNECTED on bridge 0 to handset A of position 0. -/
def talking : State :=
  (deskPos (fun r => r.setBinding .ha (.holder 0))
    (deskLine fun r => { r with state := .connected, holders := [(0, .ha)], bridge := some 0 })).modBridge 0
    fun r => { r with use := .line 0, contributors := [⟨144, 1024, 0, .owner⟩, ⟨0, 1024, 0, .owner⟩] }

/-- Line 0 CONNECTED on bridge 0 to key 0 of position 0. -/
def onKey : State :=
  (deskPos (fun r => r.setBinding (.key 0) (.holder 0))
    (deskLine fun r => { r with state := .connected, holders := [(0, .key 0)], bridge := some 0 })).modBridge 0
    fun r => { r with use := .line 0, contributors := [⟨144, 1024, 0, .owner⟩] }

/-- `desk` with a hoot record on bridge 5. -/
def deskHoot (h : Hoot) : State := desk.setHoot 5 (some h)

/-- Call 7 from handset A of position 0, presented to position 1. -/
def ringing : State :=
  (((deskPos (fun r => r.setBinding .ha (.icm 7)) desk).modIcm 0 fun _ => ⟨.calling 7, none⟩).modIcm 1
    fun _ => ⟨.alerted 7, none⟩).modBridge 7 (fun r => { r with use := .icm, contributors := [⟨0, 1024, 0, .owner⟩] })
    |>.setCall 7 (some ⟨.tone, none, (0, .ha), [⟨1, false⟩], [(0, .ha)], false, some 15000⟩)

/-- `desk` with one link record. -/
def deskLink (l : LinkId) (f : Link → Link) : State := desk.modLink l f

/-- Two records in the log, which is THROTTLED at its lowest watermarks. -/
def fullLog : Log :=
  { Log.reset with
    queue := [{ kind := .connect, seq := 0#32 }, { kind := .disconnect, seq := 1#32 }]
    seq := 2#32, hw := 2, lw := 1, level := .throttled }

/-- The same log LOST, with one number lost. -/
def lostLog : Log := { fullLog with seq := 3#32, level := .lost, episode := some ⟨2#32, 1⟩, totalLost := 1 }

theorem fullLog_ok : LogOk fullLog where
  capacity := by decide
  high := by decide
  low := by decide
  normal := by decide
  drained := by decide
  episode := by decide
  counted := by simp [fullLog, Log.reset]
  total := by decide
  batch := by decide
  numbered := by simp [fullLog, follows]
  newest := by simp [fullLog, Log.reset]

theorem lostLog_ok : LogOk lostLog where
  capacity := by decide
  high := by decide
  low := by decide
  normal := by decide
  drained := by decide
  episode := by decide
  counted := by simp [lostLog, fullLog, Log.reset]
  total := by decide
  batch := by decide
  numbered := by simp [lostLog, fullLog, follows]
  newest := by simp [lostLog, fullLog, Log.reset]

/-- A state in which no bridge carries a hoot with talk keeps R120. -/
theorem hootsOk_of_box (s : State) (h : ∀ b, s.hoots.get b = none ∨ s.hoots.get b = some box) : HootsOk s := by
  intro b x hx
  rcases h b with e | e <;> rw [e] at hx
  · cases hx
  · cases hx; exact ⟨by decide, by decide, by decide⟩

theorem desk_hootsOk : HootsOk desk := hootsOk_of_box _ (by decide +kernel)

/-- Line 0 on key 0 of position 0, whose MIC talks on it, and on handset A of position 1, with a monitor, a guard of 0
and position 3 in its camp queue. -/
def party : State :=
  ((onKey.modPos 0 fun r => { r with mic := .talk 0 }).modPos 1 fun r => r.setBinding .ha (.holder 0)).modPos 2
    (fun r => r.setBinding .hb (.monitor 0))
    |>.modLine 0 fun r => { r with holders := [(0, .key 0), (1, .ha)], monitors := [(2, .hb)], guardMs := 0, camp := [3] }

/-- Line 0 HELD on bridge 0 by position 0. -/
def parked : State :=
  (deskLine fun r => { r with state := .held, holdOwner := some 0, bridge := some 0 }).modBridge 0
    fun r => { r with use := .line 0, contributors := [⟨144, 1024, 0, .owner⟩], period := 9000, idle := some 1 }

theorem inCall_of {s : State} {L : LineId} (h :
    ((s.lines.get L).state = .connected ∨
      (s.lines.get L).state = .held ∧ (s.lines.get L).holders = [] ∧ (s.lines.get L).holdOwner.isSome) ∧
    (∀ x ∈ (s.lines.get L).holders, x.2 ≠ .mic ∧ s.binding x.1 x.2 = .holder L) ∧
    (∀ x ∈ (s.lines.get L).monitors, (x.2 = .ha ∨ x.2 = .hb) ∧ s.binding x.1 x.2 = .monitor L) ∧
    ((s.lines.get L).holders.Nodup ∧ (s.lines.get L).monitors.Nodup) ∧ (s.lines.get L).pendingRing = false) :
    InCall s L := ⟨h.1, h.2.1, h.2.2.1, h.2.2.2.1, h.2.2.2.2⟩

theorem talking_inCall : InCall talking 0 := inCall_of (by decide +kernel)
theorem onKey_inCall : InCall onKey 0 := inCall_of (by decide +kernel)
theorem party_inCall : InCall party 0 := inCall_of (by decide +kernel)
theorem parked_inCall : InCall parked 0 := inCall_of (by decide +kernel)

/-! ## Witnesses: control links -/

theorem witness_StepTakesFront :
    ({ desk with pending := [.logStatus .recorder, .powerOn] } : State).pending = .logStatus .recorder :: [.powerOn] ∧
      desk.pending = [] := by decide

/-- The largest body of a group list, and a part of every size but the largest. -/
theorem witness_DecodeEncode :
    (Instr.groupDefine .adm 31 (List.replicate 12 47)).wellFormed = true ∧
      (Instr.groupDefine .adm 31 (List.replicate 12 47)).link? = some .adm ∧
      (Instr.narrow (.pc 3) 47 ⟨some 1, some 1, none, none, some 1⟩).wellFormed = true ∧
      (Instr.narrow (.pc 3) 47 ⟨some 1, some 1, none, none, some 1⟩).link? = some (.pc 3) := by decide

/-- A deselect in each transaction state, a lost NOTICE_READ with room for RESYNC and with none; bytes clocked while no
request is received, and a response of four bytes ready. -/
theorem witness_TransactionTaken :
    ((desk.link .adm).tx = .idle ∧
      ((deskLink .adm fun k => { k with tx := .request, frame := [6] }).link .adm).tx = .request ∧
      ((deskLink .adm fun k => { k with tx := .trailing }).link .adm).tx = .trailing ∧
      (let k := (deskLink .adm fun k => { k with
          tx := .wait 4, readCount := 1, queue := List.replicate 63 (.ringIn 0) }).link .adm;
        k.tx = .wait 4 ∧ 1 ≤ k.readCount ∧ k.queue.length < 64 ∧ k.resync = none) ∧
      (let k := (deskLink .adm fun k => { k with
          tx := .response, readCount := 8, queue := List.replicate 64 (.ringIn 0) }).link .adm;
        k.tx = .response ∧ 1 ≤ k.readCount ∧ ¬ k.queue.length < 64)) ∧
    ((desk.link .adm).tx ≠ .request ∧ ((deskLink .adm fun k => { k with tx := .trailing }).link .adm).tx = .trailing ∧
      (let k := (deskLink .adm fun k => { k with tx := .wait 0, response := [33, 0, 0, 0] }).link .adm;
        k.tx = .wait 0 ∧ k.response ≠ [] ∧ (List.replicate 9 (0#8 : Byte)).length = 5 + k.response.length)) := by
  decide +kernel

/-- A byte that leaves the frame open, one that completes a frame that reads, and one that completes one that does
not. -/
theorem witness_ByteReceived :
    let s (f : List Byte) : State := deskLink .adm fun k => { k with tx := .request, frame := f }
    (∀ f, ((s f).link .adm).tx = .request) ∧
      ¬ (2 ≤ ([33#8]).length) ∧
      (2 ≤ ([33#8, 0#8]).length ∧ 2 + (([33#8, 0#8]).getD 1 0#8).toNat ≤ ([33#8, 0#8]).length) ∧
      decodeFrame .adm [33, 0] = some (.partClear .adm) ∧
      (2 ≤ ([33#8, 61#8]).length ∧ 60 < (([33#8, 61#8]).getD 1 0#8).toNat) ∧ decodeFrame .adm [33, 61] = none := by
  exact ⟨fun f => rfl, by decide, by decide, by decide, by decide, by decide⟩

/-- A link whose latch is SET, and a kind that it does not let through. -/
theorem witness_FrameRefused :
    (Instr.groupDefine .adm 0 (List.replicate 13 0)).wellFormed = false ∧
      (Instr.groupDefine .adm 0 (List.replicate 13 0)).link? = some .adm ∧
      kindOf (.groupDefine .adm 0 (List.replicate 13 0)) = some .groupDefine ∧
      (Instr.posOpen (.pc 0) 0).wellFormed = true ∧ kindOf (.posOpen (.pc 0) 0) = some .posOpen ∧
      ((desk.setLatch (.pc 0) (some ⟨.posOpen, .notPermitted⟩)).latch (.pc 0)).isSome ∧ latchExempt .posOpen = false := by
  decide +kernel

/-- A recorder's request on PC0, and PC0's request for the first position of PC1. -/
theorem witness_ViolationLatches :
    (Instr.logStatus (.pc 0)).link? = some (.pc 0) ∧ kindOf (.logStatus (.pc 0)) = some .logStatus ∧
      (Instr.logStatus (.pc 0)).wellFormed = true ∧ desk.latch (.pc 0) = none ∧
      maySend (.pc 0) ReqKind.logStatus.cls = false ∧ kindOf (.posOpen (.pc 0) 12) = some .posOpen ∧
      maySend (.pc 0) ReqKind.posOpen.cls = true ∧ outOfScope (.pc 0) .posOpen (namedBy (.posOpen (.pc 0) 12)).pos = true ∧
      outOfScope (.pc 0) .posOpen (namedBy (.posOpen (.pc 0) 11)).pos = false := by decide +kernel

theorem witness_NoticeReadMask :
    desk.latch (.pc 3) = none ∧
      (let k := (deskLink .recorder fun k => { k with queue := [.ringIn 0], attention := true }).link .recorder
       k.attention = !k.queue.isEmpty) := by
  decide +kernel

/-- A hoot, a bridge without one, and a call. -/
theorem witness_QueryReadsOnly :
    desk.hoots.get 5 = some box ∧ desk.hoots.get 6 = none ∧ desk.calls.get 5 = none ∧
      (ringing.calls.get 7).isSome ∧ idByte (5 : BridgeId) = 5#8 ∧ 96 ≤ (96#8).toNat ∧ ¬ 96 ≤ (95#8).toNat := by
  decide +kernel

/-- The lowest and the highest link, by its own number and from ADM, and a link that names another. -/
theorem witness_LatchClearTaken :
    (2#8).toNat = 2 + (linkIdx (.pc 0)).val ∧ (7#8).toNat = 2 + (linkIdx .recorder).val ∧
      (LinkId.pc 0) ≠ .adm ∧ LinkId.recorder ≠ .pc 0 := by decide

/-! ## Witnesses: invariants -/

/-- Every bridge of a state that was not joined is as the invariant says. -/
theorem poolOk_of_empty (s : State) (h : ∀ b, s.bridges.get b = Bridge.reset ∨
    s.bridges.get b = { Bridge.reset with use := .hoot, period := 10000 }) : PoolOk s := by
  intro b
  rcases h b with e | e <;> rw [e] <;>
    exact ⟨by decide, by decide, by simp [Bridge.reset], rfl, fun _ => rfl, fun _ => rfl⟩

/-- Links with notices and a request half received. -/
theorem witness_LinksKept :
    let k (m : Link) : Link := { m with tx := .request, frame := [6], queue := [.ringIn 0], attention := true }
    let s : State := { desk with links := desk.links.map k, pending := [.byteClocked .adm 1] }
    LinksOk s ∧ ∃ t, step s = .next t := by
  refine ⟨fun i => ?_, ⟨_, rfl⟩⟩
  have h : ∀ i : Fin 6, (desk.links.map fun m =>
      ({ m with tx := .request, frame := [6], queue := [.ringIn 0], attention := true } : Link)).get i =
      { Link.reset with tx := .request, frame := [6], queue := [.ringIn 0], attention := true } := by decide +kernel
  show LinkOk ((desk.links.map _).get i)
  rw [h i]
  exact ⟨rfl, by decide, by decide, fun _ => rfl, by decide, fun _ => rfl⟩

theorem witness_LogLawKept :
    LogOk ({ desk with log := lostLog, pending := [.logRead .recorder 1] } : State).log ∧
      ∃ t, step { desk with log := lostLog, pending := [.logRead .recorder 1] } = .next t :=
  ⟨lostLog_ok, ⟨_, rfl⟩⟩

theorem witness_PoolKept :
    PoolOk { desk with pending := [.forceDrop .adm 0] } ∧
      ∃ t, step { desk with pending := [.forceDrop .adm 0] } = .next t :=
  ⟨poolOk_of_empty _ (by decide +kernel), ⟨_, rfl⟩⟩

/-- A camp queue of two on line 0, and a request for it. -/
def camped : State := { deskLine (fun r => { r with camp := [3, 0] }) with pending := [.campCancel (.pc 0) 0 0] }

theorem witness_QueuesKept : HootsOk camped ∧ CampsOk camped ∧ CampsPermitted camped ∧ ∃ t, step camped = .next t := by
  have h : ∀ L : LineId, (camped.lines.get L).camp = [] ∨ (camped.lines.get L).camp = [3, 0] := by decide +kernel
  refine ⟨hootsOk_of_box _ (by decide +kernel), fun L => ?_, fun L p _ => ?_, ⟨_, rfl⟩⟩
  · rcases h L with e | e <;> exact ⟨by rw [e]; decide, by rw [e]; decide⟩
  · rw [State.appears, show camped.perms.get p =
      ⟨BitVec.allOnes 192, BitVec.allOnes 192, BitVec.allOnes 96, BitVec.allOnes 96, true⟩ from Tab.get_fill _ _ p,
      BitVec.getLsbD_allOnes]
    simp

/-- A GRANT that widens an empty appearance set, as a command and as the byte that completes its frame, and a power-on
that clears a latch. -/
theorem witness_PermsNeverWiden :
    (∃ t, exec (.grant .adm 0 ⟨some 1, none, none, none, none⟩) State.reset = .next t ∧
      widens (State.reset.perms.get 0) (t.perms.get 0)) ∧
    decodeFrame .adm ([26, 3, 0, 0x10] ++ [1]) = some (.grant .adm 0 ⟨none, none, none, none, some 1⟩) ∧
    (let s := desk.setLatch .adm (some ⟨.posOpen, .wrongLink⟩)
     ∃ t, exec .powerOn s = .next t ∧ s.latch .adm = some ⟨.posOpen, .wrongLink⟩ ∧
      t.latch .adm ≠ some ⟨.posOpen, .wrongLink⟩) :=
  ⟨⟨_, rfl, by unfold widens; decide +kernel⟩, by decide, ⟨_, rfl, by decide +kernel, by decide +kernel⟩⟩

/-! ## Witnesses: positions and permissions -/

/-- Position 48 does not exist, position 47 is CLOSED, and the highway of position 11 is DOWN. -/
theorem witness_PositionTests :
    positionByte (.posClose .adm 48) = some 48 ∧ kindOf (.posClose .adm 48) = some .posClose ∧
      mayTake desk .adm .posClose (posOf 48) ∧ 48 ≤ (48#8).toNat ∧ posOf 47 = some 47 ∧
      mayTake State.reset (.pc 3) .lineDrop (posOf 47) ∧ (State.reset.positions.get 47).isOpen = false ∧
      (let s : State := { desk with posHw := desk.posHw.set 0 ⟨false, 0, 0⟩ }
       mayTake s (.pc 0) .talkOn (posOf 11) ∧ (s.positions.get 11).isOpen = true ∧ s.posUp 11 = false ∧
        isBindingRequest .talkOn = true) ∧
      mayTake State.reset (.pc 3) .posOpen (some 47) ∧ mayTake desk .adm .posOpen (some 0) := by
  unfold mayTake; decide +kernel

/-- Position 0 holds line 0 alone, and nothing else but a listener key. -/
theorem witness_PosCloseTaken :
    HootsOk talking ∧ mayTake talking (.pc 0) .posClose (some 0) ∧ (talking.positions.get 0).isOpen = true ∧
      InCall talking 0 ∧
      ((talking.lines.get 0).holders = [(0, .ha)] ∧ (∀ x ∈ (talking.lines.get 0).monitors, x.1 ≠ 0) ∧
        (talking.positions.get 0).mic = .none ∧ (talking.positions.get 0).feed = none ∧
        (∀ f, f ≠ Endpoint.ha → (∀ M, talking.binding 0 f ≠ .holder M ∧ talking.binding 0 f ≠ .monitor M) ∧
          ∀ c, talking.binding 0 f ≠ .icm c) ∧ talking.icmState 0 = .idle ∧ talking.waiting 0 = none ∧
        ∀ M, (0 : PosId) ∉ (talking.lines.get M).camp ∧ (talking.lines.get M).holdOwner ≠ some 0) ∧
      ∀ b h, talking.hoots.get b = some h → (0 : PosId) ∉ h.talkers := by
  have e : ∀ b, talking.hoots.get b = none ∨ talking.hoots.get b = some box := by decide +kernel
  have only : ∀ f, f ≠ Endpoint.ha → talking.binding 0 f = .none ∨ talking.binding 0 f = .listen 5 := by
    intro f
    cases f with
    | key k => revert k; decide +kernel
    | ha => intro h; exact absurd rfl h
    | hb => intro _; decide +kernel
    | mic => intro _; decide +kernel
  refine ⟨hootsOk_of_box _ e, by unfold mayTake; decide +kernel, by decide +kernel, talking_inCall,
    ⟨by decide +kernel, by decide +kernel, by decide +kernel, by decide +kernel, fun f hf => ?_, by decide +kernel,
      by decide +kernel, by decide +kernel⟩, fun b h hb => ?_⟩
  · rcases only f hf with e | e <;> rw [e] <;> exact ⟨fun _ => ⟨nofun, nofun⟩, nofun⟩
  · rcases e b with e | e <;> rw [e] at hb <;> cases hb
    decide

/-- KEEP on a key that holds a line; HOOT on the key that listens to it; NONE on that key, with no talk. -/
theorem witness_KeySetTaken :
    (mayTake onKey (.pc 0) .keySet (some 0) ∧ (onKey.positions.get 0).isOpen = true ∧
      keyArgOf 0 0 = some .keep ∧ sideOf 1 = some .r ∧ yesNoOf 1 = some true ∧
      keyArgOf 2 95 = some (.hoot 95) ∧ keyArgOf 1 0 = some .none ∧
      (∀ L, desk.binding 0 (.key 1) ≠ .holder L) ∧ keyArgOf 2 5 = some (.hoot 5) ∧ (desk.bridges.get 5).use = .hoot ∧
      desk.mayListen 0 5 = true ∧ (∀ j, j ≠ 1 → desk.binding 0 (.key j) ≠ .listen 5) ∧
      desk.binding 0 (.key 1) = .listen 5 ∧ desk.hoots.get 5 = some box ∧ (0 : PosId) ∉ box.talkers) ∧
    HootsOk desk :=
  ⟨by unfold mayTake; decide +kernel, desk_hootsOk⟩

/-- A level above its top, and the side R. -/
theorem witness_LevelSetTaken :
    mayTake desk (.pc 0) .levelSet (some 0) ∧ (desk.positions.get 0).isOpen = true ∧
      (∀ b, (⟨some 0xFFFF, none, none, some 1, some 4096, none, none, some 11⟩ : LevelFields).icmSide = some b →
        b = 0#8 ∨ b = 1#8) :=
  ⟨by unfold mayTake; decide +kernel, by decide +kernel, by rintro b ⟨⟩; decide⟩

/-- A GRANT that takes away line 0, and a NARROW of the monitor set to nothing, which widens nothing. -/
theorem witness_PermitsTaken :
    HootsOk desk ∧ mayTake desk .adm .grant (some 0) ∧ mayTake desk (.pc 0) .narrow (some 0) ∧
      (⟨some 2, none, none, none, some 0⟩ : PermParts).fits = true ∧
      (∀ b, (⟨some 2, none, none, none, some 0⟩ : PermParts).icm = some b → b = 0#8 ∨ b = 1#8) ∧
      (desk.positions.get 0).isOpen = true ∧ (⟨none, some 0, none, none, none⟩ : PermParts).fits = true ∧
      ¬ widens (desk.perms.get 0) (newPerm ⟨none, some 0, none, none, none⟩ (desk.perms.get 0)) ∧
      (desk.perms.get 0).appearance.getLsbD 0 = true ∧
      (newPerm ⟨some 2, none, none, none, some 0⟩ (desk.perms.get 0)).appearance.getLsbD 0 = false ∧
      ¬ widens (newPerm ⟨some 0, none, none, none, none⟩ Perm.reset) Perm.reset :=
  ⟨desk_hootsOk, by unfold mayTake; decide +kernel, by unfold mayTake; decide +kernel, by decide,
    by rintro b ⟨⟩; decide, by decide +kernel, by decide, by unfold widens; decide +kernel, by decide +kernel,
    by decide +kernel, by unfold widens; decide +kernel⟩

/-- Position 0 without permissions, its key 1 listening to hoot 5: each of the six refusals, at the highest codes of side,
priority and mode. -/
theorem witness_OwnerViolations :
    let s := desk.modPerm 0 fun _ => Perm.reset
    mayTake s (.pc 0) .lineTake (some 0) ∧ mayTake s (.pc 0) .keySet (some 0) ∧ mayTake s (.pc 0) .talkOn (some 0) ∧
      mayTake s (.pc 0) .icmDial (some 0) ∧ mayTake s (.pc 0) .icmGroup (some 0) ∧ mayTake s (.pc 0) .narrow (some 0) ∧
      (s.positions.get 0).isOpen = true ∧ s.posUp 0 = true ∧ (s.lines.get 0).ltype = .mr ∧
      s.mayMonitor 0 0 = false ∧ s.appears 0 0 = false ∧ (s.bridges.get 5).use = .hoot ∧ s.mayListen 0 5 = false ∧
      s.binding 0 (.key 1) = .listen 5 ∧ (s.hoots.get 5).isSome ∧ s.mayTalk 0 5 = false ∧ (s.perms.get 0).icm = false ∧
      (⟨some 1, none, none, none, none⟩ : PermParts).fits = true ∧
      widens (s.perms.get 0) (newPerm ⟨some 1, none, none, none, none⟩ (s.perms.get 0)) ∧ (1#8).toNat ≤ 1 := by
  unfold mayTake widens; decide +kernel

/-! ## Witnesses: configuration -/

theorem witness_VadSetTaken :
    desk.latch .adm = none ∧ 2 ≤ (2#8).toNat ∧ ¬ 2 ≤ (1#8).toNat ∧ LinkId.pc 0 ≠ .adm ∧ desk.latch (.pc 0) = none := by
  decide +kernel

/-- A route; the lowest high water that is met, and the low water that is met, of a THROTTLED and of a LOST log of two;
a list of twelve, one that names a position twice, and one out of range. -/
theorem witness_SettingsTaken :
    (desk.latch .adm = none ∧ routeOf 0 = some .none ∧ routeOf 3 = some .both) ∧
    (desk.latch .adm = none ∧
      (let s : State := { desk with log := { fullLog with hw := 3, level := .normal } }
       s.latch .adm = none ∧ s.log.level = .normal ∧ max 2 (min (2#16).toNat 1020) ≤ s.log.queue.length) ∧
      (let s : State := { desk with log := fullLog }
       s.latch .adm = none ∧ s.log.level = .throttled ∧ s.log.queue.length ≤ max 1 (2#16).toNat) ∧
      (let s : State := { desk with log := lostLog }
       s.latch .adm = none ∧ s.log.level = .lost ∧ s.log.queue.length ≤ max 1 (2#16).toNat)) ∧
    desk.latch .adm = none ∧ ((ids 48).take 12).length ≤ 12 ∧ ((ids 48).take 12).Nodup ∧
      ¬ ([0, 0] : List PosId).Nodup ∧ 32 ≤ (32#8).toNat ∧ (∃ b ∈ [47#8, 48#8], 48 ≤ b.toNat) := by decide +kernel

/-- LINE_DEFINE of the IDLE trunk line 2, which is no leg, with every code given. -/
theorem witness_LineDefineTaken :
    desk.latch .adm = none ∧ optCode lineTypeOf (some 0) = some (some .none) ∧
      optCode privacyOf (some 1) = some (some .shared) ∧ optCode policyOf (some 2) = some (some .required) ∧
      optCode reloadOf (some 2) = some (some .both) ∧ optCode policyOf none = some none ∧
      (desk.lines.get 2).state = .idle ∧ ((desk.lines.get 2).ltype = .ht → legOf desk 2 = none) := by decide +kernel

/-! ## Witnesses: lines -/

/-- A take by a handset of an IDLE line, without a channel; by a key of an OFFERED line under REQUIRED, with the
lowest channel; and of the ALERTING line 1. -/
theorem witness_LineTakeFresh :
    (mayTake desk (.pc 0) .lineTake (some 0) ∧ (desk.positions.get 0).isOpen = true ∧ desk.posUp 0 = true ∧
      desk.appears 0 0 = true ∧ desk.binding 0 .ha = .none ∧ channelAt desk 0 .ha = none ∧
      (0#8).getLsbD 2 = false ∧ (desk.lines.get 0).ltype = .mr ∧ (desk.lines.get 0).state = .idle ∧
      (desk.lines.get 0).holders = [] ∧ (desk.lines.get 0).monitors = [] ∧ (desk.lines.get 0).policy = .none ∧
      (desk.bridges.get 0).use = .free) ∧
    (let s : State := { deskLine (fun r => { r with state := .offered, camp := [0], policy := .required }) with
        timeValid := true }
     mayTake s (.pc 0) .lineTake (some 0) ∧ s.binding 0 (.key 7) = .none ∧ channelAt s 0 (.key 7) = none ∧
      (s.lines.get 0).state = .offered ∧ (s.lines.get 0).camp.head? = some 0 ∧ s.channels.get 0 = none ∧
      (∀ d, d < (0 : ChanId) → s.channels.get d ≠ none) ∧ (s.bridges.get 0).use = .free ∧
      (∀ d, d < (0 : BridgeId) → (s.bridges.get d).use ≠ .free) ∧
      s.log.level ≠ .lost ∧ s.timeValid = true) ∧
    ((desk.modLine 1 fun r => { r with state := .alerting }).lines.get 1).ltype = .ar := by
  unfold mayTake; decide +kernel

/-- Position 1 joins a shared line that position 0 holds, with room for one more; position 0 retrieves its hold. -/
theorem witness_LineTakeJoins :
    (let s := talking.modLine 0 fun r => { r with
        privacy := .shared, holders := [(0, .ha), (2, .key 0), (3, .key 0)] }
     mayTake s (.pc 0) .lineTake (some 1) ∧ (s.positions.get 1).isOpen = true ∧ s.posUp 1 = true ∧ s.appears 1 0 = true ∧
      s.binding 1 .hb = .none ∧ channelAt s 1 .hb = none ∧ (s.lines.get 0).ltype = .mr ∧ (s.lines.get 0).policy = .none ∧ s.channels.get 0 = none ∧
      (s.lines.get 0).bridge = some 0 ∧ (∀ x ∈ (s.lines.get 0).monitors, x.1 ≠ 1) ∧ (s.lines.get 0).state = .connected ∧
      (∀ x ∈ (s.lines.get 0).holders, x.1 ≠ 1) ∧ (s.lines.get 0).holders.length < 4 ∧
      (s.bridges.get 0).contributors.length < 12 ∧ (s.bridges.get 0).has 4 = false ∧ endpointSource 1 .hb = some 4) ∧
    (let s := (desk.modBridge 0 fun r => { r with use := .line 0, contributors := [⟨144, 1024, 0, .owner⟩] }).modLine 0
        fun r => { r with state := .held, holdOwner := some 0, bridge := some 0 }
     mayTake s (.pc 0) .lineTake (some 0) ∧ s.binding 0 (.key 0) = .none ∧ endpointSource 0 (.key 0) = none ∧
      channelAt s 0 (.key 0) = none ∧
      (s.lines.get 0).state = .held ∧ (s.lines.get 0).holders = [] ∧ (s.lines.get 0).holdOwner = some 0) := by
  unfold mayTake; decide +kernel

/-- The line held already; a monitor; BUSY, GUARD and FACILITY, with seven and with eight in the camp queue. -/
theorem witness_LineTakeOther :
    (mayTake talking (.pc 0) .lineTake (some 0) ∧ (talking.positions.get 0).isOpen = true ∧ talking.posUp 0 = true ∧
      (talking.lines.get 0).ltype = .mr ∧ (0#8).getLsbD 2 = false ∧ talking.appears 0 0 = true ∧
      holderEntry talking 0 0 = some .ha) ∧
    (mayTake talking (.pc 0) .lineTake (some 1) ∧ (4#8).getLsbD 2 = true ∧ talking.mayMonitor 1 0 = true ∧
      talking.binding 1 .hb = .none ∧ (talking.lines.get 0).state = .connected ∧
      (∀ x ∈ (talking.lines.get 0).holders ++ (talking.lines.get 0).monitors, x.1 ≠ 1) ∧
      (talking.lines.get 0).monitors.length < 4) ∧
    (let s := talking.modLine 0 fun r => { r with camp := [2, 3, 4, 5, 6, 7, 8] }
     mayTake s (.pc 0) .lineTake (some 1) ∧ (1#8).getLsbD 0 = true ∧ (1#8).getLsbD 2 = false ∧ s.appears 1 0 = true ∧
      (∀ x ∈ (s.lines.get 0).holders, x.1 ≠ 1) ∧ (s.lines.get 0).privacy = .single ∧
      1 ≤ (s.lines.get 0).holders.length ∧ (1 : PosId) ∉ (s.lines.get 0).camp ∧ ¬ 8 ≤ (s.lines.get 0).camp.length) ∧
    (let s := deskLine fun r => { r with state := .clearing, camp := [2, 3, 4, 5, 6, 7, 8, 9] }
     (s.lines.get 0).state = .clearing ∧ (1 : PosId) ∉ (s.lines.get 0).camp ∧ 8 ≤ (s.lines.get 0).camp.length) ∧
    ((deskLine fun r => { r with state := .outOfService }).lines.get 0).state = .outOfService := by
  unfold mayTake; decide +kernel

/-- A move from handset A to a key, without a channel and with one; handset A of position 0 takes IDLE line 3 away from
line 0, which it holds alone, from a monitor of line 4, and key 1 from the hoot that it listens to. -/
theorem witness_LineTakeMoves :
    (mayTake talking (.pc 0) .lineTake (some 0) ∧ (talking.positions.get 0).isOpen = true ∧ talking.posUp 0 = true ∧
      talking.appears 0 0 = true ∧ holderEntry talking 0 0 = some .ha ∧ talking.binding 0 (.key 0) = .none ∧
      (talking.lines.get 0).bridge = some 0 ∧ (talking.lines.get 0).policy = .none ∧
      (talking.bridges.get 0).contributors.length < 12 ∧ endpointSource 0 (.key 0) = none ∧
      channelAt talking 0 .ha = none ∧ channelAt talking 0 (.key 0) = none ∧
      channelAt (talking.setChan 63 (some ⟨0, .ha, none, 0, none⟩)) 0 .ha = some 63) ∧
    (talking.appears 0 3 = true ∧ (talking.lines.get 3).policy = .none ∧ channelAt talking 0 .ha = none ∧
      (talking.lines.get 3).holders = [] ∧ (talking.lines.get 3).monitors = [] ∧ (talking.lines.get 3).state = .idle ∧
      (talking.lines.get 3).ltype = .mr ∧ (talking.bridges.get 1).use = .free ∧
      (∀ d, d < (1 : BridgeId) → (talking.bridges.get d).use ≠ .free) ∧
      talking.binding 0 .ha = .holder 0 ∧ (talking.lines.get 0).state = .connected ∧
      (talking.lines.get 0).holders = [(0, .ha)] ∧ (talking.lines.get 0).monitors = [] ∧
      (∀ d, isConference talking d (lineSource 0) = false) ∧ (talking.lines.get 0).guardMs ≠ 0 ∧
      (0#8).getLsbD 1 = false ∧ (2#8).getLsbD 1 = true ∧
      (talking.bridges.get 0).contributors.all (fun y => y.origin = .owner) = true) ∧
    (deskPos (fun r => r.setBinding .ha (.monitor 4)) desk).binding 0 .ha = .monitor 4 ∧
    (desk.binding 0 (.key 1) = .listen 5 ∧ desk.hoots.get 5 = some box ∧ (0 : PosId) ∉ box.talkers ∧
      (desk.bridges.get 0).use = .free ∧ channelAt desk 0 (.key 1) = none) := by
  unfold mayTake; decide +kernel

/-- A move from key 0, on which the MIC talks, to handset B. -/
theorem witness_LineTakeMoves_talking :
    (let s := deskPos (fun r => { r with mic := .talk 0 }) onKey
     mayTake s (.pc 0) .lineTake (some 0) ∧ s.appears 0 0 = true ∧ holderEntry s 0 0 = some (.key 0) ∧
      s.binding 0 .hb = .none ∧ (s.positions.get 0).mic = .talk 0 ∧ (s.lines.get 0).bridge = some 0 ∧
      (s.lines.get 0).policy = .none ∧ channelAt s 0 (.key 0) = none ∧ channelAt s 0 .hb = none ∧
      endpointSource 0 .hb = some 1 ∧ (s.bridges.get 0).has 1 = false ∧ (s.bridges.get 0).contributors.length < 12) := by
  unfold mayTake; decide +kernel

/-- No FREE bridge; twelve sources on line 0's bridge; a REQUIRED line with the log LOST, with the time INVALID, and with
no FREE channel; a RECORD line with no FREE channel. -/
theorem witness_LineTakeResources :
    (let s : State := { desk with bridges := Tab.fill 96 { Bridge.reset with use := .icm } }
     mayTake s (.pc 0) .lineTake (some 1) ∧ holderEntry s 0 1 = none ∧ (s.lines.get 0).state = .idle ∧
      (s.lines.get 0).ltype = .mr ∧ ∀ b, (s.bridges.get b).use ≠ .free) ∧
    (let s := (talking.modLine 0 fun r => { r with privacy := .shared }).modBridge 0 fun r => { r with
        contributors := (ids 336).take 12 |>.map fun x => ⟨x, 1024, 0, .owner⟩ }
     mayTake s (.pc 0) .lineTake (some 1) ∧ holderEntry s 0 1 = none ∧ (s.lines.get 0).state = .connected ∧
      (s.lines.get 0).holders.length < 4 ∧ (s.lines.get 0).bridge = some 0 ∧
      12 ≤ (s.bridges.get 0).contributors.length) ∧
    (let s := deskLine fun r => { r with policy := .required }
     (s.lines.get 0).policy = .required ∧ channelAt s 1 .ha = none ∧ (s.bridges.get 0).use = .free ∧
      s.channels.get 0 = none ∧ s.timeValid = false ∧ s.log.level ≠ .lost ∧
      ({ s with log := lostLog } : State).log.level = .lost) ∧
    (let s : State := { deskLine (fun r => { r with policy := .record }) with
        channels := Tab.fill 64 (some ⟨13, .ha, none, 90, none⟩) }
     (∀ d, s.channels.get d ≠ none) ∧ channelAt s 1 .ha = none ∧ s.binding 1 .ha = .none ∧
      (s.lines.get 0).policy = .record ∧ (s.lines.get 0).holders = [] ∧ (s.lines.get 0).monitors = [] ∧
      (s.bridges.get 0).use = .free ∧ ∀ d, d < (0 : BridgeId) → (s.bridges.get d).use ≠ .free) := by
  unfold mayTake; decide +kernel

/-- A handset that is NONE, a key that listens, a monitor; the last holder's drop and park, from a handset and from a key
whose MIC talks on it; and a drop and a park that leave another holder. -/
theorem witness_LineDropPark :
    (mayTake desk (.pc 0) .lineDrop (some 0) ∧ mayTake desk (.pc 0) .linePark (some 0) ∧
      desk.binding 0 .ha = .none ∧ desk.binding 0 (.key 1) = .listen 5 ∧
      (deskPos (fun r => r.setBinding .hb (.monitor 191)) desk).binding 0 .hb = .monitor 191) ∧
    ((mayTake talking (.pc 0) .lineDrop (some 0) ∧ mayTake talking (.pc 0) .linePark (some 0) ∧
      (talking.positions.get 0).isOpen = true ∧ talking.binding 0 .ha = .holder 0 ∧
      (talking.lines.get 0).state = .connected ∧ (talking.lines.get 0).bridge = some 0 ∧
      (talking.lines.get 0).holders = [(0, .ha)]) ∧ InCall talking 0) ∧
    (let s := onKey.modPos 0 fun r => { r with mic := .talk 0 }
     (mayTake s (.pc 0) .lineDrop (some 0) ∧ mayTake s (.pc 0) .linePark (some 0) ∧
      (s.lines.get 0).holders = [(0, .key 0)] ∧ (keyTalks s (0, .key 0)).isSome ∧
      ((s.bridges.get 0).contributors.map (·.source)).Nodup) ∧ InCall s 0) ∧
    (mayTake party (.pc 0) .lineDrop (some 0) ∧ mayTake party (.pc 0) .linePark (some 0) ∧
      party.binding 0 (.key 0) = .holder 0 ∧ (0, Endpoint.key 0) ∈ (party.lines.get 0).holders ∧
      (party.lines.get 0).holders.filter (· ≠ (0, .key 0)) ≠ []) := by
  refine ⟨?_, ⟨?_, talking_inCall⟩, ⟨?_, inCall_of (by decide +kernel)⟩, ?_⟩ <;> unfold mayTake <;> decide +kernel

theorem witness_LineSignalCamp :
    (mayTake talking (.pc 0) .lineSignal (some 0) ∧ (talking.positions.get 0).isOpen = true ∧
      (talking.lines.get 0).ltype = .mr ∧ (talking.lines.get 0).state = .connected ∧
      (0, Endpoint.ha) ∈ (talking.lines.get 0).holders) ∧
    (mayTake talking (.pc 0) .campCancel (some 0) ∧ (0 : PosId) ∉ (talking.lines.get 0).camp) ∧
    (let s := deskLine fun r => { r with state := .offered, camp := [3, 0] }
     (0 : PosId) ∈ (s.lines.get 0).camp ∧ ¬ ((s.lines.get 0).state = .offered ∧ (s.lines.get 0).camp.head? = some 0)) ∧
    (let s := deskLine fun r => { r with state := .offered, camp := [0, 3] }
     (s.lines.get 0).camp = 0 :: 3 :: [] ∧ (0 : PosId) ∉ 3 :: ([] : List PosId) ∧ (s.lines.get 0).state = .offered) ∧
    (let s := deskLine fun r => { r with state := .offered, camp := [0] }
     mayTake s (.pc 0) .campCancel (some 0) ∧ (s.positions.get 0).isOpen = true ∧ (s.lines.get 0).camp = [0] ∧
      (s.lines.get 0).state = .offered) := by
  unfold mayTake; decide +kernel

/-- A line that is IDLE; one with one holder; one with two, a monitor and a guard of 0; one on hold. -/
theorem witness_ForceDropTaken :
    (desk.latch .adm = none ∧ (desk.lines.get 1).ltype = .ar ∧ (desk.lines.get 1).state ≠ .connected ∧
      (desk.lines.get 1).state ≠ .held) ∧
    (talking.latch .adm = none ∧ (talking.lines.get 0).ltype = .mr ∧ InCall talking 0) ∧
    (party.latch .adm = none ∧ (party.lines.get 0).ltype = .mr ∧ InCall party 0 ∧ (party.lines.get 0).guardMs = 0) ∧
    (parked.latch .adm = none ∧ (parked.lines.get 0).ltype = .mr ∧ InCall parked 0) :=
  ⟨by decide +kernel, ⟨by decide +kernel, by decide +kernel, talking_inCall⟩,
    ⟨by decide +kernel, by decide +kernel, party_inCall, by decide +kernel⟩, by decide +kernel, by decide +kernel,
    parked_inCall⟩

/-- Line 3, CONNECTED, joins line 0's bridge, which has room for one; it stands there; it does not. -/
theorem witness_ConferenceTaken :
    let s := (talking.modLine 3 fun r => { r with state := .connected }).modBridge 0 fun r => { r with
      contributors := (ids 336).take 11 |>.map fun x => ⟨x, 1024, 0, .owner⟩ }
    let t := s.modBridge 0 fun r => { r with contributors := [⟨147, 1024, 0, .conference⟩] }
    s.latch .adm = none ∧ (s.bridges.get 0).use = .line 0 ∧ (s.lines.get 0).state = .connected ∧
      (s.lines.get 3).state = .connected ∧ (s.lines.get 3).ltype = .mr ∧ lineSource 3 = 147 ∧
      (s.bridges.get 0).has (lineSource 3) = false ∧ (s.bridges.get 0).contributors.length < 12 ∧
      isConference s 0 (lineSource 3) = false ∧ t.latch .adm = none ∧ (t.bridges.get 0).use = .line 0 ∧
      (t.lines.get 3).state = .connected ∧ isConference t 0 (lineSource 3) = true := by decide +kernel

/-! ## Witnesses: talk, hoots and intercom -/

/-- A line that is not recorded, one whose key has no channel yet and gets the lowest, and one that finds none FREE; a
MIC that talks already. -/
theorem witness_LineTalkOn :
    (mayTake onKey (.pc 0) .talkOn (some 0) ∧ (onKey.positions.get 0).isOpen = true ∧ onKey.posUp 0 = true ∧
      onKey.binding 0 (.key 0) = .holder 0 ∧ (onKey.lines.get 0).bridge = some 0 ∧
      (onKey.positions.get 0).mic = .none ∧ (onKey.bridges.get 0).contributors.length < 12 ∧
      (onKey.bridges.get 0).has (micSource 0) = false ∧ (onKey.lines.get 0).policy ≠ .record ∧
      getsChannel onKey false 0 (.key 0) none) ∧
    (let s := onKey.modLine 0 fun r => { r with policy := .record }
     (s.lines.get 0).policy = .record ∧ channelAt s 0 (.key 0) = none ∧ getsChannel s true 0 (.key 0) (some 0) ∧
      (let u : State := { s with channels := Tab.fill 64 (some ⟨13, .ha, none, 90, none⟩) }
       channelAt u 0 (.key 0) = none ∧ getsChannel u true 0 (.key 0) none)) ∧
    ((deskPos (fun r => { r with mic := .talk 0 }) onKey).positions.get 0).mic = .talk 0 := by
  unfold mayTake getsChannel lowestFree; decide +kernel

/-- The last free talk slot, on a hoot that is not recorded and on one that is, the last queue entry, a full queue, and a
position that talks already. -/
theorem witness_HootTalkOn :
    (mayTake desk (.pc 0) .talkOn (some 0) ∧ (desk.positions.get 0).isOpen = true ∧ desk.posUp 0 = true ∧
      desk.mayTalk 0 5 = true ∧ desk.binding 0 (.key 1) = .listen 5 ∧ desk.hoots.get 5 = some box ∧
      (0 : PosId) ∉ box.talkers ∧ (desk.positions.get 0).mic = .none ∧ box.granted.length < box.slots ∧
      desk.active (micSource 0) = false ∧ clashCondition desk box = false ∧
      (desk.bridges.get 5).contributors.length < 12 ∧ (desk.bridges.get 5).has (micSource 0) = false ∧
      getsChannel desk box.record 0 .mic none) ∧
    (let h : Hoot := { box with record := true }
     (deskHoot h).hoots.get 5 = some h ∧ (0 : PosId) ∉ h.talkers ∧ h.granted.length < h.slots ∧
      getsChannel (deskHoot h) h.record 0 .mic (some 0)) ∧
    (let h : Hoot := { box with granted := [⟨1, 0, none⟩], queue := (List.range 7).map fun n => (Fin.ofNat 48 (n + 2), 0) }
     (deskHoot h).hoots.get 5 = some h ∧ (0 : PosId) ∉ h.talkers ∧ h.slots ≤ h.granted.length ∧ h.queue.length < 8) ∧
    (let h : Hoot := { box with granted := [⟨1, 0, none⟩], queue := (List.range 8).map fun n => (Fin.ofNat 48 (n + 2), 0) }
     (deskHoot h).hoots.get 5 = some h ∧ (0 : PosId) ∉ h.talkers ∧ h.slots ≤ h.granted.length ∧ 8 ≤ h.queue.length) ∧
    (let h : Hoot := { box with granted := [⟨0, 1, none⟩] }
     (deskHoot h).hoots.get 5 = some h ∧ (0 : PosId) ∈ h.talkers) := by
  unfold mayTake getsChannel lowestFree; decide +kernel

theorem witness_TalkOffTaken :
    (mayTake desk (.pc 0) .talkOff (some 0) ∧ (desk.positions.get 0).isOpen = true ∧ desk.binding 0 (.key 0) = .none) ∧
    (let s := deskPos (fun r => { r with mic := .talk 0 }) onKey
     mayTake s (.pc 0) .talkOff (some 0) ∧ s.binding 0 (.key 0) = .holder 0 ∧ (s.positions.get 0).mic = .talk 0 ∧
      (s.lines.get 0).bridge = some 0) ∧
    (let h : Hoot := { box with granted := [⟨0, 1, none⟩] }
     let s := deskPos (fun r => { r with mic := .talk 1 }) (deskHoot h)
     mayTake s (.pc 0) .talkOff (some 0) ∧ s.binding 0 (.key 1) = .listen 5 ∧ s.hoots.get 5 = some h ∧
      h.talker 0 = some ⟨0, 1, none⟩ ∧ (s.positions.get 0).mic = .talk 1 ∧ h.queue = [] ∧ h.clashing = false ∧
      clashCondition s h = false) ∧
    (let h : Hoot := { box with granted := [⟨1, 0, none⟩], queue := [(0, 1)] }
     let s := deskHoot h
     s.binding 0 (.key 1) = .listen 5 ∧ s.hoots.get 5 = some h ∧ h.talker 0 = none ∧ h.queued 0 = some (0, 1) ∧
      (0 : PosId) ∉ (h.queue.filter (· ≠ (0, 1))).map (·.1)) := by
  unfold mayTake; decide +kernel

/-- The grant of position 0 ends with position 1 at the head of the queue: its key 1 on the hoot and its MIC free, its MIC
in use, and its key elsewhere; on a recorded hoot, channel 0, which the end of the grant releases, is not FREE for the
next. -/
theorem witness_PromotionTaken :
    let h : Hoot := { box with granted := [⟨0, 1, none⟩], queue := [(1, 1)] }
    let s (v : Binding) (m : Binding) : State := (deskPos (fun r => { r with mic := .talk 1 }) (deskHoot h)).modPos 1
      fun r => { r.setBinding (.key 1) v with mic := m }
    ((s (.listen 5) .none).hoots.get 5 = some h ∧ (s (.listen 5) (.icm 9)).hoots.get 5 = some h ∧
      (s .none .none).hoots.get 5 = some h) ∧
    (mayTake (s (.listen 5) .none) (.pc 0) .talkOff (some 0) ∧ (s (.listen 5) .none).binding 0 (.key 1) = .listen 5 ∧
      h.talker 0 = some ⟨0, 1, none⟩ ∧ ((s (.listen 5) .none).positions.get 0).mic = .talk 1 ∧
      (h.granted.filter fun y => y.pos ≠ 0).length + 1 = h.slots ∧ h.legs = [] ∧
      (s (.listen 5) .none).binding 1 (.key 1) = .listen 5 ∧ ((s (.listen 5) .none).positions.get 1).isOpen = true ∧
      (s (.listen 5) .none).posUp 1 = true ∧ ((s (.listen 5) .none).positions.get 1).mic = .none ∧
      channelAt (s (.listen 5) .none) 1 .mic = none ∧ ((s (.listen 5) .none).bridges.get 5).has (micSource 1) = false ∧
      ((s (.listen 5) .none).bridges.get 5).contributors.length < 12 ∧
      getsChannel (s (.listen 5) .none) h.record 1 .mic none ∧
      getsChannel ((s (.listen 5) .none).setChan 0 (some ⟨0, .mic, some 1, 5, none⟩)) true 1 .mic (some 1)) ∧
    ((s (.listen 5) (.icm 9)).positions.get 1).mic ≠ .none ∧ (s .none .none).binding 1 (.key 1) ≠ .listen 5 := by
  unfold mayTake getsChannel lowestFree; decide +kernel

/-- A talker whose MIC is ACTIVE, and the JOINED leg of line 2 about to become so; the two already in a clash; the hoot
not recorded, and recorded on channel 3. -/
theorem witness_ClashTaken :
    let h : Hoot := { box with legs := [⟨2, 1024, true⟩], granted := [⟨0, 1, none⟩] }
    let s (h : Hoot) : State := ((deskHoot h).modDet (micSource 0) fun d => { d with active := true }).modBridge 5
      fun r => { r with contributors := [⟨146, 1024, 0, .owner⟩, ⟨2, 1024, 0, .owner⟩] }
    let y : Channel := ⟨0, .mic, some 1, 5, none⟩
    ((s h).active 146 = !true ∧ (s h).hoots.get 5 = some h ∧ ((s h).bridges.get 5).has 146 = true ∧
      (∀ d, d ≠ (5 : BridgeId) → ((s h).bridges.get d).has 146 = false) ∧ (∀ c, (s h).channels.get c = none) ∧
      lineSource 2 = 146 ∧ (s h).active (micSource 0) = true ∧ h.clashing = false ∧
      (s { h with clashing := true }).active 2 = !false ∧ micSource 0 = 2) ∧
    (false = true ↔ ∃ c y, (s h).channels.get c = some y ∧ y.bridge = 5) ∧
    (true = true ↔ ∃ c z, ((s h).setChan 3 (some y)).channels.get c = some z ∧ z.bridge = 5) := by
  have e : ∀ (h : Hoot) c, (((deskHoot h).modDet (micSource 0) fun d => { d with active := true }).modBridge 5
      fun r => { r with contributors := [⟨146, 1024, 0, .owner⟩, ⟨2, 1024, 0, .owner⟩] }).channels.get c = none :=
    fun _ _ => Tab.get_fill _ _ _
  refine ⟨by decide +kernel, ⟨nofun, fun ⟨c, y, hy, _⟩ => ?_⟩, fun _ => ⟨3, _, Tab.get_set_self _ _ _, rfl⟩, fun _ => rfl⟩
  rw [e] at hy
  cases hy

/-- A hoot on the free bridge 6 with the IDLE trunk line 2, hoot 5 defined again with that line, and its removal. -/
theorem witness_HootDefineRemove :
    let f : HootFields := ⟨some 5, some 4, some 0, some 1, some 13, some 1, some [(2, 4096)]⟩
    desk.latch .adm = none ∧ f.fits = true ∧ (desk.bridges.get 6).use = .free ∧ desk.hoots.get 6 = none ∧
      hootCount desk < 32 ∧ f.legs.getD [] = [((2 : LineId), (4096 : Half))].map (fun x => (idByte x.1, x.2)) ∧
      optCode clashPolicyOf f.policy = some (some .remotePriority) ∧ optCode yesNoOf f.record = some (some true) ∧
      ([(2 : LineId)]).Nodup ∧ (desk.lines.get 2).ltype = .ht ∧ legOf desk 2 = none ∧
      desk.hoots.get 5 = some box ∧ box.granted = [] ∧ box.queue = [] ∧ box.clashing = false ∧
      (desk.bridges.get 5).use = .hoot ∧ (desk.bridges.get 5).has (lineSource 2) = false ∧
      (desk.bridges.get 5).contributors.length + [((2 : LineId), (4096 : Half))].length ≤ 12 := by decide +kernel

/-- A DIRECT call to an idle, to a busy and to an occupied position; a GROUP call to two members, and to none. -/
theorem witness_IcmCallsPlaced :
    ((desk.positions.get 0).isOpen = true ∧ desk.posUp 0 = true ∧ (desk.perms.get 0).icm = true ∧
      desk.binding 0 .mic = .none ∧ desk.icmState 0 = .idle ∧ (desk.bridges.get 0).use = .free ∧
      getsChannel desk desk.icmRecord 0 .mic none ∧
      (let u : State := { desk with icmRecord := true }
       getsChannel u u.icmRecord 0 .mic (some 0)) ∧
      (∀ d, d < (0 : BridgeId) → (desk.bridges.get d).use ≠ .free) ∧ mayTake desk (.pc 0) .icmDial (some 0) ∧
      mayTake desk (.pc 0) .icmGroup (some 0) ∧ (desk.positions.get 47).isOpen = true ∧ desk.posUp 47 = true ∧
      (desk.perms.get 47).icm = true ∧ desk.icmState 47 = .idle ∧ (desk.groups.get 0).filter (· ≠ 0) = []) ∧
    (let s := ringing
     s.icmState 1 ≠ .idle ∧ s.waiting 1 = none ∧ (s.positions.get 2).isOpen = true ∧ s.binding 2 .ha = .none ∧
      s.icmState 2 = .idle ∧ (s.bridges.get 0).use = .free) ∧
    ((ringing.modIcm 1 fun x => { x with waiting := some 8 }).waiting 1 ≠ none) ∧
    (let s : State := { desk with groups := desk.groups.set 31 [0, 1, 2] }
     ((s.groups.get 31).filter (· ≠ 0)).filter (fun q => (s.positions.get q).isOpen && s.posUp q && (s.perms.get q).icm &&
        s.icmState q = .idle) ≠ []) := by
  unfold mayTake getsChannel lowestFree; decide +kernel

/-- The presented call answered, unrecorded and recorded; an ANNOUNCE_FIRST call presented to positions 1 and 2; nothing
presented; no call; the caller's hangup. -/
theorem witness_IcmAnswerHangup :
    let r : Call := ⟨.tone, none, (0, .ha), [⟨1, false⟩], [(0, .ha)], false, some 15000⟩
    mayTake ringing (.pc 0) .icmPickup (some 1) ∧ (ringing.positions.get 1).isOpen = true ∧ ringing.posUp 1 = true ∧
      ringing.icmState 1 = .alerted 7 ∧ ringing.calls.get 7 = some r ∧ ringing.binding 1 .mic = .none ∧
      getsChannel ringing ringing.icmRecord 1 .mic none ∧ (r.mode = .conference → r.parties.length < 12) ∧
      (let u : State := { ringing with icmRecord := true }
       getsChannel u u.icmRecord 1 .mic (some 0)) ∧
      (let g : Call := ⟨.announceFirst, some 0, (0, .ha), [⟨1, false⟩, ⟨2, false⟩], [(0, .ha)], false, some 9⟩
       let s := (ringing.setCall 7 (some g)).modIcm 2 fun _ => ⟨.alerted 7, none⟩
       s.icmState 1 = .alerted 7 ∧ s.calls.get 7 = some g ∧ (g.presented.filter fun x => x.pos ≠ 1) = [⟨2, false⟩] ∧
        g.caller.1 ≠ 2 ∧ s.waiting 2 = none) ∧
      (∀ y, endpointSource 1 .mic = some y →
        (ringing.bridges.get 7).has y = false ∧ (ringing.bridges.get 7).contributors.length < 12) ∧
      ringing.waiting 1 = none ∧
      r.caller.1 ≠ 1 ∧ mayTake ringing (.pc 0) .icmPickup (some 2) ∧ (∀ c, ringing.icmState 2 ≠ .alerted c) ∧
      mayTake ringing (.pc 0) .icmHangup (some 0) ∧ (ringing.positions.get 0).isOpen = true ∧
      ringing.icmState 0 = .calling 7 ∧ mayTake ringing (.pc 0) .icmHangup (some 2) ∧ ringing.icmState 2 = .idle := by
  unfold mayTake getsChannel lowestFree; decide +kernel

/-- Position 1 declines the DIRECT call 7, alone and beside position 2; position 1 leaves the GROUP call 7 of three, and
answers the DIRECT call 8, which waits at it and is still PRESENTING. -/
theorem witness_IcmRelationsEnd :
    (mayTake ringing (.pc 0) .icmHangup (some 1) ∧ (ringing.positions.get 1).isOpen = true ∧
      ringing.icmState 1 = .alerted 7 ∧ ringing.waiting 1 = none ∧ ringing.binding 0 .ha = .icm 7 ∧
      ringing.waiting 0 = none ∧
      ringing.calls.get 7 = some ⟨.tone, none, (0, .ha), [⟨1, false⟩], [(0, .ha)], false, some 15000⟩) ∧
    ((([⟨1, false⟩, ⟨2, false⟩] : List Presented).filter fun x => x.pos ≠ 1) ≠ []) ∧
    (let r : Call := ⟨.conference, some 0, (0, .ha), [], [(0, .ha), (1, .hb), (2, .ha)], true, none⟩
     let w : Call := ⟨.tone, none, (3, .ha), [⟨1, true⟩], [(3, .ha)], false, some 9000⟩
     let s := ((((ringing.setCall 7 (some r)).modIcm 0 fun _ => ⟨.active 7, none⟩).modIcm 1
        fun _ => ⟨.active 7, some 8⟩).modIcm 3 fun _ => ⟨.calling 8, none⟩).setCall 8 (some w) |>.modPos 1 fun x => x.setBinding .hb (.icm 7)
     mayTake s (.pc 0) .icmHangup (some 1) ∧ mayTake s (.pc 0) .icmPickup (some 1) ∧ s.posUp 1 = true ∧
      s.calls.get 7 = some r ∧ s.icmState 1 = .active 7 ∧ (r.parties.find? fun x => x.1 = 1) = some (1, .hb) ∧
      s.binding 1 .hb = .icm 7 ∧ r.group.isSome ∧ s.icmState 0 = .active 7 ∧
      2 ≤ (r.parties.filter fun x => x.1 ≠ 1).length ∧ s.icmRecord = false ∧ (∀ c, s.channels.get c = none) ∧
      s.waiting 1 = some 8 ∧ s.calls.get 8 = some w ∧ w.active = false ∧
      s.icmState 3 = .calling 8 ∧ lowestFree s (some 0) ∧
      endpointSource 1 .hb = some 4 ∧ (s.bridges.get 8).has 4 = false ∧ (s.bridges.get 8).contributors.length < 12) := by
  unfold mayTake lowestFree; decide +kernel

/-! ## Witnesses: the log, frames, highways, signalling and timers -/

/-- Key 1 of position 0 listens, and stands in no holder, monitor or party list. -/
theorem witness_PartClearTaken :
    (talking.latch .adm = none ∧ talking.log.level ≠ .lost ∧ (talking.bridges.get 0).use = .line 0 ∧
      (ringing.bridges.get 7).use = .icm ∧ (∀ b, talking.binding 0 .ha ≠ .listen b) ∧
      talking.binding 0 (.key 1) = .listen 5 ∧
      ∀ L, (0, Endpoint.key 1) ∉ (talking.lines.get L).holders ++ (talking.lines.get L).monitors) ∧
    ∀ c r, talking.calls.get c = some r → (0, Endpoint.key 1) ∉ r.parties :=
  ⟨by decide +kernel, fun c r h => by
    rw [show talking.calls.get c = none from Tab.get_fill _ _ c] at h; cases h⟩

/-- NORMAL one below high water, THROTTLED, and LOST. -/
theorem witness_SubmitTaken :
    LogOk Log.reset ∧ LogOk fullLog ∧ LogOk lostLog ∧ Log.reset.level = .normal ∧ fullLog.level = .throttled ∧
      lostLog.level = .lost := by
  refine ⟨⟨by decide, by decide, by decide, by decide, by decide, by decide, ?_, by decide, by decide, ?_, ?_⟩,
    fullLog_ok, lostLog_ok, rfl, rfl, rfl⟩ <;> simp [Log.reset]

theorem witness_RecorderReads :
    LogOk ({ desk with log := lostLog } : State).log ∧ ({ desk with log := lostLog } : State).latch .recorder = none ∧
      LogOk ({ desk with log := fullLog } : State).log ∧ ({ desk with log := fullLog } : State).latch .recorder = none :=
  ⟨lostLog_ok, by decide +kernel, fullLog_ok, by decide +kernel⟩

/-- Whether a source of this detector turns on a sample, and whether a highway does: the conditions of FramePulseTaken. -/
def turnsOn (v : VadParams) (d : Detector) (sample : Half) : Bool :=
  let e := max 0 ((d.energy : Int) + ((magnitude sample : Int) - d.energy) / 64)
  let hang := if e < v.toff then d.hang + 1 else 0
  let onset := if (v.ton : Int) ≤ e then d.onset + 1 else 0
  if d.active then decide (1 ≤ hang ∧ 8 * v.hangMs ≤ hang) else decide (v.onset ≤ onset)
def turns (f : InFrame) (s : State) (y : SourceId) : Bool :=
  turnsOn (if y.val < 144 then s.vadPos else s.vadLine) (s.detectors.get y) ((samples s f).get y)
def moves (slots : Tab Half 64) (h : Highway) : Bool :=
  let ok : Bool := slots.get 63 = 0x6C93#16
  if h.up then !ok && decide (8 ≤ h.bad + 1) else ok && decide (64 ≤ h.good + 1)

/-- A frame of silence, with every check slot wrong. -/
def silence : InFrame := ⟨Tab.fill 4 (Tab.fill 64 0), Tab.fill 4 (Tab.fill 64 0)⟩

/-- In silence a source whose detector and parameters are those of reset does not turn. -/
theorem silence_turns {s : State} {y : SourceId} (p : s.vadPos = VadParams.reset) (l : s.vadLine = VadParams.reset)
    (g : s.detectors.get y = Detector.reset) : turns silence s y = false := by
  have z : (samples s silence).get y = 0#16 := by simp [samples, posSample, lineSample, silence]
  rw [turns, z, g, p, l, ite_self]
  decide
theorem silence_turns_but {x y : SourceId} {d : Detector} (h : some y ≠ some x) :
    turns silence (State.reset.modDet x fun _ => d) y = false :=
  silence_turns rfl rfl (by
    have h : y ≠ x := fun e => h (e ▸ rfl)
    simp [State.modDet, Tab.modify, h, State.reset])

/-- A frame of zeros raises nothing; it is the signalling sample of a count of 31; source 335 turns QUIET with the last
frame of its hangover, source 0 ACTIVE with the last of its onset; position highway 3 goes DOWN with its eighth wrong
slot, line highway 0 UP with its sixty-fourth correct one. -/
theorem witness_FramePulseTaken :
    let s := State.reset
    (∀ y, turns silence s y = false) ∧
    (∀ n, moves (silence.position.get n) (s.posHw.get n) = false ∧ moves (silence.line.get n) (s.lineHw.get n) = false) ∧
    (s.frameCount + 1) % 32 ≠ 0 ∧ (31 + 1) % 32 = 0 ∧
    (let u := s.modDet 335 fun _ => ⟨5, true, 0, 3199⟩
     turns silence u 335 = true ∧ ∀ y, some y ≠ some (335 : SourceId) → turns silence u y = false) ∧
    (let u := s.modDet 0 fun _ => ⟨9000, false, 7, 0⟩
     turns silence u 0 = true ∧ ∀ y, some y ≠ some (0 : SourceId) → turns silence u y = false) ∧
    (let u : State := { s with posHw := s.posHw.set 3 ⟨true, 7, 0⟩ }
     moves (silence.position.get 3) (u.posHw.get 3) = true ∧
      ∀ n, some n ≠ some (3 : HwId) → moves (silence.position.get n) (u.posHw.get n) = false) ∧
    (let u : State := { s with lineHw := s.lineHw.set 0 ⟨false, 0, 63⟩ }
     let f : InFrame := ⟨silence.position, silence.line.modify 0 fun t => t.set 63 0x6C93#16⟩
     moves (f.line.get 0) (u.lineHw.get 0) = true ∧
      ∀ n, some n ≠ some (0 : HwId) → moves (f.line.get n) (u.lineHw.get n) = false) := by
  exact ⟨fun y => silence_turns rfl rfl (Tab.get_fill _ _ y), by decide +kernel, by decide, by decide,
    ⟨by decide +kernel, fun _ => silence_turns_but⟩, ⟨by decide +kernel, fun _ => silence_turns_but⟩, by decide +kernel⟩

theorem witness_MixTaken : (State.reset.positions.get 0).isOpen = false ∧ (desk.positions.get 0).isOpen = true := by
  decide +kernel

theorem witness_SampleBounds : BridgeOk desk (desk.bridges.get 5) ∧ magnitude 0x8000#16 ≤ 32767 :=
  ⟨poolOk_of_empty desk (by decide +kernel) 5, by decide⟩

/-- Highways in each state; hoot 5 with the JOINED leg of line 2, alone on it, and with that leg OUT. -/
theorem witness_HighwaysTaken :
    (HootsOk desk ∧ (desk.posHw.get 3).up = true ∧ (State.reset.posHw.get 3).up = false) ∧
    (let h : Hoot := { box with legs := [⟨2, 1024, true⟩] }
     let s := (deskHoot h).modBridge 5 fun r => { r with contributors := [⟨146, 1024, 0, .owner⟩] }
     (s.hoots.get 5 = some h ∧ (s.lineHw.get 0).up = true ∧ hwOfLine 2 = 0 ∧ (∀ L, (s.lines.get L).bridge ≠ some 5) ∧
       ∀ c ∈ (s.bridges.get 5).contributors, c.origin = .owner) ∧
      ∀ d g, s.hoots.get d = some g → d ≠ 5 → ∀ x ∈ g.legs, ∀ y ∈ h.legs, x.line ≠ y.line) ∧
    ((desk.bridges.get 5).has (lineSource 2) = false ∧ (desk.bridges.get 5).contributors.length + 1 ≤ 12) := by
  refine ⟨⟨desk_hootsOk, by decide +kernel, by decide +kernel⟩, ⟨by decide +kernel, fun d g hg hd => ?_⟩, by decide +kernel⟩
  have e : ∀ d, d ≠ (5 : BridgeId) → ((deskHoot { box with legs := [⟨2, 1024, true⟩] }).modBridge 5
      fun r => { r with contributors := [⟨146, 1024, 0, .owner⟩] }).hoots.get d = none := by decide +kernel
  rw [e d hd] at hg
  cases hg

/-- The bridge of handset A of position 0 and of line 0 is no hoot's, and is recorded on channel 3, or on none. -/
theorem witness_ActivityTaken :
    (talking.active 0 = false ∧ (∀ b, (talking.bridges.get b).has 0 = true → talking.hoots.get b = none) ∧
      ∀ c, talking.channels.get c = none) ∧
    (let s := talking.setChan 3 (some ⟨0, .ha, none, 0, none⟩)
     ((s.bridges.get 0).has 0 = true ∧ ∃ c y, s.channels.get c = some y ∧ y.bridge = 0) ∧
      ∀ d : BridgeId, ¬ d < 0) :=
  ⟨by decide +kernel, ⟨by decide +kernel, 3, _, Tab.get_set_self _ _ _, rfl⟩, by decide⟩

/-- A detector that runs in each state, an IDLE, a CONNECTED, a CLEARING and an ALERTING line. -/
theorem witness_SignalEventsTaken :
    ((desk.lines.get 0).ltype = .mr ∧ desk.lineUp 0 = true ∧ (desk.rings.get 0).state = .quiet ∧
      (desk.lines.get 0).state = .idle ∧ (desk.rings.get 0).state ≠ .ringing ∧ (desk.rings.get 0).state ≠ .tail) ∧
    ((talking.lines.get 0).state = .connected ∧ (talking.lines.get 0).ltype = .mr ∧ talking.lineUp 0 = true) ∧
    ((deskLine fun r => { r with state := .clearing }).lines.get 0).state = .clearing ∧
    ((desk.modRing 0 fun d => { d with state := .burst }).rings.get 0).state = .burst ∧
    (let s := (desk.modRing 1 fun d => { d with state := .tail }).modLine 1 fun r => { r with state := .alerting }
     s.lineUp 1 = true ∧ (s.rings.get 1).state = .tail ∧ (s.lines.get 1).ltype = .ar ∧
      (s.lines.get 1).state = .alerting ∧ (s.lines.get 1).camp = []) := by decide +kernel

/-- A ring on an OFFERED line, and its end on the CONNECTED line 1, AUTO_RINGDOWN, with the far end present. -/
theorem witness_RingsByState :
    (let s := deskLine fun r => { r with state := .offered, camp := [0, 1] }
     (s.lines.get 0).ltype = .mr ∧ s.lineUp 0 = true ∧ (s.rings.get 0).state ≠ .ringing ∧ (s.rings.get 0).state ≠ .tail ∧
      (s.lines.get 0).state = .offered ∧ (s.lines.get 0).camp = 0 :: [1]) ∧
    ((deskLine fun r => { r with state := .alerting }).lines.get 0).state = .alerting ∧
    ((deskLine fun r => { r with state := .held, holdOwner := some 0 }).lines.get 0).state = .held ∧
    (let s := ((desk.modRing 1 fun d => { d with state := .ringing }).modPos 0 fun r => r.setBinding .ha (.holder 1)).modLine 1
       fun r => { r with state := .connected, holders := [(0, .ha)], farPresent := true, bridge := some 0 }
     (s.lineUp 1 = true ∧ (s.rings.get 1).state = .ringing ∧ (s.lines.get 1).ltype = .ar ∧
      (s.lines.get 1).state = .connected ∧ (s.lines.get 1).farPresent = true) ∧ InCall s 1) :=
  ⟨by decide +kernel, by decide +kernel, by decide +kernel, by decide +kernel, inCall_of (by decide +kernel)⟩

/-- A sample that raises nothing, one that raises the ring of line 0 alone, and one that raises the end of line 1's; the
counts of R89 at power-on, and runs at their bounds. -/
theorem witness_RingDetection :
    ringEvents desk (fun _ => true) 0#192 = [] ∧
      (let s := desk.modRing 0 fun d => { d with state := .burst, burst := 24, lastPresent := true }
       ((s.rings.get 0).sample (s.lines.get 0).sig ((1#192).getLsbD 0)).2 = [true] ∧
        ringEvents s (fun _ => true) 1#192 = [(0, true)]) ∧
      (let s := desk.modRing 1 fun d => { d with state := .tail, tail := 74 }
       ((s.rings.get 1).sample (s.lines.get 1).sig ((0#192).getLsbD 1)).2 = [false] ∧
        ringEvents s (fun _ => true) 0#192 = [(1, false)]) ∧
      (2 ≤ samplesOf 5 ∧ samplesOf 200 = 50 ∧ samplesOf 100 = 25 ∧ samplesOf 40 = 10 ∧ samplesOf 300 = 75 ∧
        24 < 25 ∧ 24 + 2 > 25 ∧ 23 + 2 = 25 ∧ 22 + 2 < 25 ∧ 10 ≤ 10 ∧ 10 < 11 ∧ 49 < 50 ∧ 74 < 75) ∧
      (RingDet.start 50).held = false ∧ (RingDet.start 50).lastPresent = false := by decide +kernel

theorem witness_LineTimersExpire :
    let s (f : Line → Line) : Line := (deskLine f).lines.get 0
    ((s fun r => { r with state := .clearing, timer := some ⟨.guard, 1⟩ }).state = .clearing ∧
      (s fun r => { r with state := .clearing, timer := some ⟨.guard, 1⟩ }).timer.map (·.kind) = some .guard) ∧
    ((s fun r => { r with state := .offered, camp := [0, 1], timer := some ⟨.offer, 1⟩ }).camp.Nodup ∧
      (s fun r => { r with state := .offered, camp := [0, 1], timer := some ⟨.offer, 1⟩ }).state = .offered ∧
      (s fun r => { r with state := .offered, camp := [0, 1], timer := some ⟨.offer, 1⟩ }).timer.map (·.kind) =
        some .offer) ∧
    ((s fun r => { r with state := .alerting, timer := some ⟨.alert, 1⟩ }).state = .alerting ∧
      (s fun r => { r with state := .alerting, timer := some ⟨.alert, 1⟩ }).timer.map (·.kind) = some .alert) ∧
    (s fun r => { r with state := .held, holdOwner := some 0, timer := some ⟨.recall, 1⟩ }).timer.map (·.kind) =
      some .recall := by decide +kernel

/-- A RUNNING idle timer of a call, a hoot, a CONNECTED and a HELD line; a running talk-idle timer; a running alert
timer. -/
theorem witness_OtherTimersExpire :
    ((ringing.modBridge 7 fun r => { r with idle := some 1 }).bridges.get 7).idle.isSome ∧
      ((desk.modBridge 5 fun r => { r with idle := some 1 }).bridges.get 5).use = .hoot ∧
      (let s := talking.modBridge 0 fun r => { r with idle := some 1 }
       ((s.bridges.get 0).idle ≠ none ∧ (s.bridges.get 0).use = .line 0 ∧ (s.lines.get 0).bridge = some 0) ∧
        InCall s 0) ∧
      (((parked.bridges.get 0).idle ≠ none ∧ (parked.bridges.get 0).use = .line 0 ∧
        (parked.lines.get 0).bridge = some 0) ∧ InCall parked 0) ∧
      (let h : Hoot := { box with granted := [⟨0, 1, some 1⟩] }
       let s := deskPos (fun r => { r with mic := .talk 1 }) (deskHoot h)
       s.hoots.get 5 = some h ∧ h.talker 0 = some ⟨0, 1, some 1⟩ ∧ (s.positions.get 0).mic = .talk 1 ∧ h.queue = [] ∧
        h.clashing = false ∧ clashCondition s h = false) ∧
      (ringing.calls.get 7).map (·.alert) = some (some 15000) :=
  ⟨by decide +kernel, by decide +kernel, ⟨by decide +kernel, inCall_of (by decide +kernel)⟩,
    ⟨by decide +kernel, parked_inCall⟩, by decide +kernel, by decide +kernel⟩

/-- No timer but the ones named is within its last millisecond: the condition of TickTaken. -/
def calm (s : State) (line : Option LineId) (bridge : Option BridgeId) (talker : Option (BridgeId × PosId))
    (call : Option BridgeId) : Prop :=
  (∀ L, some L ≠ line → ∀ x, (s.lines.get L).timer = some x → 2 ≤ x.remaining) ∧
  (∀ b, some b ≠ bridge → ∀ n, (s.bridges.get b).idle = some n → 2 ≤ n) ∧
  (∀ b h, s.hoots.get b = some h → ∀ g ∈ h.granted, some (b, g.pos) ≠ talker → ∀ n, g.timer = some n → 2 ≤ n) ∧
  ∀ c, some c ≠ call → ∀ r, s.calls.get c = some r → ∀ n, r.alert = some n → 2 ≤ n

theorem calm_of {s : State} {line : Option LineId} {bridge : Option BridgeId} {talker : Option (BridgeId × PosId)}
    {call : Option BridgeId}
    (h : (∀ L, some L ≠ line → (s.lines.get L).timer.all (fun x => decide (2 ≤ x.remaining)) = true) ∧
      (∀ b, some b ≠ bridge → (s.bridges.get b).idle.all (fun n => decide (2 ≤ n)) = true) ∧
      (∀ b, (s.hoots.get b).all (fun h => h.granted.all fun g =>
        decide (some (b, g.pos) = talker) || g.timer.all fun n => decide (2 ≤ n)) = true) ∧
      ∀ c, some c ≠ call → (s.calls.get c).all (fun r => r.alert.all fun n => decide (2 ≤ n)) = true) :
    calm s line bridge talker call := by
  obtain ⟨a, b, c, d⟩ := h
  refine ⟨fun L n x e => ?_, fun i n x e => ?_, fun i x e g hg n y hy => ?_, fun i n r e y hy => ?_⟩
  · simpa [e] using a L n
  · simpa [e] using b i n
  · have h := c i
    rw [e, Option.all_some, List.all_eq_true] at h
    simpa [n, hy] using h g hg
  · simpa [e, hy] using d i n

/-- A timer with two milliseconds to go is the longest that a tick does not take; one of each sort with one to go; a
frame sync that is PRESENT, with no pulse seen. -/
theorem witness_TickTaken :
    (let s := deskLine fun r => { r with timer := some ⟨.guard, 2⟩ }
     ¬ (s.syncPresent = true ∧ s.pulsed = false) ∧ calm s none none none none ∧
      (let t : State := { s with syncPresent := true }
       t.syncPresent = true ∧ t.pulsed = false ∧ calm t none none none none)) ∧
    (let s := deskLine fun r => { r with timer := some ⟨.recall, 1⟩ }
     (s.lines.get 0).timer = some ⟨.recall, 1⟩ ∧ calm s (some 0) none none none) ∧
    (let s := talking.modBridge 0 fun r => { r with idle := some 1 }
     (s.bridges.get 0).idle = some 1 ∧ calm s none (some 0) none none) ∧
    (let h : Hoot := { box with granted := [⟨0, 1, some 1⟩] }
     let s := deskHoot h
     HootsOk s ∧ s.hoots.get 5 = some h ∧ calm s none none (some (5, 0)) none) ∧
    (let s := ringing.modCall 7 fun r => { r with alert := some 1 }
     (s.calls.get 7).bind (·.alert) = some 1 ∧ calm s none none none (some 7)) := by
  refine ⟨⟨by decide +kernel, calm_of (by decide +kernel), rfl, rfl, calm_of (by decide +kernel)⟩,
    ⟨by decide +kernel, calm_of (by decide +kernel)⟩, ⟨by decide +kernel, calm_of (by decide +kernel)⟩,
    ⟨fun b x hx => ?_, by decide +kernel, calm_of (by decide +kernel)⟩, by decide +kernel, calm_of (by decide +kernel)⟩
  have e : ∀ b, (deskHoot { box with granted := [⟨0, 1, some 1⟩] }).hoots.get b = none ∨
      (deskHoot { box with granted := [⟨0, 1, some 1⟩] }).hoots.get b = some { box with granted := [⟨0, 1, some 1⟩] } := by
    decide +kernel
  rcases e b with e | e <;> rw [e] at hx <;> cases hx
  exact ⟨by decide, by decide, by decide⟩

/-! ## A few results, worked out by hand from the rules -/

/-- R180, R190: a LINK_RESET frame clocked in on ADM while 0xFF is driven; then four fillers, the start byte, kind 4,
DONE, a body of two bytes, and the one notice that was discarded. -/
theorem test_transaction :
    (clockBytes .adm [4, 0, 0xAA, 0xAA, 0xAA, 0xAA, 0xAA, 0xAA, 0xAA, 0xAA, 0xAA, 0xAA, 0xAA]
        (deskLink .adm fun k => { k with tx := .request, queue := [.ringIn 3], attention := true })).1 =
      [0xFF, 0xFF, 0xFF, 0xFF, 0xFF, 0xFF, 0x5A, 4, 0, 0, 2, 0, 1].map some := by decide +kernel

/-- R62: a take of IDLE line 0 on the lowest bridge, 0; no channel, no displacement. -/
theorem test_take_idle_line :
    ∃ t, exec (.lineTake (.pc 0) 0 0 0 0) desk = .next t ∧ (t.lines.get 0).state = .connected ∧
      t.binding 0 .ha = .holder 0 ∧ (t.link (.pc 0)).response = [8, 0, 0, 7, 5, 0, 1, 0, 0xFF, 0, 0xFF] :=
  ⟨_, rfl, by decide +kernel⟩

/-- R162: the count goes from its largest value to 0. -/
theorem test_time_wraps :
    ∃ t, exec .millisecondTick { desk with log := { desk.log with time := 0xFFFFFFFF } } = .next t ∧ t.log.time = 0#32 :=
  ⟨_, rfl, by decide +kernel⟩

/-- R77: a ring on IDLE line 0 makes it ALERTING. -/
theorem test_ring_alerts :
    ∃ t, exec (.ringStart 0) desk = .next t ∧ (t.lines.get 0).state = .alerting ∧
      (t.lines.get 0).timer = some ⟨.alert, 20000⟩ :=
  ⟨_, rfl, by decide +kernel⟩

/-- The table of R45. -/
theorem test_energy_table :
    nextEnergy 100 740 = 110 ∧ nextEnergy 50 0 = 49 ∧ nextEnergy 1 0 = 0 ∧ nextEnergy 0 0 = 0 ∧
      nextEnergy 100 150 = 100 ∧ nextEnergy 32704 32767 = 32704 := by decide

/-- R30: half up, on both sides of zero. -/
theorem test_unity_rounds_half_up : unity 511 = 0 ∧ unity 512 = 1 ∧ unity (-512) = 0 ∧ unity (-513) = -1 := by decide

end Sys2Proof.Tests.Slice0
end

namespace Sys2Proof.Machine
open Sys2Proof

section

/-! # What the start of a step leaves as it is -/

@[simp] theorem begin_latch (s : State) (o : Option LinkId) (l : LinkId) : (s.begin o).latch l = s.latch l := rfl
@[simp] theorem begin_link (s : State) (o : Option LinkId) (l : LinkId) : (s.begin o).link l = s.link l := rfl
@[simp] theorem begin_binding (s : State) (o : Option LinkId) (p : PosId) (e : Endpoint) :
    (s.begin o).binding p e = s.binding p e := rfl
@[simp] theorem begin_posUp (s : State) (o : Option LinkId) (p : PosId) : (s.begin o).posUp p = s.posUp p := rfl

/-! # Requests: how a position request reaches its owner, and how its answer stands on the link -/

/-! ## Operand bytes (R190) -/

theorem idOf_idByte {n : Nat} (i : Fin n) (h : n ≤ 256) : idOf n (idByte i) = some i := by
  have e : (idByte i).toNat = i.val := by
    simp only [idByte, BitVec.toNat_ofNat]
    omega
  simp [idOf, e]

@[simp] theorem posOf_idByte (p : PosId) : posOf (idByte p) = some p := idOf_idByte p (by decide)
@[simp] theorem keyOf_idByte (k : KeyId) : keyOf (idByte k) = some k := idOf_idByte k (by decide)
@[simp] theorem lineOf_idByte (L : LineId) : lineOf (idByte L) = some L := idOf_idByte L (by decide)

theorem posOf_eq_none {b : Byte} (h : 48 ≤ b.toNat) : posOf b = none := by
  simp [posOf, idOf]
  omega

@[simp] theorem endpointOf_endByte (e : Endpoint) : endpointOf (endByte e) = some e := by
  cases e with
  | ha => rfl
  | hb => rfl
  | mic => rfl
  | key k => revert k; decide

/-! ## Answers -/

@[simp] theorem answered_respond (l : LinkId) (kind : ReqKind) (t : State) (r : Result) (body : List Byte) :
    answered (respond l (BitVec.ofNat 8 kind.code) (t, ⟨r, body⟩)) l kind r body := by
  simp [answered, respond]

theorem noNotice.refl (s : State) : noNotice s s := fun _ => ⟨rfl, rfl, rfl, rfl, rfl⟩

theorem sameNotices.trans {i j k : Link} (h : sameNotices i j) (g : sameNotices j k) : sameNotices i k := by
  obtain ⟨hq, hm, hr, hd, ha⟩ := h
  obtain ⟨gq, gm, gr, gd, ga⟩ := g
  exact ⟨gq.trans hq, gm.trans hm, gr.trans hr, gd.trans hd, ga.trans ha⟩

theorem sameNotices.symm {i j : Link} (h : sameNotices i j) : sameNotices j i := by
  obtain ⟨hq, hm, hr, hd, ha⟩ := h
  exact ⟨hq.symm, hm.symm, hr.symm, hd.symm, ha.symm⟩

theorem noNotice.trans {s t u : State} (h : noNotice s t) (g : noNotice t u) : noNotice s u :=
  fun l => (h l).trans (g l)

theorem noNotice.symm {s t : State} (h : noNotice s t) : noNotice t s := fun l => (h l).symm

theorem noNotice.of_links {s t : State} (h : t.links = s.links) : noNotice s t := fun l => by
  simp only [State.link, h]
  exact noNotice.refl s l

/-- The response is of the link's own transaction: it queues no notice (R180). -/
theorem noNotice.respond {s : State} {x : State × Response} (h : noNotice s x.1) (l : LinkId) (kind : Byte) :
    noNotice s (respond l kind x) := fun m => by
  refine (h m).trans ?_
  unfold Machine.respond
  by_cases hm : m = l
  · subst hm
    rw [modLink_link_self]
    exact ⟨rfl, rfl, rfl, rfl, rfl⟩
  · rw [modLink_link_ne _ _ hm]
    exact ⟨rfl, rfl, rfl, rfl, rfl⟩

/-! ## Position requests (R3, R181) -/

/-- A request that passes the latch, class and scope tests is taken by its owner (R181). -/
theorem takeRequest_owner {s : State} {l : LinkId} {kind : ReqKind} {n : Named} (h : mayTake s l kind n.pos)
    (owner : State → State × Response) :
    takeRequest l kind true n owner s = respond l (BitVec.ofNat 8 kind.code) (owner (s.begin (some l))) := by
  obtain ⟨hlatch, hclass, hscope⟩ := h
  have hl : ((s.latch l).isSome && !latchExempt kind) = false := by
    rcases hlatch with h | h <;> simp [h]
  simp only [takeRequest, decideRequest, begin_latch, hl, hclass, hscope]
  rfl

/-- The same of a request of the position catalogue, whose tests of R3 come first. -/
theorem positionRequest_tests {s : State} {l : LinkId} {kind : ReqKind} {b : Byte} (h : mayTake s l kind (posOf b))
    (t : PosTests) (n : Named) (f : PosId → State → State × Response) :
    positionRequest l kind true t b n f s =
      respond l (BitVec.ofNat 8 kind.code) (posTests t b f (s.begin (some l))) := takeRequest_owner h _

theorem posTests_range {b : Byte} (h : posOf b = none) (t : PosTests) (f : PosId → State → State × Response)
    (s : State) : posTests t b f s = (s, .bare .range) := by simp [posTests, h]

theorem posTests_closed {b : Byte} {p : PosId} {s : State} (h : posOf b = some p)
    (hc : (s.positions.get p).isOpen = false) (t : PosTests) (ht : t.needsOpen = true)
    (f : PosId → State → State × Response) : posTests t b f s = (s, .bare .closed) := by simp [posTests, h, hc, ht]

theorem posTests_facility {b : Byte} {p : PosId} {s : State} (h : posOf b = some p)
    (ho : (s.positions.get p).isOpen = true) (hu : s.posUp p = false) (t : PosTests) (ht : t.needsUp = true)
    (f : PosId → State → State × Response) : posTests t b f s = (s, .bare .facility) := by
  simp [posTests, h, ho, hu, ht]

theorem posTests_pass {b : Byte} {p : PosId} {s : State} (h : posOf b = some p) (t : PosTests)
    (ho : t.needsOpen = true → (s.positions.get p).isOpen = true) (hu : t.needsUp = true → s.posUp p = true)
    (f : PosId → State → State × Response) : posTests t b f s = f p s := by
  have ho' : (t.needsOpen && !(s.positions.get p).isOpen) = false := by
    cases ht : t.needsOpen <;> simp [ht] at ho ⊢
    exact ho
  have hu' : (t.needsUp && !s.posUp p) = false := by
    cases ht : t.needsUp <;> simp [ht] at hu ⊢
    exact hu
  simp [posTests, h, ho', hu']

/-- A request about an OPEN position, with its highway UP where that is tested, is decided by its owner. -/
theorem positionRequest_owner {s : State} {l : LinkId} {kind : ReqKind} {p : PosId}
    (h : mayTake s l kind (some p)) (t : PosTests)
    (ho : t.needsOpen = true → (s.positions.get p).isOpen = true) (hu : t.needsUp = true → s.posUp p = true)
    (n : Named) (f : PosId → State → State × Response) :
    positionRequest l kind true t (idByte p) n f s =
      respond l (BitVec.ofNat 8 kind.code) (f p (s.begin (some l))) := by
  rw [positionRequest_tests (by simpa using h), posTests_pass (s := s.begin (some l)) (posOf_idByte p) t ho hu]

/-- Every command of the position catalogue is a position request that tests for OPEN, but for POS_OPEN, and for the
highway when it is a binding request (R3). -/
theorem exec_eq_positionRequest {i : Instr} {l : LinkId} {kind : ReqKind} {b : Byte} (hl : i.link? = some l)
    (hk : kindOf i = some kind) (hb : positionByte i = some b) (hw : i.wellFormed = true) (s : State) :
    ∃ n f, exec i s = .next (positionRequest l kind true ⟨kind ≠ .posOpen, isBindingRequest kind⟩ b n f s) := by
  cases i <;> simp only [positionByte, reduceCtorEq] at hb <;> cases hl <;> cases hk <;> cases hb
  case narrow parts =>
    have hw' : parts.fits = true := hw
    refine ⟨{}, Machine.narrow l parts, ?_⟩
    simp [exec, execNarrow, hw', isBindingRequest]
  all_goals exact ⟨_, _, rfl⟩

end

/-- Settles O20: every position request meets the tests of R3 by `posTests`, and POS_OPEN is decided by its owner. -/
theorem positionTests : Obligations.PositionTests := by
  refine ⟨?_, ?_⟩
  · intro i l kind b s hl hk hb hw hm
    obtain ⟨n, f, he⟩ := exec_eq_positionRequest hl hk hb hw s
    rw [positionRequest_tests hm] at he
    have refused (r : Result)
        (h : posTests ⟨kind ≠ .posOpen, isBindingRequest kind⟩ b f (s.begin (some l)) = (s.begin (some l), .bare r)) :
        ∃ t, exec i s = .next t ∧ onlyLinks s t ∧ noNotice s t ∧ answered t l kind r [] := by
      rw [h] at he
      exact ⟨_, he, rfl, (noNotice.refl s).respond l _, answered_respond ..⟩
    refine ⟨fun h => refused _ (posTests_range (posOf_eq_none h) ..), fun p hp => ⟨fun hc ho => ?_, fun ho hu hbind => ?_⟩⟩
    · exact refused _ (posTests_closed (s := s.begin (some l)) hp hc ⟨_, _⟩ (by simpa using ho) _)
    · exact refused _ (posTests_facility (s := s.begin (some l)) hp ho hu ⟨_, _⟩ hbind _)
  · intro l p s hm
    refine ⟨_, congrArg Host.Outcome.next (positionRequest_owner hm _ (by simp) (by simp) _ _), ?_, ?_, rfl, rfl⟩
    · exact noNotice.respond (noNotice.refl s) l _
    · have hb : bService ((s.begin (some l)).modPos p fun r => { r with isOpen := true }) p =
          [0#8, if s.posUp p then 0#8 else 1#8] := by
        have hu : ((s.begin (some l)).modPos p fun r => { r with isOpen := true }).posUp p = s.posUp p := rfl
        cases h : s.posUp p <;> simp [bService, bFirst, b1, hu, h]
      rw [← hb]
      exact answered_respond ..

end Sys2Proof.Machine

namespace Sys2Proof.Machine
open Sys2Proof

section

/-! # LEVEL_SET (R12, R13) -/

/-- A present gain reaches every contribution of its source, and nothing else (R13, R24). -/
theorem applyGain_bridges (x : SourceId) (gain : Nat) (v : Option Half) (s : State) (b : BridgeId) :
    (applyGain x gain v s).bridges.get b = { s.bridges.get b with
      contributors := (s.bridges.get b).contributors.map fun c =>
        { c with gain := if c.source = x ∧ v ≠ none then min gain 4095 else c.gain } } := by
  cases v with
  | none => simp [applyGain]
  | some v =>
    simp only [applyGain, Option.isSome_some, if_true, setGain, Tab.get_map]
    congr 2
    funext c
    split <;> simp_all

theorem applyGain_rest (x : SourceId) (gain : Nat) (v : Option Half) (s : State) :
    applyGain x gain v s = { s with bridges := (applyGain x gain v s).bridges } := by
  unfold applyGain
  split <;> rfl

/-- Three gains of different sources, each where it is present. -/
theorem applyGain_thrice {x y z : SourceId} (hxy : x ≠ y) (hxz : x ≠ z) (hyz : y ≠ z) (i j k : Nat)
    (u v w : Option Half) (s : State) (b : BridgeId) :
    (applyGain z k w (applyGain y j v (applyGain x i u s))).bridges.get b = { s.bridges.get b with
      contributors := (s.bridges.get b).contributors.map fun c => { c with
        gain := if c.source = x ∧ u ≠ none then min i 4095 else if c.source = y ∧ v ≠ none then min j 4095
          else if c.source = z ∧ w ≠ none then min k 4095 else c.gain } } := by
  simp only [applyGain_bridges, List.map_map]
  congr 2
  funext c
  by_cases hx : c.source = x
  · have hy : c.source ≠ y := hx ▸ hxy
    have hz : c.source ≠ z := hx ▸ hxz
    simp [hy, hz]
  · by_cases hy : c.source = y
    · have hz : c.source ≠ z := hy ▸ hyz
      simp [hx, hz]
    · simp [hx, hy]

/-- What LEVEL_SET stores as a gain, the pool takes as it stands (R13). -/
theorem min_newLevel {v : Option Half} (h : v ≠ none) (old : Nat) : min (newLevel 4095 old v) 4095 = newLevel 4095 old v := by
  cases v with
  | none => exact absurd rfl h
  | some v => simp [newLevel, clampTop]

theorem posSource_inj {p q : PosId} {i j : Fin 3} (h : posSource p i = posSource q j) : p = q ∧ i = j := by
  simp only [posSource, Fin.mk.injEq] at h
  constructor <;> apply Fin.ext <;> omega

theorem posSource_ne (p : PosId) {i j : Fin 3} (h : i ≠ j) : posSource p i ≠ posSource p j :=
  fun e => h (posSource_inj e).2

/-- The side byte of a LEVEL_SET that names a side is stored as that side. -/
theorem optCode_sideOf {v : Option Byte} (h : ∀ b, v = some b → b = 0#8 ∨ b = 1#8) (old : Side) :
    ∃ side, optCode sideOf v = some side ∧ side.getD old = v.elim old fun b => if b = 0#8 then .l else .r := by
  cases v with
  | none => exact ⟨none, rfl, rfl⟩
  | some b => rcases h b rfl with rfl | rfl <;> exact ⟨_, rfl, rfl⟩

end

/-- Settles O23: LEVEL_SET stores `storeLevels`, and each present gain is applied to its source alone. -/
theorem levelSetTaken : Obligations.LevelSetTaken := by
  intro l p f s hm ho hside top r new
  obtain ⟨side, hs, hget⟩ := optCode_sideOf hside r.icmSide
  have htop (n old : Nat) (v : Option Half) : top n old v = newLevel n old v := by cases v <;> rfl
  have hnew : storeLevels f side r = new := by
    cases hv : f.icmSide <;> simp [storeLevels, new, hget, htop, hv]
  have hset : levelSet f p (s.begin (some l)) = (
      (s.begin (some l)).modPos p (fun _ => new)
        |> applyGain (posSource p 0) new.gainHA f.gainHA
        |> applyGain (posSource p 1) new.gainHB f.gainHB
        |> applyGain (posSource p 2) new.gainMIC f.gainMIC, ⟨.done, bLevels new⟩) := by
    unfold levelSet
    rw [hs, ← hnew]
    rfl
  refine ⟨_, congrArg Host.Outcome.next (positionRequest_owner hm _ (fun _ => ho) (by simp) _ _), ?_⟩
  rw [hset]
  generalize hA : applyGain (posSource p 0) new.gainHA f.gainHA ((s.begin (some l)).modPos p fun _ => new) = tA
  generalize hB : applyGain (posSource p 1) new.gainHB f.gainHB tA = tB
  generalize hC : applyGain (posSource p 2) new.gainMIC f.gainMIC tB = tC
  have hrest : tC = { (s.begin (some l)).modPos p (fun _ => new) with bridges := tC.bridges } := by
    rw [← hC, applyGain_rest, ← hB, applyGain_rest, ← hA, applyGain_rest]
  refine ⟨noNotice.respond (noNotice.of_links ?_) l _, answered_respond .., ?_, ?_, fun b => ?_⟩
  · rw [hrest]
    rfl
  · rw [hrest]
    rfl
  · rw [hrest]
    rfl
  · have hgain := applyGain_thrice (posSource_ne p (i := 0) (j := 1) (by decide))
      (posSource_ne p (i := 0) (j := 2) (by decide)) (posSource_ne p (i := 1) (j := 2) (by decide))
      new.gainHA new.gainHB new.gainMIC f.gainHA f.gainHB f.gainMIC ((s.begin (some l)).modPos p fun _ => new) b
    rw [hA, hB, hC] at hgain
    refine hgain.trans ?_
    have hclamp (old : Nat) (v : Option Half) (x : SourceId) (c : Contrib) (g : Nat) :
        (if c.source = x ∧ v ≠ none then min (top 4095 old v) 4095 else g) =
          if c.source = x ∧ v ≠ none then top 4095 old v else g := by
      split
      · rename_i h
        rw [htop, min_newLevel h.2]
      · rfl
    simp only [new, hclamp]
    rfl

end Sys2Proof.Machine

namespace Sys2Proof.Machine
open Sys2Proof

section

/-! # What each shared operation leaves as it is

One lemma for each field that an operation does not touch, and before them the field or two that it does. -/

theorem throttle_eq (s : State) : throttle s = { s with log := (throttle s).log, links := (throttle s).links } := by
  unfold throttle
  split <;> rfl

theorem submit_eq (r : Record) (s : State) :
    submit r s = { s with log := (submit r s).log, links := (submit r s).links } := by
  unfold submit
  split
  · exact throttle_eq _
  · split
    · rfl
    · split <;> rfl
  · rfl

theorem join_eq (b : BridgeId) (x : SourceId) (gain shift : Nat) (o : Origin) (s : State) :
    join b x gain shift o s = { s with bridges := (join b x gain shift o s).bridges } := by
  unfold join
  split <;> rfl

theorem unbind_eq (p : PosId) (e : Endpoint) (c : Cause) (s : State) :
    unbind p e c s = { s with positions := (unbind p e c s).positions, links := (unbind p e c s).links } := by
  unfold unbind
  dsimp only
  split
  · rfl
  · split <;> rfl

/-- What no step of a fold changes, the fold does not change. -/
theorem each_same {α β : Type} (F : State → β) {f : α → State → State} (h : ∀ x s, F (f x s) = F s) (xs : List α)
    (s : State) : F (s.each xs f) = F s :=
  each_rel (R := fun s t => F t = F s) (fun _ => rfl) (fun h g => g.trans h) h xs s

/-- CONFERENCE entries leave bridges, and nothing else changes (R26). -/
theorem endConferences_eq (L : LineId) (s : State) :
    endConferences L s = { s with bridges := (endConferences L s).bridges } := by
  have h : ({ endConferences L s with bridges := s.bridges } : State) = s :=
    each_same (fun t : State => ({ t with bridges := s.bridges } : State))
      (fun b t => by unfold leaveConference; split <;> rfl) (ids 96) s
  generalize endConferences L s = t at h ⊢
  rw [← h]

@[simp] theorem postPos_eq (p : PosId) (n : Notice) (s : State) : postPos p n s = post (posRoute s [p]) n s := rfl
@[simp] theorem postMany_eq (ps : List PosId) (n : Notice) (s : State) :
    postMany ps n s = post (posRoute s ps) n s := rfl
@[simp] theorem postLine_eq (L : LineId) (n : Notice) (s : State) : postLine L n s = post (lineRoute s L) n s := rfl

/-! ## Notices (R183) -/

section
variable (dest : LinkId → Bool) (n : Notice) (s : State)

@[simp] theorem post_positions : (post dest n s).positions = s.positions := rfl
@[simp] theorem post_bridges : (post dest n s).bridges = s.bridges := rfl
@[simp] theorem post_lines : (post dest n s).lines = s.lines := rfl
@[simp] theorem post_gens : (post dest n s).gens = s.gens := rfl
@[simp] theorem post_icm : (post dest n s).icm = s.icm := rfl
@[simp] theorem post_calls : (post dest n s).calls = s.calls := rfl
@[simp] theorem post_hoots : (post dest n s).hoots = s.hoots := rfl
@[simp] theorem post_channels : (post dest n s).channels = s.channels := rfl
@[simp] theorem post_released : (post dest n s).released = s.released := rfl
@[simp] theorem post_frame : (post dest n s).frame = s.frame := rfl
end

/-! ## The detail log (R168) -/

section
variable (r : Record) (s : State)

@[simp] theorem submit_positions : (submit r s).positions = s.positions := by rw [submit_eq]
@[simp] theorem submit_bridges : (submit r s).bridges = s.bridges := by rw [submit_eq]
@[simp] theorem submit_lines : (submit r s).lines = s.lines := by rw [submit_eq]
@[simp] theorem submit_gens : (submit r s).gens = s.gens := by rw [submit_eq]
@[simp] theorem submit_icm : (submit r s).icm = s.icm := by rw [submit_eq]
@[simp] theorem submit_calls : (submit r s).calls = s.calls := by rw [submit_eq]
@[simp] theorem hoots_submit : (submit r s).hoots = s.hoots := by rw [submit_eq]
@[simp] theorem submit_channels : (submit r s).channels = s.channels := by rw [submit_eq]
@[simp] theorem submit_released : (submit r s).released = s.released := by rw [submit_eq]
@[simp] theorem submit_frame : (submit r s).frame = s.frame := (submit_rest r s).1
end

/-! ## The bridge pool (R22, R23, R24) -/

section
variable (b : BridgeId) (x : SourceId) (s : State)

@[simp] theorem leave_positions : (leave b x s).positions = s.positions := rfl
@[simp] theorem leave_lines : (leave b x s).lines = s.lines := rfl
@[simp] theorem leave_gens : (leave b x s).gens = s.gens := rfl
@[simp] theorem leave_icm : (leave b x s).icm = s.icm := rfl
@[simp] theorem leave_calls : (leave b x s).calls = s.calls := rfl
@[simp] theorem leave_hoots : (leave b x s).hoots = s.hoots := rfl
@[simp] theorem leave_channels : (leave b x s).channels = s.channels := rfl
@[simp] theorem leave_log : (leave b x s).log = s.log := rfl
@[simp] theorem leave_links : (leave b x s).links = s.links := rfl
@[simp] theorem leave_released : (leave b x s).released = s.released := rfl
@[simp] theorem leave_frame : (leave b x s).frame = s.frame := rfl
end

/-! ## Joins -/

section
variable (b : BridgeId) (x : SourceId) (gain shift : Nat) (o : Origin) (s : State)

@[simp] theorem join_positions : (join b x gain shift o s).positions = s.positions := by rw [join_eq]
@[simp] theorem join_lines : (join b x gain shift o s).lines = s.lines := by rw [join_eq]
@[simp] theorem join_gens : (join b x gain shift o s).gens = s.gens := by rw [join_eq]
@[simp] theorem join_icm : (join b x gain shift o s).icm = s.icm := by rw [join_eq]
@[simp] theorem join_calls : (join b x gain shift o s).calls = s.calls := by rw [join_eq]
@[simp] theorem join_hoots : (join b x gain shift o s).hoots = s.hoots := by rw [join_eq]
@[simp] theorem join_channels : (join b x gain shift o s).channels = s.channels := by rw [join_eq]
@[simp] theorem join_log : (join b x gain shift o s).log = s.log := by rw [join_eq]
@[simp] theorem join_links : (join b x gain shift o s).links = s.links := by rw [join_eq]
@[simp] theorem join_released : (join b x gain shift o s).released = s.released := by rw [join_eq]
@[simp] theorem join_frame : (join b x gain shift o s).frame = s.frame := (kept_join b x gain shift o s).frame
end

/-! ## The source of an endpoint joins -/

section
variable (p : PosId) (e : Endpoint) (b : BridgeId) (n : Nat) (s : State)

@[simp] theorem joinEndpoint_positions : (joinEndpoint p e b n s).positions = s.positions := by
  cases e <;> simp [joinEndpoint, endpointSource]
@[simp] theorem joinEndpoint_lines : (joinEndpoint p e b n s).lines = s.lines := by
  cases e <;> simp [joinEndpoint, endpointSource]
@[simp] theorem joinEndpoint_gens : (joinEndpoint p e b n s).gens = s.gens := by
  cases e <;> simp [joinEndpoint, endpointSource]
@[simp] theorem joinEndpoint_icm : (joinEndpoint p e b n s).icm = s.icm := by
  cases e <;> simp [joinEndpoint, endpointSource]
@[simp] theorem joinEndpoint_calls : (joinEndpoint p e b n s).calls = s.calls := by
  cases e <;> simp [joinEndpoint, endpointSource]
@[simp] theorem hoots_joinEndpoint : (joinEndpoint p e b n s).hoots = s.hoots := by
  cases e <;> simp [joinEndpoint, endpointSource]
@[simp] theorem joinEndpoint_channels : (joinEndpoint p e b n s).channels = s.channels := by
  cases e <;> simp [joinEndpoint, endpointSource]
@[simp] theorem joinEndpoint_log : (joinEndpoint p e b n s).log = s.log := by
  cases e <;> simp [joinEndpoint, endpointSource]
@[simp] theorem joinEndpoint_links : (joinEndpoint p e b n s).links = s.links := by
  cases e <;> simp [joinEndpoint, endpointSource]
@[simp] theorem joinEndpoint_released : (joinEndpoint p e b n s).released = s.released := by
  cases e <;> simp [joinEndpoint, endpointSource]
@[simp] theorem joinEndpoint_frame : (joinEndpoint p e b n s).frame = s.frame := by
  cases e <;> simp [joinEndpoint, endpointSource]
end

/-! ## The source of an endpoint leaves -/

section
variable (p : PosId) (e : Endpoint) (b : BridgeId) (s : State)

@[simp] theorem leaveEndpoint_positions : (leaveEndpoint p e b s).positions = s.positions := by cases e <;> rfl
@[simp] theorem leaveEndpoint_lines : (leaveEndpoint p e b s).lines = s.lines := by cases e <;> rfl
@[simp] theorem leaveEndpoint_gens : (leaveEndpoint p e b s).gens = s.gens := by cases e <;> rfl
@[simp] theorem leaveEndpoint_icm : (leaveEndpoint p e b s).icm = s.icm := by cases e <;> rfl
@[simp] theorem leaveEndpoint_calls : (leaveEndpoint p e b s).calls = s.calls := by cases e <;> rfl
@[simp] theorem leaveEndpoint_hoots : (leaveEndpoint p e b s).hoots = s.hoots := by cases e <;> rfl
@[simp] theorem leaveEndpoint_channels : (leaveEndpoint p e b s).channels = s.channels := by cases e <;> rfl
@[simp] theorem leaveEndpoint_log : (leaveEndpoint p e b s).log = s.log := by cases e <;> rfl
@[simp] theorem leaveEndpoint_links : (leaveEndpoint p e b s).links = s.links := by cases e <;> rfl
@[simp] theorem leaveEndpoint_released : (leaveEndpoint p e b s).released = s.released := by cases e <;> rfl
@[simp] theorem leaveEndpoint_frame : (leaveEndpoint p e b s).frame = s.frame := by cases e <;> rfl
end

/-! ## Channels (R156, R161) -/

section
variable (p : PosId) (e : Endpoint) (s : State)

@[simp] theorem releaseChan_positions : (releaseChan p e s).positions = s.positions := by
  unfold releaseChan; split <;> rfl
@[simp] theorem releaseChan_bridges : (releaseChan p e s).bridges = s.bridges := by unfold releaseChan; split <;> rfl
@[simp] theorem releaseChan_lines : (releaseChan p e s).lines = s.lines := by unfold releaseChan; split <;> rfl
@[simp] theorem releaseChan_gens : (releaseChan p e s).gens = s.gens := by unfold releaseChan; split <;> rfl
@[simp] theorem releaseChan_icm : (releaseChan p e s).icm = s.icm := by unfold releaseChan; split <;> rfl
@[simp] theorem releaseChan_calls : (releaseChan p e s).calls = s.calls := by unfold releaseChan; split <;> rfl
@[simp] theorem releaseChan_hoots : (releaseChan p e s).hoots = s.hoots := by unfold releaseChan; split <;> rfl
@[simp] theorem releaseChan_log : (releaseChan p e s).log = s.log := by unfold releaseChan; split <;> rfl
@[simp] theorem releaseChan_links : (releaseChan p e s).links = s.links := by unfold releaseChan; split <;> rfl
@[simp] theorem releaseChan_frame : (releaseChan p e s).frame = s.frame := by unfold releaseChan; split <;> rfl
end

/-! ## Channels assigned -/

section
variable (p : PosId) (e : Endpoint) (k : Option KeyId) (b : BridgeId) (L : Option LineId) (h : Option BridgeId) (s : State)

@[simp] theorem assign_positions : (assign p e k b L h s).positions = s.positions := by unfold assign; split <;> simp
@[simp] theorem assign_bridges : (assign p e k b L h s).bridges = s.bridges := by unfold assign; split <;> simp
@[simp] theorem assign_lines : (assign p e k b L h s).lines = s.lines := by unfold assign; split <;> simp
@[simp] theorem assign_gens : (assign p e k b L h s).gens = s.gens := by unfold assign; split <;> simp
@[simp] theorem assign_icm : (assign p e k b L h s).icm = s.icm := by unfold assign; split <;> simp
@[simp] theorem assign_calls : (assign p e k b L h s).calls = s.calls := by unfold assign; split <;> simp
@[simp] theorem hoots_assign : (assign p e k b L h s).hoots = s.hoots := by unfold assign; split <;> simp
@[simp] theorem assign_released : (assign p e k b L h s).released = s.released := by unfold assign; split <;> simp
@[simp] theorem assign_frame : (assign p e k b L h s).frame = s.frame := (kept_assign p e k b L h s).frame
end

/-! ## Unbind asks (R8) -/

section
variable (p : PosId) (e : Endpoint) (c : Cause) (s : State)

@[simp] theorem unbind_bridges : (unbind p e c s).bridges = s.bridges := by rw [unbind_eq]
@[simp] theorem unbind_lines : (unbind p e c s).lines = s.lines := by rw [unbind_eq]
@[simp] theorem unbind_gens : (unbind p e c s).gens = s.gens := by rw [unbind_eq]
@[simp] theorem unbind_icm : (unbind p e c s).icm = s.icm := by rw [unbind_eq]
@[simp] theorem unbind_calls : (unbind p e c s).calls = s.calls := by rw [unbind_eq]
@[simp] theorem unbind_hoots : (unbind p e c s).hoots = s.hoots := by rw [unbind_eq]
@[simp] theorem unbind_channels : (unbind p e c s).channels = s.channels := by rw [unbind_eq]
@[simp] theorem unbind_log : (unbind p e c s).log = s.log := by rw [unbind_eq]
@[simp] theorem unbind_released : (unbind p e c s).released = s.released := by rw [unbind_eq]
@[simp] theorem unbind_frame : (unbind p e c s).frame = s.frame := (kept_unbind p e c s).frame
end

/-! ## Conferences (R26) -/

section
variable (L : LineId) (s : State)

@[simp] theorem endConferences_positions : (endConferences L s).positions = s.positions := by rw [endConferences_eq]
@[simp] theorem endConferences_lines : (endConferences L s).lines = s.lines := by rw [endConferences_eq]
@[simp] theorem endConferences_gens : (endConferences L s).gens = s.gens := by rw [endConferences_eq]
@[simp] theorem endConferences_icm : (endConferences L s).icm = s.icm := by rw [endConferences_eq]
@[simp] theorem endConferences_calls : (endConferences L s).calls = s.calls := by rw [endConferences_eq]
@[simp] theorem endConferences_hoots : (endConferences L s).hoots = s.hoots := by rw [endConferences_eq]
@[simp] theorem endConferences_channels : (endConferences L s).channels = s.channels := by rw [endConferences_eq]
@[simp] theorem endConferences_log : (endConferences L s).log = s.log := by rw [endConferences_eq]
@[simp] theorem endConferences_links : (endConferences L s).links = s.links := by rw [endConferences_eq]
@[simp] theorem endConferences_released : (endConferences L s).released = s.released := by rw [endConferences_eq]
@[simp] theorem endConferences_frame : (endConferences L s).frame = s.frame := (kept_endConferences L s).frame
end

end

end Sys2Proof.Machine

namespace Sys2Proof.Machine
open Sys2Proof

section

/-! # Bindings (R2, R8)

What an endpoint is bound to after each way of changing a position record. -/

@[simp] theorem bind_eq (p : PosId) (e : Endpoint) (v : Binding) (s : State) :
    bind p e v s = s.modPos p fun r => r.setBinding e v := rfl
@[simp] theorem setFeed_eq (p : PosId) (c : Option BridgeId) (s : State) :
    setFeed p c s = s.modPos p fun r => { r with feed := c } := rfl

theorem Position.binding_setBinding (r : Position) (e f : Endpoint) (v : Binding) :
    (r.setBinding e v).binding f = if f = e then v else r.binding f := by
  cases e <;> cases f <;> simp [Position.setBinding, Position.binding]
  case key.key k j =>
    by_cases h : j = k <;> simp [h]

@[simp] theorem Position.feed_setBinding (r : Position) (e : Endpoint) (v : Binding) :
    (r.setBinding e v).feed = r.feed := by cases e <;> rfl

/-- The binding asked for, and a MIC that talks on that key, are NONE after an unbind ask; the others stand (R8). -/
theorem Position.binding_clear (r : Position) (e f : Endpoint) :
    (r.clear e).binding f =
      if f = e ∨ (f = .mic ∧ ∃ k, e = .key k ∧ r.mic = .talk k) then .none else r.binding f := by
  have hmic (k : KeyId) : (r.setBinding (.key k) .none).mic = r.mic := rfl
  cases e with
  | key k =>
    by_cases hm : r.mic = .talk k
    · have e : r.clear (.key k) = { r.setBinding (.key k) .none with mic := .none } := by
        simp [Position.clear, hmic, hm]
      have hf := r.binding_setBinding (.key k) f .none
      cases f <;> simp_all [Position.binding]
    · have e : r.clear (.key k) = r.setBinding (.key k) .none := by simp [Position.clear, hmic, hm]
      rw [e, Position.binding_setBinding]
      simp [hm]
  | ha => simpa [Position.clear] using r.binding_setBinding .ha f .none
  | hb => simpa [Position.clear] using r.binding_setBinding .hb f .none
  | mic => simpa [Position.clear] using r.binding_setBinding .mic f .none

@[simp] theorem Position.feed_clear (r : Position) (e : Endpoint) : (r.clear e).feed = r.feed := by
  cases e with
  | key k =>
    simp only [Position.clear]
    split <;> rfl
  | ha => rfl
  | hb => rfl
  | mic => rfl

theorem bind_binding (p q : PosId) (e f : Endpoint) (v : Binding) (s : State) :
    (bind p e v s).binding q f = if q = p ∧ f = e then v else s.binding q f := by
  by_cases h : q = p
  · subst h
    simp [State.binding, Position.binding_setBinding]
  · simp [State.binding, h]

theorem unbind_get (p q : PosId) (e : Endpoint) (c : Cause) (s : State) :
    (unbind p e c s).positions.get q =
      if q = p ∧ s.binding p e ≠ .none then (s.positions.get p).clear e else s.positions.get q := by
  unfold unbind
  dsimp only
  by_cases h : s.binding p e = .none
  · simp [h]
  · have : (if c = .none then s.modPos p (Position.clear e) else
        postPos p (.bindingLost p e (s.binding p e) c) (s.modPos p (Position.clear e))).positions =
          s.positions.modify p (Position.clear e) := by split <;> rfl
    rw [if_neg h, this, Tab.get_modify]
    simp [h]

theorem unbind_binding (p q : PosId) (e f : Endpoint) (c : Cause) (s : State) :
    (unbind p e c s).binding q f =
      if q = p ∧ (f = e ∨ (f = .mic ∧ s.binding p e ≠ .none ∧ ∃ k, e = .key k ∧ (s.positions.get p).mic = .talk k))
      then .none else s.binding q f := by
  rw [State.binding, unbind_get]
  by_cases hq : q = p
  · subst hq
    by_cases hb : s.binding q e = .none
    · simp only [hb, ne_eq, not_true, and_false, if_false, false_and, or_false, true_and]
      split
      · rename_i hf
        exact hf ▸ hb
      · rfl
    · simp only [hb, ne_eq, not_false_eq_true, and_self, if_true, true_and, Position.binding_clear]
      rfl
  · simp [hq, State.binding]

@[simp] theorem unbind_feed (p q : PosId) (e : Endpoint) (c : Cause) (s : State) :
    ((unbind p e c s).positions.get q).feed = (s.positions.get q).feed := by
  rw [unbind_get]
  split
  · rename_i h
    rw [Position.feed_clear, h.1]
  · rfl

/-- The endpoint of an unbind ask is NONE after it. -/
theorem unbind_self (p : PosId) (e : Endpoint) (c : Cause) (s : State) : (unbind p e c s).binding p e = .none := by
  simp [unbind_binding]

/-- An unbind ask ends bindings and makes none. -/
theorem unbind_fades (p q : PosId) (e f : Endpoint) (c : Cause) (s : State) :
    (unbind p e c s).binding q f = s.binding q f ∨ (unbind p e c s).binding q f = .none := by
  rw [unbind_binding]
  split
  · exact .inr rfl
  · exact .inl rfl

end

end Sys2Proof.Machine

namespace Sys2Proof.Machine
open Sys2Proof

section

/-! # What talk on one hoot leaves as it is (R127, R130, R131, R136) -/

/-- A position has a grant or a queue entry on a hoot. -/
def State.talksAt (s : State) (b : BridgeId) (p : PosId) : Prop := ∃ h, s.hoots.get b = some h ∧ p ∈ h.talkers

/-- What an operation on the talk of hoot `b` leaves: everything but channels, the log, the links, that hoot, its
bridge and MIC uses. A MIC gets a talk only when its position stood on the hoot; the hoot keeps its legs and gains no
talker. -/
structure TalkFrame (b : BridgeId) (s t : State) : Prop where
  lines : t.lines = s.lines
  gens : t.gens = s.gens
  icm : t.icm = s.icm
  calls : t.calls = s.calls
  bridges : ∀ d, d ≠ b → t.bridges.get d = s.bridges.get d
  hoots : ∀ d, d ≠ b → t.hoots.get d = s.hoots.get d
  positions : ∀ q, { t.positions.get q with mic := (s.positions.get q).mic } = s.positions.get q
  mic : ∀ q, (t.positions.get q).mic = (s.positions.get q).mic ∨ (t.positions.get q).mic = .none ∨
    s.talksAt b q ∧ ∃ k, (t.positions.get q).mic = .talk k
  legs : (t.hoots.get b).map Hoot.legs = (s.hoots.get b).map Hoot.legs
  talkers : ∀ q, t.talksAt b q → s.talksAt b q

theorem TalkFrame.refl (b : BridgeId) (s : State) : TalkFrame b s s :=
  ⟨rfl, rfl, rfl, rfl, fun _ _ => rfl, fun _ _ => rfl, fun _ => rfl, fun _ => .inl rfl, rfl, fun _ => id⟩

theorem TalkFrame.trans {b : BridgeId} {s t u : State} (h : TalkFrame b s t) (g : TalkFrame b t u) :
    TalkFrame b s u where
  lines := g.lines.trans h.lines
  gens := g.gens.trans h.gens
  icm := g.icm.trans h.icm
  calls := g.calls.trans h.calls
  bridges d hd := (g.bridges d hd).trans (h.bridges d hd)
  hoots d hd := (g.hoots d hd).trans (h.hoots d hd)
  positions q := by
    have e := congrArg (fun r : Position => { r with mic := (s.positions.get q).mic }) (g.positions q)
    exact e.trans (h.positions q)
  mic q := by
    rcases g.mic q with e | e | ⟨ht, hk⟩
    · rw [e]
      exact h.mic q
    · exact .inr (.inl e)
    · exact .inr (.inr ⟨h.talkers q ht, hk⟩)
  legs := g.legs.trans h.legs
  talkers q ht := h.talkers q (g.talkers q ht)

theorem TalkFrame.each {α : Type} {b : BridgeId} {f : α → State → State} (h : ∀ x s, TalkFrame b s (f x s))
    (xs : List α) (s : State) : TalkFrame b s (s.each xs f) := each_rel (TalkFrame.refl b) TalkFrame.trans h xs s

theorem TalkFrame.ite {b : BridgeId} {c : Prop} [Decidable c] {s t u : State} (h : TalkFrame b s t)
    (k : TalkFrame b s u) : TalkFrame b s (if c then t else u) := by split <;> assumption

/-- A change of channels, the log and the links alone. -/
theorem TalkFrame.of_eq {b : BridgeId} {s t : State} (hp : t.positions = s.positions) (hb : t.bridges = s.bridges)
    (hl : t.lines = s.lines) (hg : t.gens = s.gens) (hi : t.icm = s.icm) (hc : t.calls = s.calls)
    (hh : t.hoots = s.hoots) : TalkFrame b s t := by
  refine ⟨hl, hg, hi, hc, fun d _ => by rw [hb], fun d _ => by rw [hh], fun q => by rw [hp],
    fun q => .inl (by rw [hp]), by rw [hh], fun q ht => ?_⟩
  simpa [State.talksAt, hh] using ht

theorem talkFrame_post (b : BridgeId) (dest : LinkId → Bool) (n : Notice) (s : State) : TalkFrame b s (post dest n s) :=
  TalkFrame.of_eq rfl rfl rfl rfl rfl rfl rfl

theorem talkFrame_submit (b : BridgeId) (r : Record) (s : State) : TalkFrame b s (submit r s) :=
  TalkFrame.of_eq (by simp) (by simp) (by simp) (by simp) (by simp) (by simp) (by simp)

theorem talkFrame_assign (b : BridgeId) (p : PosId) (e : Endpoint) (k : Option KeyId) (c : BridgeId)
    (L : Option LineId) (h : Option BridgeId) (s : State) : TalkFrame b s (assign p e k c L h s) :=
  TalkFrame.of_eq (by simp) (by simp) (by simp) (by simp) (by simp) (by simp) (by simp)

theorem talkFrame_releaseChan (b : BridgeId) (p : PosId) (e : Endpoint) (s : State) :
    TalkFrame b s (releaseChan p e s) :=
  TalkFrame.of_eq (by simp) (by simp) (by simp) (by simp) (by simp) (by simp) (by simp)

/-- A change of the hoot's own bridge. -/
theorem TalkFrame.of_bridge {b : BridgeId} {s t : State} (h : ∀ d, d ≠ b → t.bridges.get d = s.bridges.get d)
    (hp : t.positions = s.positions) (hl : t.lines = s.lines) (hg : t.gens = s.gens) (hi : t.icm = s.icm)
    (hc : t.calls = s.calls) (hh : t.hoots = s.hoots) : TalkFrame b s t :=
  { TalkFrame.of_eq (b := b) (t := { t with bridges := s.bridges }) hp rfl hl hg hi hc hh with bridges := h }

theorem talkFrame_modBridge (b : BridgeId) (f : Bridge → Bridge) (s : State) : TalkFrame b s (s.modBridge b f) :=
  TalkFrame.of_bridge (fun d hd => by simp [hd]) rfl rfl rfl rfl rfl rfl

theorem talkFrame_leave (b : BridgeId) (x : SourceId) (s : State) : TalkFrame b s (leave b x s) :=
  talkFrame_modBridge b _ s

theorem talkFrame_setShift (b : BridgeId) (sel : SourceId → Bool) (n : Nat) (s : State) :
    TalkFrame b s (setShift b sel n s) := talkFrame_modBridge b _ s

theorem talkFrame_join (b : BridgeId) (x : SourceId) (gain shift : Nat) (o : Origin) (s : State) :
    TalkFrame b s (join b x gain shift o s) := by
  unfold join
  split
  · exact TalkFrame.refl b s
  · exact talkFrame_modBridge b _ s

theorem talkFrame_joinEndpoint (p : PosId) (e : Endpoint) (b : BridgeId) (n : Nat) (s : State) :
    TalkFrame b s (joinEndpoint p e b n s) := by
  unfold joinEndpoint
  split
  · exact talkFrame_join ..
  · exact TalkFrame.refl b s

/-- A MIC use stored: NONE, or a talk of a position that stood on the hoot. -/
theorem TalkFrame.setMic {b : BridgeId} {s t : State} (h : TalkFrame b s t) (p : PosId) {v : Binding}
    (hv : v = .none ∨ s.talksAt b p ∧ ∃ k, v = .talk k) : TalkFrame b s (t.modPos p fun r => { r with mic := v }) :=
  { h with
    positions := fun q => by
      rw [modPos_positions, Tab.get_modify]
      split
      · subst q
        exact h.positions p
      · exact h.positions q
    mic := fun q => by
      rw [modPos_positions, Tab.get_modify]
      split
      · subst q
        exact .inr hv
      · exact h.mic q }

theorem talkFrame_unbindMic (b : BridgeId) (p : PosId) (c : Cause) (s : State) :
    TalkFrame b s (unbind p .mic c s) := by
  have h := (TalkFrame.refl b s).setMic p (v := .none) (.inl rfl)
  unfold unbind
  dsimp only
  split
  · exact TalkFrame.refl b s
  · split
    · exact h
    · exact h.trans (talkFrame_post b _ _ _)

/-- The hoot's record replaced by one with its legs, whose talkers stood on it before. -/
theorem TalkFrame.setHoot {b : BridgeId} {s t : State} (h : TalkFrame b s t) {g g' : Hoot}
    (hg : t.hoots.get b = some g) (hl : g'.legs = g.legs) (ht : ∀ q ∈ g'.talkers, s.talksAt b q) :
    TalkFrame b s (t.setHoot b (some g')) :=
  { h with
    hoots := fun d hd => by simpa [hd] using h.hoots d hd
    legs := by simpa [hg, hl] using h.legs
    talkers := by
      rintro q ⟨x, hx, hq⟩
      rw [setHoot_hoots, Tab.get_set_self] at hx
      cases hx
      exact ht q hq }

/-- A record that a hoot does not have is not changed; one that it has is replaced. -/
theorem modHoot_eq_setHoot {s : State} {b : BridgeId} {h : Hoot} (hh : s.hoots.get b = some h) (f : Hoot → Hoot) :
    s.modHoot b f = s.setHoot b (some (f h)) := by simp [State.modHoot, State.setHoot, Tab.modify, hh]

theorem talkFrame_modHoot (b : BridgeId) (f : Hoot → Hoot) (s : State) (hl : ∀ h, (f h).legs = h.legs)
    (ht : ∀ h, ∀ q ∈ (f h).talkers, q ∈ h.talkers) : TalkFrame b s (s.modHoot b f) := by
  cases hh : s.hoots.get b with
  | none =>
    have e : (s.modHoot b f).hoots = s.hoots := by
      apply Tab.ext_get
      intro d
      rw [modHoot_hoots, Tab.get_modify]
      split
      · subst d
        simp [hh]
      · rfl
    exact TalkFrame.of_eq rfl rfl rfl rfl rfl rfl e
  | some h =>
    rw [modHoot_eq_setHoot hh]
    exact (TalkFrame.refl b s).setHoot hh (hl h) fun q hq => ⟨h, hh, ht h q hq⟩

/-! ## The clash evaluation (R135, R136) -/

theorem talkFrame_startClash (b : BridgeId) (h : Hoot) (s : State) : TalkFrame b s (startClash b h s) := by
  unfold startClash
  refine TalkFrame.trans ?_ (talkFrame_submit b _ _)
  refine TalkFrame.trans ?_ (talkFrame_post b _ _ _)
  refine TalkFrame.trans ?_ (talkFrame_setShift b _ _ _)
  exact talkFrame_modHoot b _ s (fun _ => rfl) fun _ _ hq => hq

theorem talkFrame_endClash (b : BridgeId) (h : Hoot) (s : State) : TalkFrame b s (endClash b h s) := by
  unfold endClash
  refine TalkFrame.trans ?_ (talkFrame_submit b _ _)
  refine TalkFrame.trans ?_ (talkFrame_post b _ _ _)
  refine TalkFrame.trans ?_ (talkFrame_setShift b _ _ _)
  exact talkFrame_modHoot b _ s (fun _ => rfl) fun _ _ hq => hq

theorem talkFrame_evalClash (b : BridgeId) (s : State) : TalkFrame b s (evalClash b s) := by
  unfold evalClash
  split
  · exact ((TalkFrame.refl b s).ite (talkFrame_startClash b _ s)).ite
      ((talkFrame_endClash b _ s).ite (TalkFrame.refl b s))
  · exact TalkFrame.refl b s

/-! ## Grants and their end (R127, R130, R131) -/

/-- A grant to a position that stood on the hoot when its own request or event began. -/
theorem TalkFrame.grantTalk {b : BridgeId} {s t : State} (h : TalkFrame b s t) {p : PosId} (hp : s.talksAt b p)
    (k : KeyId) : TalkFrame b s (grantTalk b p k t) := by
  unfold Machine.grantTalk
  split
  · rename_i g hg
    dsimp only
    refine TalkFrame.trans ?_ (talkFrame_post b _ _ _)
    refine TalkFrame.trans ?_ (talkFrame_submit b _ _)
    have hset : TalkFrame b s ((joinEndpoint p .mic b g.joinShift (bind p .mic (.talk k) t)).setHoot b
        (some { g with granted := g.granted ++ [⟨p, k, talkTimer t g p⟩] })) := by
      refine ((h.setMic p (.inr ⟨hp, k, rfl⟩)).trans (talkFrame_joinEndpoint p .mic b g.joinShift _)).setHoot
        (g := g) (by simpa using hg) rfl fun q hq => ?_
      by_cases hqp : q = p
      · exact hqp ▸ hp
      · refine h.talkers q ⟨g, hg, ?_⟩
        simpa [Hoot.talkers, hqp] using hq
    unfold recordGrant
    split
    · exact hset.trans (talkFrame_assign b _ _ _ _ _ _ _)
    · exact hset
  · exact h

theorem talkFrame_promoteHead (b : BridgeId) (s : State) : TalkFrame b s (promoteHead b s) := by
  unfold promoteHead
  split
  · rename_i h hh
    split
    · rename_i x rest hq
      split
      · dsimp only
        have hx : s.talksAt b x.1 := ⟨h, hh, by simp [Hoot.talkers, hq]⟩
        have hpop : TalkFrame b s (s.modHoot b fun g => { g with queue := rest }) := by
          rw [modHoot_eq_setHoot hh]
          refine (TalkFrame.refl b s).setHoot hh rfl fun q hm => ⟨h, hh, ?_⟩
          simp only [Hoot.talkers, hq, List.map_cons, List.mem_append, List.mem_cons] at hm ⊢
          exact hm.imp_right .inr
        split
        · exact hpop.trans (talkFrame_post b _ _ _)
        · split
          · exact hpop.grantTalk hx x.2
          · exact hpop.trans (talkFrame_post b _ _ _)
      · exact TalkFrame.refl b s
    · exact TalkFrame.refl b s
  · exact TalkFrame.refl b s

theorem talkFrame_promote (b : BridgeId) (s : State) : TalkFrame b s (promote b s) := by
  unfold promote
  split
  · exact TalkFrame.each (fun _ t => talkFrame_promoteHead b t) _ s
  · exact TalkFrame.refl b s

/-- A grant that ends takes its position off the hoot before the next is promoted (R130). -/
theorem stopGrant_frame (b : BridgeId) (p : PosId) (cause : Cause) (s : State) :
    TalkFrame b s (stopGrant b p cause s) ∧ (HootsOk s → (∀ h, s.hoots.get b = some h → (h.talker p).isSome) →
      ¬ (stopGrant b p cause s).talksAt b p) := by
  unfold stopGrant
  split
  · rename_i h hh
    split
    · rename_i x hx
      dsimp only
      generalize hu : State.setHoot s b (some { h with granted := h.granted.filter fun y => y.pos ≠ p }) = u
      have hfew : TalkFrame b s u := by
        rw [← hu]
        refine (TalkFrame.refl b s).setHoot hh rfl fun q hq => ⟨h, hh, ?_⟩
        simp only [Hoot.talkers, List.mem_append, List.mem_map, List.mem_filter] at hq ⊢
        rcases hq with ⟨y, ⟨hy, _⟩, rfl⟩ | hq
        · exact .inl ⟨y, hy, rfl⟩
        · exact .inr hq
      have htail : TalkFrame b u (u
          |> leave b (micSource p)
          |> unbind p .mic (grantUnbindCause cause)
          |> releaseChan p .mic
          |> submit { kind := .talkEnd, hoot := some b, pos := some p, endpoint := some .mic, key := some x.key,
                      channel := channelAt s p .mic, cause := some cause,
                      parties := some (Hoot.parties { h with granted := h.granted.filter fun y => y.pos ≠ p }) }
          |> postPos p (.talkState (some b) x.key .none h.clashing cause)
          |> promote b) := by
        refine TalkFrame.trans ?_ (talkFrame_promote b _)
        refine TalkFrame.trans ?_ (talkFrame_post b _ _ _)
        refine TalkFrame.trans ?_ (talkFrame_submit b _ _)
        refine TalkFrame.trans ?_ (talkFrame_releaseChan b _ _ _)
        refine TalkFrame.trans ?_ (talkFrame_unbindMic b _ _ _)
        exact talkFrame_leave b _ _
      refine ⟨hfew.trans htail, fun hk _ ht => ?_⟩
      obtain ⟨g, hg, hp⟩ := htail.talkers p ht
      rw [← hu, setHoot_hoots, Tab.get_set_self] at hg
      cases hg
      have hin : p ∈ h.granted.map (·.pos) := by
        have hpos := List.find?_some hx
        exact List.mem_map.mpr ⟨x, List.mem_of_find?_eq_some hx, by simpa using hpos⟩
      have hnot : p ∉ h.queue.map (·.1) := fun hq =>
        (List.nodup_append.mp (hk b h hh).noneTwice).2.2 p hin p hq rfl
      simp only [Hoot.talkers, List.mem_append, List.mem_map, List.mem_filter] at hp
      rcases hp with ⟨y, ⟨_, hy⟩, hyp⟩ | hp
      · simp [hyp] at hy
      · exact hnot (List.mem_map.mpr hp)
    · rename_i hx
      exact ⟨TalkFrame.refl b s, fun _ hs => by simpa [hx] using hs h hh⟩
  · rename_i hh
    exact ⟨TalkFrame.refl b s, fun _ _ ⟨g, hg, _⟩ => by simp [hh] at hg⟩

theorem talkFrame_endGrant (b : BridgeId) (p : PosId) (cause : Cause) (s : State) :
    TalkFrame b s (endGrant b p cause s) := by
  unfold endGrant
  split
  · exact ((stopGrant_frame b p cause s).1.trans (talkFrame_evalClash b _)).ite (TalkFrame.refl b s)
  · exact TalkFrame.refl b s

/-- A queue entry that is removed takes its position off the hoot, unless it is granted there (R133). -/
theorem endQueued_frame (b : BridgeId) (p : PosId) (cause : Cause) (s : State) :
    TalkFrame b s (endQueued b p cause s) ∧ (HootsOk s → (∀ h, s.hoots.get b = some h → h.talker p = none) →
      ¬ (endQueued b p cause s).talksAt b p) := by
  unfold endQueued
  split
  · rename_i h hh
    have hgranted (hs : ∀ g, s.hoots.get b = some g → g.talker p = none) : p ∉ h.granted.map (·.pos) := by
      simpa [Hoot.talker, List.find?_eq_none] using hs h hh
    split
    · rename_i x hx
      have hfew : TalkFrame b s (s.modHoot b fun g => { g with queue := g.queue.filter (· ≠ x) }) := by
        refine talkFrame_modHoot b _ s (fun _ => rfl) fun g q hq => ?_
        simp only [Hoot.talkers, List.mem_append, List.mem_map, List.mem_filter] at hq ⊢
        exact hq.imp_right fun ⟨y, ⟨hy, _⟩, e⟩ => ⟨y, hy, e⟩
      refine ⟨hfew.trans (talkFrame_post b _ _ _), fun hk hs ht => ?_⟩
      obtain ⟨g, hg, hp⟩ := ht
      have e : (s.modHoot b fun g => { g with queue := g.queue.filter (· ≠ x) }).hoots.get b = some g := hg
      rw [modHoot_eq_setHoot hh, setHoot_hoots, Tab.get_set_self] at e
      cases e
      have hxq : x ∈ h.queue := List.mem_of_find?_eq_some hx
      have hxp : x.1 = p := by simpa using List.find?_some hx
      have hnodup : (h.queue.map (·.1)).Nodup := (List.nodup_append.mp (hk b h hh).noneTwice).2.1
      simp only [Hoot.talkers, List.mem_append, List.mem_map, List.mem_filter] at hp
      rcases hp with hp | ⟨y, ⟨hy, hyx⟩, hyp⟩
      · exact hgranted hs (List.mem_map.mpr hp)
      · have : y = x := List.inj_on_of_nodup_map hnodup hy hxq (hyp.trans hxp.symm)
        simp [this] at hyx
    · rename_i hx
      refine ⟨TalkFrame.refl b s, fun _ hs ⟨g, hg, hp⟩ => ?_⟩
      rw [hh] at hg
      cases hg
      rcases List.mem_append.mp hp with hp | hp
      · exact hgranted hs hp
      · obtain ⟨y, hy, hyp⟩ := List.mem_map.mp hp
        have := List.find?_eq_none.mp hx y hy
        simp [hyp] at this
  · rename_i hh
    exact ⟨TalkFrame.refl b s, fun _ _ ⟨g, hg, _⟩ => by simp [hh] at hg⟩

/-- The talk of a position on a hoot, once ended, leaves it off the hoot (R138). -/
theorem endTalkOn_frame (b : BridgeId) (p : PosId) (cause : Cause) (s : State) :
    TalkFrame b s (endTalkOn b p cause s) ∧ (HootsOk s → ¬ (endTalkOn b p cause s).talksAt b p) := by
  unfold endTalkOn
  split
  · rename_i h hh
    split
    · rename_i ht
      refine ⟨talkFrame_endGrant b p cause s, fun hk hp => ?_⟩
      have hend : endGrant b p cause s = evalClash b (stopGrant b p cause s) := by simp [endGrant, hh, ht]
      rw [hend] at hp
      exact (stopGrant_frame b p cause s).2 hk (fun g hg => by cases hh.symm.trans hg; exact ht)
        ((talkFrame_evalClash b _).talkers p hp)
    · rename_i ht
      have hq := endQueued_frame b p cause s
      refine ⟨hq.1, fun hk => hq.2 hk fun g hg => ?_⟩
      cases hh.symm.trans hg
      simpa using ht
  · rename_i hh
    exact ⟨TalkFrame.refl b s, fun _ ⟨g, hg, _⟩ => by simp [hh] at hg⟩

theorem stopTalkOn_frame (b : BridgeId) (p : PosId) (cause : Cause) (s : State) :
    TalkFrame b s (stopTalkOn b p cause s) ∧ (HootsOk s → ¬ (stopTalkOn b p cause s).talksAt b p) := by
  unfold stopTalkOn
  split
  · rename_i h hh
    split
    · rename_i ht
      have hg := stopGrant_frame b p cause s
      exact ⟨hg.1, fun hk => hg.2 hk fun g hg => by cases hh.symm.trans hg; exact ht⟩
    · rename_i ht
      have hq := endQueued_frame b p cause s
      refine ⟨hq.1, fun hk => hq.2 hk fun g hg => ?_⟩
      cases hh.symm.trans hg
      simpa using ht
  · rename_i hh
    exact ⟨TalkFrame.refl b s, fun _ ⟨g, hg, _⟩ => by simp [hh] at hg⟩

theorem endTalk_frame (w : ClashEval) (b : BridgeId) (p : PosId) (cause : Cause) (s : State) :
    TalkFrame b s (w.endTalk b p cause s) ∧ (HootsOk s → ¬ (w.endTalk b p cause s).talksAt b p) := by
  cases w with
  | atOnce => exact endTalkOn_frame b p cause s
  | atEnd => exact stopTalkOn_frame b p cause s

/-- Where a position does not stand on a hoot, there is no talk to end. -/
theorem endTalk_of_not_talksAt {b : BridgeId} {p : PosId} {s : State} (h : ¬ s.talksAt b p) (w : ClashEval)
    (cause : Cause) : w.endTalk b p cause s = s := by
  cases hh : s.hoots.get b with
  | none => cases w <;> simp [ClashEval.endTalk, endTalkOn, stopTalkOn, hh]
  | some g =>
    have hp : p ∉ g.talkers := fun hp => h ⟨g, hh, hp⟩
    simp only [Hoot.talkers, List.mem_append, not_or, List.mem_map, not_exists, not_and] at hp
    have ht : g.talker p = none := List.find?_eq_none.mpr fun y hy => by simpa using hp.1 y hy
    have hq : g.queued p = none := List.find?_eq_none.mpr fun y hy => by simpa using hp.2 y hy
    cases w <;> simp [ClashEval.endTalk, endTalkOn, stopTalkOn, endQueued, hh, ht, hq]

end

end Sys2Proof.Machine

namespace Sys2Proof.Machine
open Sys2Proof

section

/-! # Whole states -/

/-- Two states are equal when their untouched fields are, and each field that the call blocks change. -/
theorem state_eq {s t : State} (hf : t.frame = s.frame) (hp : t.positions = s.positions) (hb : t.bridges = s.bridges)
    (hl : t.lines = s.lines) (hg : t.gens = s.gens) (hi : t.icm = s.icm) (hc : t.calls = s.calls)
    (hh : t.hoots = s.hoots) (hch : t.channels = s.channels) (hlog : t.log = s.log) (hk : t.links = s.links)
    (hr : t.released = s.released) : t = s := by
  cases s
  cases t
  simp only [State.frame, Frame.mk.injEq] at hf
  simp_all

/-- The untouched fields are those of the state in which the step began, but for its origin. -/
theorem frame_of_begin {s t : State} {o : Option LinkId} (hf : t.frame = (s.begin o).frame) :
    State.frame { t with origin := s.origin } = s.frame := by
  have e : State.frame { t with origin := s.origin } = { t.frame with origin := s.origin } := rfl
  rw [e, hf]
  rfl

/-! # KEY_SET (R10) -/

/-- The binding that a KEY_SET asks for (R10). -/
def KeyArg.newBinding (old : Binding) : KeyArg → Binding
  | .keep => old
  | .none => .none
  | .hoot b => .listen b

/-- The state in which KEY_SET stores the key: what the old binding had of talk is ended, where the binding changes. -/
def keyReady (p : PosId) (k : KeyId) (arg : KeyArg) (s : State) : State :=
  if arg.newBinding (s.binding p (.key k)) = s.binding p (.key k) then s else keyLeaves p k .keyChanged s

theorem setKey_eq (p : PosId) (k : KeyId) (arg : KeyArg) (n : Nat) (sd : Side) (pr : Bool) (s : State) :
    setKey p k arg n sd pr s = (keyReady p k arg s).modPos p fun r =>
      { r with keys := r.keys.set k ⟨arg.newBinding (s.binding p (.key k)), n, sd, pr⟩ } := by
  cases arg <;> rfl

/-- Either no talk is ended, or that on the hoot which the key leaves. -/
theorem keyReady_cases (p : PosId) (k : KeyId) (arg : KeyArg) (s : State) :
    keyReady p k arg s = s ∨ ∃ b, s.binding p (.key k) = .listen b ∧
      arg.newBinding (s.binding p (.key k)) ≠ s.binding p (.key k) ∧
      keyReady p k arg s = endTalkOn b p .keyChanged s := by
  unfold keyReady
  split
  · exact .inl rfl
  · rename_i hne
    unfold keyLeaves
    split
    · rename_i b hb
      exact .inr ⟨b, hb, hne, rfl⟩
    · exact .inl rfl

/-- Checks 2 to 5 of R10 pass for a key that holds no line, with a hoot that the position may listen to and that no
other key of it is bound to. -/
theorem keyCheck_eq_none {l : LinkId} {p : PosId} {k : KeyId} {arg : KeyArg} {s : State}
    (hold : arg = .keep ∨ ∀ L, s.binding p (.key k) ≠ .holder L)
    (hhoot : ∀ b, arg = .hoot b → (s.bridges.get b).use = .hoot ∧ s.mayListen p b = true ∧
      ∀ j, j ≠ k → s.binding p (.key j) ≠ .listen b) : keyCheck l p k arg s = none := by
  have hfree (h : arg ≠ .keep) : (s.binding p (.key k)).isHolder = false := by
    have := hold.resolve_left h
    cases hb : s.binding p (.key k) with
    | holder L => exact absurd hb (this L)
    | _ => rfl
  cases arg with
  | keep => rfl
  | none => simp [keyCheck, hfree]
  | hoot b =>
    obtain ⟨huse, hlisten, hother⟩ := hhoot b rfl
    have ho : otherKeyOn s p k b = false := by simpa [otherKeyOn] using hother
    simp [keyCheck, hootKeyCheck, huse, hlisten, hfree, ho]

theorem kept_keyReady (p : PosId) (k : KeyId) (arg : KeyArg) (s : State) : Kept s (keyReady p k arg s) :=
  (Kept.refl s).ite (kept_keyLeaves p k .keyChanged s)

end

/-- Settles O22: KEY_SET stores the key in `keyReady`, which `keyReady_cases` and `endTalkOn_frame` describe. -/
theorem keySetTaken : Obligations.KeySetTaken := by
  intro l p k code bridge level side priority arg sd pr s hm ho harg hsd hpr old hold hhoot new key
  generalize hs0 : s.begin (some l) = s0
  have hold0 : s0.binding p (.key k) = old := by rw [← hs0]; rfl
  have hnew : arg.newBinding old = new := by cases arg <;> rfl
  generalize hu : keyReady p k arg s0 = u
  generalize ht : (u.modPos p fun r => { r with keys := r.keys.set k key }) = t
  have hkey : setKey p k arg (clampTop 1024 level) sd pr s0 = t := by
    rw [setKey_eq, hold0, hnew, hu, ← ht]
    rfl
  have htk : (t.positions.get p).keys.get k = key := by simp [← ht]
  have hset : keySet l (idByte k) code bridge level side priority p s0 = (t, ⟨.done, bKey key⟩) := by
    have hc : keyCheck l p k arg s0 = none := keyCheck_eq_none (hold0 ▸ hold) (by rw [← hs0]; exact hhoot)
    simp only [keySet, keyOf_idByte, hsd, hpr, harg, hc, hkey, htk]
    rfl
  have hexec := positionRequest_owner hm {} (fun _ => ho) (by simp) { hoot := keySetHoot code bridge }
    (keySet l (idByte k) code bridge level side priority)
  rw [hs0, hset] at hexec
  have hcases := keyReady_cases p k arg s0
  rw [hold0, hnew, hu] at hcases
  obtain ⟨b, hframe, hb⟩ : ∃ b, TalkFrame b s0 u ∧ (u = s0 ∨ old = .listen b) := by
    rcases hcases with e | ⟨b, hb, _, e⟩
    · exact ⟨0, e ▸ TalkFrame.refl 0 s0, .inl e⟩
    · exact ⟨b, e ▸ (endTalkOn_frame b p .keyChanged s0).1, .inr hb⟩
  have hpos (q : PosId) : { u.positions.get q with mic := (s.positions.get q).mic } = s.positions.get q := by
    simpa [← hs0] using hframe.positions q
  have hp : t.positions.get p = { u.positions.get p with keys := (s.positions.get p).keys.set k key } := by
    have e := congrArg Position.keys (hpos p)
    simp only at e
    simp [← ht, e]
  have hq (q : PosId) (h : q ≠ p) : t.positions.get q = u.positions.get q := by simp [← ht, h]
  refine ⟨_, congrArg Host.Outcome.next hexec, answered_respond .., htk, fun j hj => ?_, ?_, fun q h => ?_,
    fun d hd => ?_, ?_, fun hk hne b h hl hh => ?_, fun hquiet => ?_⟩
  · change (t.positions.get p).keys.get j = _
    simp [hp, hj]
  · change ({ t.positions.get p with mic := (s.positions.get p).mic } : Position) = _
    rw [hp]
    exact congrArg (fun r : Position => { r with keys := (s.positions.get p).keys.set k key }) (hpos p)
  · change ({ t.positions.get q with mic := (s.positions.get q).mic } : Position) = _
    rw [hq q h, hpos q]
  · change t.bridges.get d = _ ∧ t.hoots.get d = _
    rw [← ht]
    rcases hb with e | e
    · rw [e, ← hs0]
      exact ⟨rfl, rfl⟩
    · have hdb : d ≠ b := fun h => hd (h ▸ e)
      exact ⟨(hframe.bridges d hdb).trans (by rw [← hs0]; rfl), (hframe.hoots d hdb).trans (by rw [← hs0]; rfl)⟩
  · have hkept : t.frame = (s.begin (some l)).frame := by
      rw [← ht, hs0]
      exact hu ▸ (kept_keyReady p k arg s0).frame
    refine state_eq (frame_of_begin (t := t) hkept) rfl rfl ?_ ?_ ?_ ?_ rfl rfl rfl rfl rfl
    · exact (congrArg State.lines ht.symm).trans (hframe.lines.trans (by rw [← hs0]; rfl))
    · exact (congrArg State.gens ht.symm).trans (hframe.gens.trans (by rw [← hs0]; rfl))
    · exact (congrArg State.icm ht.symm).trans (hframe.icm.trans (by rw [← hs0]; rfl))
    · exact (congrArg State.calls ht.symm).trans (hframe.calls.trans (by rw [← hs0]; rfl))
  · have e : u = endTalkOn b p .keyChanged s0 := by
      rw [← hu, keyReady, hold0, hnew, if_neg hne]
      simp [keyLeaves, hold0, hl]
    have hgone := (endTalkOn_frame b p .keyChanged s0).2 (by rw [← hs0]; exact hk)
    rw [← e] at hgone
    exact fun hin => hgone ⟨h, by rw [← hh, ← ht]; rfl, hin⟩
  · have e : u = s0 := by
      rcases hcases with e | ⟨c, hc, hne, e⟩
      · exact e
      · obtain ⟨d, h, hd, hh, hin⟩ := (hquiet.resolve_left hne).resolve_left fun hno => hno c hc
        cases hc.symm.trans hd
        refine e.trans (endTalk_of_not_talksAt (w := .atOnce) ?_ .keyChanged)
        rintro ⟨g, hg, hp⟩
        rw [← hs0] at hg
        cases hh.symm.trans hg
        exact hin hp
    have e' : t = s0.modPos p fun r => { r with keys := r.keys.set k key } := by rw [← ht, e]
    rw [e', ← hs0]
    exact ⟨noNotice.respond (noNotice.refl s) l _, rfl, rfl⟩

end Sys2Proof.Machine

namespace Sys2Proof.Machine
open Sys2Proof

section

/-! # What the operations on one line leave as they are (R65 to R67, R72 to R79, R83) -/

/-- A binding that stands or has ended. -/
def Fades (old new : Binding) : Prop := new = old ∨ new = .none

theorem Fades.trans {a b c : Binding} (h : Fades a b) (g : Fades b c) : Fades a c := by
  rcases g with rfl | rfl
  · exact h
  · exact .inr rfl

/-- What an operation that ends something on line `L` leaves: the intercom, hoots, every other line and its generator,
and every bridge that is not the line's and has OWNER entries alone. Bindings, the hold and the line's bridge only end. -/
structure LineFrame (L : LineId) (s t : State) : Prop where
  icm : t.icm = s.icm
  calls : t.calls = s.calls
  hoots : t.hoots = s.hoots
  lines : ∀ M, M ≠ L → t.lines.get M = s.lines.get M
  gens : ∀ M, t.gens.get M = s.gens.get M ∨ M = L ∧ t.gens.get M = { s.gens.get M with sustained := false }
  bindings : ∀ q e, Fades (s.binding q e) (t.binding q e)
  feed : ∀ q, (t.positions.get q).feed = (s.positions.get q).feed
  owner : (t.lines.get L).holdOwner = (s.lines.get L).holdOwner ∨ (t.lines.get L).holdOwner = none
  bridge : (t.lines.get L).bridge = (s.lines.get L).bridge ∨ (t.lines.get L).bridge = none
  bridges : ∀ d, (s.lines.get L).bridge ≠ some d → (∀ c ∈ (s.bridges.get d).contributors, c.origin = .owner) →
    t.bridges.get d = s.bridges.get d

theorem LineFrame.refl (L : LineId) (s : State) : LineFrame L s s :=
  ⟨rfl, rfl, rfl, fun _ _ => rfl, fun _ => .inl rfl, fun _ _ => .inl rfl, fun _ => rfl, .inl rfl, .inl rfl,
    fun _ _ _ => rfl⟩

theorem LineFrame.trans {L : LineId} {s t u : State} (h : LineFrame L s t) (g : LineFrame L t u) :
    LineFrame L s u where
  icm := g.icm.trans h.icm
  calls := g.calls.trans h.calls
  hoots := g.hoots.trans h.hoots
  lines M hM := (g.lines M hM).trans (h.lines M hM)
  gens M := by
    rcases g.gens M with e | ⟨hM, e⟩ <;> rcases h.gens M with f | ⟨hM', f⟩ <;> rw [e, f] <;> simp_all
  bindings q e := (h.bindings q e).trans (g.bindings q e)
  feed q := (g.feed q).trans (h.feed q)
  owner := by
    rcases g.owner with e | e
    · exact e ▸ h.owner
    · exact .inr e
  bridge := by
    rcases g.bridge with e | e
    · exact e ▸ h.bridge
    · exact .inr e
  bridges d hd ho := by
    have hd' : (t.lines.get L).bridge ≠ some d := by
      rcases h.bridge with e | e <;> rw [e]
      · exact hd
      · simp
    have e := h.bridges d hd ho
    exact (g.bridges d hd' (by rw [e]; exact ho)).trans e

theorem LineFrame.each {α : Type} {L : LineId} {f : α → State → State} (h : ∀ x s, LineFrame L s (f x s))
    (xs : List α) (s : State) : LineFrame L s (s.each xs f) := each_rel (LineFrame.refl L) LineFrame.trans h xs s

theorem LineFrame.ite {L : LineId} {c : Prop} [Decidable c] {s t u : State} (h : LineFrame L s t)
    (k : LineFrame L s u) : LineFrame L s (if c then t else u) := by split <;> assumption

/-- A change of channels, the log and the links alone. -/
theorem LineFrame.of_eq {L : LineId} {s t : State} (hp : t.positions = s.positions) (hb : t.bridges = s.bridges)
    (hl : t.lines = s.lines) (hg : t.gens = s.gens) (hi : t.icm = s.icm) (hc : t.calls = s.calls)
    (hh : t.hoots = s.hoots) : LineFrame L s t := by
  refine ⟨hi, hc, hh, fun M _ => by rw [hl], fun M => .inl (by rw [hg]), fun q e => .inl ?_, fun q => by rw [hp],
    .inl (by rw [hl]), .inl (by rw [hl]), fun d _ _ => by rw [hb]⟩
  simp only [State.binding, hp]

theorem lineFrame_post (L : LineId) (dest : LinkId → Bool) (n : Notice) (s : State) : LineFrame L s (post dest n s) :=
  LineFrame.of_eq rfl rfl rfl rfl rfl rfl rfl

theorem lineFrame_submit (L : LineId) (r : Record) (s : State) : LineFrame L s (submit r s) :=
  LineFrame.of_eq (by simp) (by simp) (by simp) (by simp) (by simp) (by simp) (by simp)

theorem lineFrame_releaseChan (L : LineId) (p : PosId) (e : Endpoint) (s : State) :
    LineFrame L s (releaseChan p e s) :=
  LineFrame.of_eq (by simp) (by simp) (by simp) (by simp) (by simp) (by simp) (by simp)

theorem lineFrame_unbind (L : LineId) (p : PosId) (e : Endpoint) (c : Cause) (s : State) :
    LineFrame L s (unbind p e c s) :=
  { LineFrame.of_eq (L := L) (s := s) (t := { unbind p e c s with positions := s.positions }) rfl (by simp) (by simp)
      (by simp) (by simp) (by simp) (by simp) with
    bindings := fun q f => unbind_fades p q e f c s
    feed := fun q => unbind_feed p q e c s }

/-- A change of the line's record that makes no hold and takes no bridge. -/
theorem lineFrame_modLine (L : LineId) (f : Line → Line) (s : State)
    (ho : ∀ r, (f r).holdOwner = r.holdOwner ∨ (f r).holdOwner = none)
    (hb : ∀ r, (f r).bridge = r.bridge ∨ (f r).bridge = none) : LineFrame L s (s.modLine L f) :=
  { LineFrame.refl L s with
    lines := fun M hM => by simp [hM]
    owner := by simpa using ho _
    bridge := by simpa using hb _ }

theorem lineFrame_unsustain (L : LineId) (s : State) :
    LineFrame L s (s.modGen L fun g => { g with sustained := false }) :=
  { LineFrame.refl L s with
    gens := fun M => by
      by_cases h : M = L
      · subst h
        exact .inr ⟨rfl, by simp⟩
      · exact .inl (by simp [h]) }

/-- A change of a bridge that is the line's own, or on which an entry is no OWNER's. -/
theorem lineFrame_modBridge {L : LineId} {b : BridgeId} {s : State} (f : Bridge → Bridge)
    (h : (s.lines.get L).bridge = some b ∨ ∃ c ∈ (s.bridges.get b).contributors, c.origin ≠ .owner) :
    LineFrame L s (s.modBridge b f) :=
  { LineFrame.refl L s with
    bridges := fun d hd ho => by
      have hdb : d ≠ b := by
        rintro rfl
        rcases h with h | ⟨c, hc, hno⟩
        · exact hd h
        · exact hno (ho c hc)
      simp [hdb] }

theorem lineFrame_leave {L : LineId} {b : BridgeId} {s : State} (x : SourceId) (h : (s.lines.get L).bridge = some b) :
    LineFrame L s (leave b x s) := lineFrame_modBridge _ (.inl h)

theorem lineFrame_leaveEndpoint {L : LineId} {b : BridgeId} {s : State} (p : PosId) (e : Endpoint)
    (h : (s.lines.get L).bridge = some b) : LineFrame L s (leaveEndpoint p e b s) := by
  unfold leaveEndpoint
  split
  · exact lineFrame_leave _ h
  · exact LineFrame.refl L s

theorem lineFrame_leaveConference (L : LineId) (b : BridgeId) (x : SourceId) (s : State) :
    LineFrame L s (leaveConference b x s) := by
  unfold leaveConference
  split
  · rename_i h
    obtain ⟨c, hc, hx⟩ := List.any_eq_true.mp h
    refine lineFrame_modBridge _ (.inr ⟨c, hc, ?_⟩)
    have ho : c.origin = .conference := by simpa using (Bool.and_eq_true_iff.mp hx).2
    simp [ho]
  · exact LineFrame.refl L s

theorem lineFrame_endConferences (L M : LineId) (s : State) : LineFrame L s (endConferences M s) :=
  LineFrame.each (fun b t => lineFrame_leaveConference L b _ t) _ s

/-! ## Line talk -/

theorem lineFrame_endLineTalk (p : PosId) (k : KeyId) (L : LineId) (c d : Cause) (s : State) :
    LineFrame L s (endLineTalk p k L c d s) := by
  unfold endLineTalk
  split
  · split
    · rename_i b hb
      refine LineFrame.trans ?_ (lineFrame_post L _ _ _)
      refine LineFrame.trans ?_ (lineFrame_submit L _ _)
      exact (lineFrame_leave _ hb).trans (lineFrame_unbind L _ _ _ _)
    · exact lineFrame_unbind L _ _ _ _
  · exact LineFrame.refl L s

theorem lineFrame_endTalkOfEndpoint (p : PosId) (e : Endpoint) (L : LineId) (c : Cause) (s : State) :
    LineFrame L s (endTalkOfEndpoint p e L c s) := by
  unfold endTalkOfEndpoint
  split
  · exact lineFrame_endLineTalk ..
  · exact LineFrame.refl L s

/-! ## Reports, timers and offers -/

theorem lineFrame_reportChange (extra : List PosId) (L M : LineId) (old : LineState) (c : Cause) (s : State) :
    LineFrame L s (reportChange extra M old c s) :=
  (LineFrame.refl L s).ite ((lineFrame_post L _ _ _).trans (lineFrame_post L _ _ _))

theorem lineFrame_reportLine (L M : LineId) (s : State) : LineFrame L s (reportLine M s) := by
  unfold reportLine reportLineTo
  exact lineFrame_post ..

theorem lineFrame_enterStateTo (extra : List PosId) (L : LineId) (new : LineState) (c : Cause) (s : State) :
    LineFrame L s (enterStateTo extra L new c s) := by
  refine LineFrame.trans ?_ (lineFrame_reportChange ..)
  exact lineFrame_modLine L _ s (fun _ => .inl rfl) fun _ => .inl rfl

theorem lineFrame_startTimer (L : LineId) (kind : TimerKind) (ms : Nat) (s : State) :
    LineFrame L s (startTimer L kind ms s) := lineFrame_modLine L _ s (fun _ => .inl rfl) fun _ => .inl rfl

theorem lineFrame_stopTimer (L : LineId) (s : State) : LineFrame L s (stopTimer L s) :=
  lineFrame_modLine L _ s (fun _ => .inl rfl) fun _ => .inl rfl

theorem lineFrame_enterAlerting (L : LineId) (s : State) : LineFrame L s (enterAlerting L s) := by
  unfold enterAlerting
  dsimp only
  refine LineFrame.trans ?_ (lineFrame_reportChange ..)
  refine LineFrame.trans ?_ (lineFrame_submit L _ _)
  refine LineFrame.trans ?_ (lineFrame_post L _ _ _)
  exact lineFrame_modLine L _ s (fun _ => .inl rfl) fun _ => .inl rfl

theorem lineFrame_makeOffer (L : LineId) (s : State) : LineFrame L s (makeOffer L s) := by
  unfold makeOffer
  split
  · exact (lineFrame_post L _ _ _).trans (lineFrame_startTimer ..)
  · exact LineFrame.refl L s

theorem lineFrame_offerOrIdle (L : LineId) (c : Cause) (s : State) : LineFrame L s (offerOrIdle L c s) :=
  LineFrame.ite ((lineFrame_stopTimer L s).trans (lineFrame_enterStateTo ..))
    (((lineFrame_stopTimer L s).trans (lineFrame_enterStateTo ..)).trans (lineFrame_makeOffer ..))

theorem lineFrame_advanceOffer (L : LineId) (s : State) : LineFrame L s (advanceOffer L s) :=
  LineFrame.ite ((lineFrame_stopTimer L s).trans (lineFrame_enterStateTo ..)) (lineFrame_makeOffer L s)

theorem lineFrame_endClearing (L : LineId) (s : State) : LineFrame L s (endClearing L s) := by
  refine LineFrame.ite (LineFrame.trans ?_ (lineFrame_enterAlerting L _)) (lineFrame_offerOrIdle L _ s)
  exact lineFrame_modLine L _ s (fun _ => .inl rfl) fun _ => .inl rfl

theorem lineFrame_removeCamp (L : LineId) (p : PosId) (s : State) : LineFrame L s (removeCamp L p s) :=
  lineFrame_modLine L _ s (fun _ => .inl rfl) fun _ => .inl rfl

theorem lineFrame_campRemove (L : LineId) (p : PosId) (c : Cause) (s : State) :
    LineFrame L s (campRemove L p c s) := by
  have h : LineFrame L s (removeCamp L p s |> postPos p (.offerLapsed L c (isOffered (s.lines.get L) p))) :=
    (lineFrame_removeCamp L p s).trans (lineFrame_post L _ _ _)
  exact LineFrame.ite ((h.trans (lineFrame_advanceOffer L _)).ite h) (LineFrame.refl L s)

theorem lineFrame_emptyCamp (L : LineId) (c : Cause) (s : State) : LineFrame L s (emptyCamp L c s) :=
  LineFrame.each (fun p t => (lineFrame_removeCamp L p t).trans (lineFrame_post L _ _ _)) _ s

/-! ## Monitors, holders and the release -/

theorem lineFrame_endMonitor (L : LineId) (x : PosId × Endpoint) (c : Cause) (s : State) :
    LineFrame L s (endMonitor L x c s) := by
  refine LineFrame.trans ?_ (lineFrame_unbind L _ _ _ _)
  exact lineFrame_modLine L _ s (fun _ => .inl rfl) fun _ => .inl rfl

theorem lineFrame_endMonitors (L : LineId) (c : Cause) (s : State) : LineFrame L s (endMonitors L c s) :=
  LineFrame.each (fun x t => lineFrame_endMonitor L x c t) _ s

theorem lineFrame_detachHolder (L : LineId) (x : PosId × Endpoint) (c : Cause) (s : State) :
    LineFrame L s (detachHolder L x c s) := by
  unfold detachHolder
  refine LineFrame.trans ?_ (lineFrame_unbind L _ _ _ _)
  refine LineFrame.trans ?_ (lineFrame_endTalkOfEndpoint ..)
  refine (lineFrame_modLine L (fun r => { r with holders := r.holders.filter (· ≠ x) }) s (fun _ => .inl rfl)
    fun _ => .inl rfl).trans ?_
  dsimp only
  split
  · rename_i b hb
    exact lineFrame_leaveEndpoint _ _ hb
  · exact LineFrame.refl L _

theorem lineFrame_endHolder (L : LineId) (x : PosId × Endpoint) (c : Cause) (keep : Bool) (s : State) :
    LineFrame L s (endHolder L x c keep s) := by
  unfold endHolder
  dsimp only
  refine LineFrame.trans ?_ (lineFrame_submit L _ _)
  refine (lineFrame_detachHolder L x c s).trans ?_
  unfold releaseUnless
  exact (LineFrame.refl L _).ite (lineFrame_releaseChan ..)

theorem lineFrame_endHolders (L : LineId) (c : Cause) (s : State) : LineFrame L s (endHolders L c s) :=
  LineFrame.each (fun x t => lineFrame_endHolder L x c false t) _ s

theorem lineFrame_dropLineBridge (L : LineId) (s : State) : LineFrame L s (dropLineBridge L s) := by
  unfold dropLineBridge
  split
  · rename_i b hb
    exact (lineFrame_modBridge _ (.inl hb)).trans (lineFrame_modLine L _ _ (fun _ => .inl rfl) fun _ => .inr rfl)
  · exact LineFrame.refl L s

theorem lineFrame_vacate (L : LineId) (c : Cause) (s : State) : LineFrame L s (vacate L c s) := by
  unfold vacate
  refine LineFrame.trans ?_ (lineFrame_modLine L _ _ (fun _ => .inl rfl) fun _ => .inl rfl)
  refine LineFrame.trans ?_ (lineFrame_unsustain L _)
  refine LineFrame.trans ?_ (lineFrame_dropLineBridge L _)
  refine LineFrame.trans ?_ (lineFrame_modLine L _ _ (fun _ => .inr rfl) fun _ => .inl rfl)
  exact (lineFrame_endMonitors L c s).trans (lineFrame_endConferences L L _)

theorem lineFrame_enterClearing (extra : List PosId) (L : LineId) (c : Cause) (s : State) :
    LineFrame L s (enterClearing extra L c s) := by
  unfold enterClearing
  have h := (lineFrame_startTimer L .guard (s.lines.get L).guardMs s).trans (lineFrame_enterStateTo extra L .clearing c _)
  exact (h.trans (lineFrame_endClearing L _)).ite h

theorem lineFrame_releaseLine (extra : List PosId) (L : LineId) (c m : Cause) (s : State) :
    LineFrame L s (releaseLine extra L c m s) :=
  (lineFrame_vacate L m s).trans (lineFrame_enterClearing extra L c _)

theorem lineFrame_releaseHold (L : LineId) (c : Cause) (s : State) : LineFrame L s (releaseHold L c s) := by
  unfold releaseHold
  split
  · exact (lineFrame_submit L _ s).trans (lineFrame_releaseLine ..)
  · exact LineFrame.refl L s

theorem lineFrame_dropHolder (L : LineId) (x : PosId × Endpoint) (c : Cause) (keep : Bool) (s : State) :
    LineFrame L s (dropHolder L x c keep s) := by
  have h := lineFrame_endHolder L x c keep s
  exact LineFrame.ite h (LineFrame.ite (h.trans (lineFrame_releaseLine ..)) (h.trans (lineFrame_reportLine L L _)))

theorem lineFrame_stripLine (L : LineId) (c : Cause) (s : State) : LineFrame L s (stripLine L c s) := by
  unfold stripLine
  dsimp only
  refine LineFrame.trans ?_ (lineFrame_modLine L _ _ (fun _ => .inl rfl) fun _ => .inl rfl)
  refine LineFrame.trans ?_ (lineFrame_emptyCamp L c _)
  split
  · exact (lineFrame_endHolders L c s).trans (lineFrame_vacate L c _)
  · refine LineFrame.trans ?_ (lineFrame_vacate L c _)
    split
    · exact lineFrame_submit L _ s
    · exact LineFrame.refl L s
  · exact LineFrame.refl L s

theorem lineFrame_lineDown (L : LineId) (s : State) : LineFrame L s (lineDown L s) := by
  refine LineFrame.ite (LineFrame.refl L s) (LineFrame.trans ?_ (lineFrame_reportChange ..))
  exact (lineFrame_stripLine L .facility s).trans (lineFrame_modLine L _ _ (fun _ => .inl rfl) fun _ => .inl rfl)

end

end Sys2Proof.Machine

namespace Sys2Proof.Machine
open Sys2Proof

section

/-! # What the teardowns of the intercom leave as they are (R102, R112, R113, R117) -/

/-- The intercom of a position with no waiting call only ends: its slot stays empty, its state and feed stand or end. -/
structure IcmFades (s t : State) (q : PosId) : Prop where
  waiting : t.waiting q = none
  state : t.icmState q = s.icmState q ∨ t.icmState q = .idle
  feed : (t.positions.get q).feed = (s.positions.get q).feed ∨ (t.positions.get q).feed = none

theorem IcmFades.trans {s t u : State} {q : PosId} (h : IcmFades s t q) (g : IcmFades t u q) : IcmFades s u q where
  waiting := g.waiting
  state := by
    rcases g.state with e | e
    · exact e ▸ h.state
    · exact .inr e
  feed := by
    rcases g.feed with e | e
    · exact e ▸ h.feed
    · exact .inr e

/-- What an operation that ends something of the intercom leaves: lines, generators and hoots. Bindings only end, and
so does the intercom of a position where no call waits. -/
structure IcmFrame (s t : State) : Prop where
  lines : t.lines = s.lines
  gens : t.gens = s.gens
  hoots : t.hoots = s.hoots
  bindings : ∀ q e, Fades (s.binding q e) (t.binding q e)
  quiet : ∀ q, s.waiting q = none → IcmFades s t q

theorem IcmFrame.refl (s : State) : IcmFrame s s :=
  ⟨rfl, rfl, rfl, fun _ _ => .inl rfl, fun _ h => ⟨h, .inl rfl, .inl rfl⟩⟩

theorem IcmFrame.trans {s t u : State} (h : IcmFrame s t) (g : IcmFrame t u) : IcmFrame s u where
  lines := g.lines.trans h.lines
  gens := g.gens.trans h.gens
  hoots := g.hoots.trans h.hoots
  bindings q e := (h.bindings q e).trans (g.bindings q e)
  quiet q hq := (h.quiet q hq).trans (g.quiet q (h.quiet q hq).waiting)

theorem IcmFrame.each {α : Type} {f : α → State → State} (h : ∀ x s, IcmFrame s (f x s))
    (xs : List α) (s : State) : IcmFrame s (s.each xs f) := each_rel IcmFrame.refl IcmFrame.trans h xs s

theorem IcmFrame.ite {c : Prop} [Decidable c] {s t u : State} (h : IcmFrame s t)
    (k : IcmFrame s u) : IcmFrame s (if c then t else u) := by split <;> assumption

/-- A change of bridges, calls, channels, the log and the links alone. -/
theorem IcmFrame.of_eq {s t : State} (hp : t.positions = s.positions) (hl : t.lines = s.lines) (hg : t.gens = s.gens)
    (hi : t.icm = s.icm) (hh : t.hoots = s.hoots) : IcmFrame s t := by
  refine ⟨hl, hg, hh, fun q e => .inl ?_, fun q h => ⟨?_, .inl ?_, .inl (by rw [hp])⟩⟩
  · simp only [State.binding, hp]
  · simpa only [State.waiting, hi] using h
  · simp only [State.icmState, hi]

theorem icmFrame_post (dest : LinkId → Bool) (n : Notice) (s : State) : IcmFrame s (post dest n s) :=
  IcmFrame.of_eq rfl rfl rfl rfl rfl

theorem icmFrame_submit (r : Record) (s : State) : IcmFrame s (submit r s) :=
  IcmFrame.of_eq (by simp) (by simp) (by simp) (by simp) (by simp)

theorem icmFrame_releaseUnless (keep : Bool) (p : PosId) (e : Endpoint) (s : State) :
    IcmFrame s (releaseUnless keep p e s) :=
  (IcmFrame.refl s).ite (IcmFrame.of_eq (by simp) (by simp) (by simp) (by simp) (by simp))

theorem icmFrame_leaveEndpoint (p : PosId) (e : Endpoint) (b : BridgeId) (s : State) :
    IcmFrame s (leaveEndpoint p e b s) := IcmFrame.of_eq (by simp) (by simp) (by simp) (by simp) (by simp)

theorem icmFrame_modCall (c : BridgeId) (f : Call → Call) (s : State) : IcmFrame s (s.modCall c f) :=
  IcmFrame.of_eq rfl rfl rfl rfl rfl

theorem icmFrame_unbind (p : PosId) (e : Endpoint) (c : Cause) (s : State) : IcmFrame s (unbind p e c s) where
  lines := by simp
  gens := by simp
  hoots := by simp
  bindings q f := unbind_fades p q e f c s
  quiet q h := ⟨by simpa [State.waiting] using h, .inl (by simp [State.icmState]), .inl (by simp)⟩

theorem icmFrame_unfeed (p : PosId) (s : State) : IcmFrame s (setFeed p none s) where
  lines := rfl
  gens := rfl
  hoots := rfl
  bindings q e := .inl (by
    simp only [State.binding, setFeed_eq, modPos_positions, Tab.get_modify]
    split
    · rename_i h
      cases e <;> simp [h, Position.binding]
    · rfl)
  quiet q h := ⟨h, .inl rfl, by
    simp only [setFeed_eq, modPos_positions, Tab.get_modify]
    split
    · exact .inr rfl
    · exact .inl rfl⟩

/-- The intercom record of a position changed: to a state that stands or is IDLE, and to no waiting call. -/
theorem icmFrame_modIcm (p : PosId) (f : IcmPos → IcmPos) (s : State)
    (hw : ∀ r, r.waiting = none → (f r).waiting = none) (hs : ∀ r, (f r).state = r.state ∨ (f r).state = .idle) :
    IcmFrame s (s.modIcm p f) where
  lines := rfl
  gens := rfl
  hoots := rfl
  bindings _ _ := .inl rfl
  quiet q h := by
    refine ⟨?_, ?_, .inl rfl⟩
    · simp only [State.waiting, modIcm_icm, Tab.get_modify] at h ⊢
      split
      · rename_i e
        exact hw _ (e ▸ h)
      · exact h
    · simp only [State.icmState, modIcm_icm, Tab.get_modify]
      split
      · rename_i e
        exact e ▸ hs _
      · exact .inl rfl

theorem icmFrame_setIdle (p : PosId) (s : State) : IcmFrame s (setIcm p .idle s) :=
  icmFrame_modIcm p _ s (fun _ h => h) fun _ => .inr rfl

theorem icmFrame_emptyWaiting (p : PosId) (s : State) : IcmFrame s (setWaiting p none s) :=
  icmFrame_modIcm p _ s (fun _ _ => rfl) fun _ => .inl rfl

theorem icmFrame_postIcmState (p : PosId) (c : Cause) (s : State) : IcmFrame s (postIcmState p c s) :=
  icmFrame_post _ _ s

/-- What a presentation to a position where a call waits leaves. -/
theorem icmFrame_promoteWaiting (p : PosId) (s : State) : IcmFrame s (promoteWaiting p s) := by
  unfold promoteWaiting
  split
  · rename_i c hc
    split
    · rename_i r hr
      split
      · exact IcmFrame.refl s
      · generalize hu : present c r (r.mode = .voice) p _ = u
        have hother (q : PosId) (hq : q ≠ p) :
            u.positions.get q = s.positions.get q ∧ u.icm.get q = s.icm.get q := by
          rw [← hu]
          unfold present
          split <;> simp [setIcm, setWaiting, hq]
        have hbind (e : Endpoint) : u.binding p e = s.binding p e := by
          rw [← hu]
          unfold present
          cases e <;> split <;> simp [State.binding, Position.binding, setIcm, setWaiting]
        refine ⟨?_, ?_, ?_, fun q e => .inl ?_, fun q h => ?_⟩
        · rw [← hu]
          unfold present
          split <;> rfl
        · rw [← hu]
          unfold present
          split <;> rfl
        · rw [← hu]
          unfold present
          split <;> rfl
        · by_cases hq : q = p
          · exact hq ▸ hbind e
          · simp only [State.binding, (hother q hq).1]
        · have hq : q ≠ p := by
            rintro rfl
            rw [hc] at h
            cases h
          obtain ⟨hp, hi⟩ := hother q hq
          exact ⟨by simpa only [State.waiting, hi] using h, .inl (by simp only [State.icmState, hi]), .inl (by rw [hp])⟩
    · exact icmFrame_emptyWaiting p s
  · exact IcmFrame.refl s

theorem icmFrame_returnIdle (p : PosId) (c : Cause) (s : State) : IcmFrame s (returnIdle p c s) := by
  unfold returnIdle
  refine IcmFrame.trans ?_ (icmFrame_promoteWaiting p _)
  refine IcmFrame.trans ?_ (icmFrame_postIcmState p c _)
  exact (icmFrame_setIdle p s).trans (icmFrame_unfeed p _)

theorem icmFrame_unpresent (c : BridgeId) (q : PosId) (s : State) : IcmFrame s (unpresent c q s) :=
  icmFrame_modCall c _ s

theorem icmFrame_withdraw (c : BridgeId) (x : Presented) (d : Cause) (s : State) : IcmFrame s (withdraw c x d s) :=
  (((icmFrame_unpresent c x.pos s).trans (icmFrame_emptyWaiting x.pos _)).trans (icmFrame_postIcmState ..)).ite
    ((icmFrame_unpresent c x.pos s).trans (icmFrame_returnIdle ..))

theorem icmFrame_withdrawAll (c : BridgeId) (d : Cause) (s : State) : IcmFrame s (withdrawAll c d s) := by
  unfold withdrawAll
  split
  · exact IcmFrame.each (fun x t => icmFrame_withdraw c x d t) _ s
  · exact IcmFrame.refl s

theorem icmFrame_endParty (c : BridgeId) (d : Ending) (x : PosId × Endpoint) (s : State) :
    IcmFrame s (endParty c d x s) :=
  ((icmFrame_leaveEndpoint x.1 x.2 c s).trans (icmFrame_unbind ..)).trans (icmFrame_returnIdle ..)

theorem icmFrame_endCall (c : BridgeId) (d : Ending) (s : State) : IcmFrame s (endCall c d s) := by
  unfold endCall
  split
  · rename_i r hr
    dsimp only
    generalize hu : submit _ _ = u
    have h : IcmFrame s u := by
      rw [← hu]
      refine IcmFrame.trans ?_ (icmFrame_submit _ _)
      refine IcmFrame.trans ?_ (IcmFrame.each (fun (x : PosId × Endpoint) t => icmFrame_releaseUnless _ x.1 x.2 t) _ _)
      refine IcmFrame.trans ?_ (IcmFrame.each (fun x t => icmFrame_endParty c d x t) _ _)
      exact (icmFrame_modCall c _ s).trans (icmFrame_withdrawAll c d.cause _)
    have hfree (v : State) : IcmFrame v ((dropBridge c v).setCall c none) := IcmFrame.of_eq rfl rfl rfl rfl rfl
    refine IcmFrame.trans ?_ (hfree _)
    exact (h.trans (icmFrame_post _ _ u)).ite h
  · exact IcmFrame.refl s

theorem icmFrame_decline (p : PosId) (c : BridgeId) (w : Leaving) (s : State) : IcmFrame s (decline p c w s) := by
  unfold decline
  dsimp only
  have h := (icmFrame_unpresent c p s).trans (icmFrame_returnIdle p (w.causeOr .declined) _)
  split
  · exact (h.trans (icmFrame_endCall ..)).ite h
  · exact h

theorem icmFrame_partyLeaves (p : PosId) (e : Endpoint) (c : BridgeId) (w : Leaving) (keep : Bool) (s : State) :
    IcmFrame s (partyLeaves p e c w keep s) := by
  unfold partyLeaves
  refine IcmFrame.trans ?_ (icmFrame_returnIdle p _ _)
  refine IcmFrame.trans ?_ (icmFrame_submit _ _)
  refine IcmFrame.trans ?_ (icmFrame_releaseUnless keep p e _)
  refine IcmFrame.trans ?_ (icmFrame_unbind p e _ _)
  exact (icmFrame_leaveEndpoint p e c s).trans (icmFrame_modCall c _ _)

theorem icmFrame_afterLeaving (c : BridgeId) (w : Leaving) (s : State) : IcmFrame s (afterLeaving c w s) := by
  unfold afterLeaving
  split
  · exact (icmFrame_endCall ..).ite (icmFrame_postIcmState ..)
  · exact IcmFrame.refl s

theorem icmFrame_leaveCall (p : PosId) (w : Leaving) (keep : Bool) (s : State) :
    IcmFrame s (leaveCall p w keep s) := by
  unfold leaveCall
  split
  · exact IcmFrame.refl s
  · exact icmFrame_endCall ..
  · exact icmFrame_decline ..
  · split
    · refine (icmFrame_endCall ..).ite ?_
      split
      · exact (icmFrame_partyLeaves ..).trans (icmFrame_afterLeaving ..)
      · exact IcmFrame.refl s
    · exact IcmFrame.refl s

theorem icmFrame_emptySlot (p : PosId) (c : Cause) (s : State) : IcmFrame s (emptySlot p c s) := by
  unfold emptySlot
  split
  · rename_i d hd
    dsimp only
    have h := (icmFrame_emptyWaiting p s).trans (icmFrame_unpresent d p _)
    split
    · exact (h.trans (icmFrame_endCall ..)).ite h
    · exact h
  · exact IcmFrame.refl s

/-- What `clearIcm` does at one talk endpoint: an intercom binding ends. -/
def clearIcmAt (p : PosId) (c : Cause) (e : Endpoint) (s : State) : State :=
  match s.binding p e with
  | .icm _ => unbind p e c s
  | _ => s

theorem clearIcm_eq (p : PosId) (c : Cause) (s : State) : clearIcm p c s =
    (setFeed p none ((s.each [.ha, .hb, .mic] (clearIcmAt p c)).modIcm p fun _ => ⟨.idle, none⟩)) := rfl

theorem icmFrame_clearIcmAt (p : PosId) (c : Cause) (e : Endpoint) (s : State) : IcmFrame s (clearIcmAt p c e s) := by
  unfold clearIcmAt
  split
  · exact icmFrame_unbind ..
  · exact IcmFrame.refl s

theorem icmFrame_clearIcm (p : PosId) (c : Cause) (s : State) : IcmFrame s (clearIcm p c s) := by
  rw [clearIcm_eq]
  refine IcmFrame.trans ?_ (icmFrame_unfeed p _)
  refine IcmFrame.trans ?_ (icmFrame_modIcm p _ _ (fun _ _ => rfl) fun _ => .inr rfl)
  exact IcmFrame.each (icmFrame_clearIcmAt p c) _ s

theorem icmFrame_icmTeardown (p : PosId) (c : Cause) (s : State) : IcmFrame s (icmTeardown p c s) :=
  ((icmFrame_emptySlot p c s).trans (icmFrame_leaveCall p _ _ _)).trans (icmFrame_clearIcm p c _)

/-- An intercom binding of the endpoint is gone after `clearIcmAt`. -/
theorem clearIcmAt_self (p : PosId) (c : Cause) (e : Endpoint) (s : State) (d : BridgeId) :
    (clearIcmAt p c e s).binding p e ≠ .icm d := by
  unfold clearIcmAt
  split
  · rw [unbind_self]
    simp
  · rename_i h
    exact h d

end

end Sys2Proof.Machine

namespace Sys2Proof.Machine
open Sys2Proof

section

/-! # Teardowns only end (R14, R15)

`Wanes s t` is what every step of a teardown has in common, whatever block takes it; what a teardown has ended for one
position it therefore never brings back, whatever it ends for others. -/

/-- Between `s` and `t` things only end: bindings, but for a MIC that is granted the talk it had asked for; the intercom
of a position where no call waits; talk; holds; sustained presence. Hoots keep their legs. -/
structure Wanes (s t : State) : Prop where
  bindings : ∀ q e, Fades (s.binding q e) (t.binding q e) ∨
    e = .mic ∧ (∃ b, s.talksAt b q) ∧ ∃ k, t.binding q e = .talk k
  quiet : ∀ q, s.waiting q = none → IcmFades s t q
  talkers : ∀ b q, t.talksAt b q → s.talksAt b q
  legs : ∀ b, (t.hoots.get b).map Hoot.legs = (s.hoots.get b).map Hoot.legs
  owner : ∀ L, (t.lines.get L).holdOwner = (s.lines.get L).holdOwner ∨ (t.lines.get L).holdOwner = none
  gens : ∀ L, t.gens.get L = s.gens.get L ∨ t.gens.get L = { s.gens.get L with sustained := false }

theorem Wanes.refl (s : State) : Wanes s s :=
  ⟨fun _ _ => .inl (.inl rfl), fun _ h => ⟨h, .inl rfl, .inl rfl⟩, fun _ _ => id, fun _ => rfl, fun _ => .inl rfl,
    fun _ => .inl rfl⟩

theorem Wanes.trans {s t u : State} (h : Wanes s t) (g : Wanes t u) : Wanes s u where
  bindings q e := by
    rcases g.bindings q e with hg | ⟨he, ⟨b, hb⟩, hk⟩
    · rcases h.bindings q e with hh | ⟨he, hb, hk⟩
      · exact .inl (hh.trans hg)
      · rcases hg with hg | hg
        · exact .inr ⟨he, hb, hg ▸ hk⟩
        · exact .inl (.inr hg)
    · exact .inr ⟨he, ⟨b, h.talkers b q hb⟩, hk⟩
  quiet q hq := (h.quiet q hq).trans (g.quiet q (h.quiet q hq).waiting)
  talkers b q ht := h.talkers b q (g.talkers b q ht)
  legs b := (g.legs b).trans (h.legs b)
  owner L := by
    rcases g.owner L with e | e
    · exact e ▸ h.owner L
    · exact .inr e
  gens L := by
    rcases g.gens L with e | e <;> rcases h.gens L with f | f <;> rw [e, f] <;> simp

theorem Wanes.each {α : Type} {f : α → State → State} (h : ∀ x s, Wanes s (f x s)) (xs : List α) (s : State) :
    Wanes s (s.each xs f) := each_rel Wanes.refl Wanes.trans h xs s

theorem Wanes.ite {c : Prop} [Decidable c] {s t u : State} (h : Wanes s t) (k : Wanes s u) :
    Wanes s (if c then t else u) := by split <;> assumption

theorem talksAt_congr {s t : State} (h : t.hoots = s.hoots) (b : BridgeId) (q : PosId) :
    t.talksAt b q ↔ s.talksAt b q := by simp only [State.talksAt, h]

theorem LineFrame.wanes {L : LineId} {s t : State} (h : LineFrame L s t) : Wanes s t where
  bindings q e := .inl (h.bindings q e)
  quiet q hq := ⟨by simpa only [State.waiting, h.icm] using hq, .inl (by simp only [State.icmState, h.icm]),
    .inl (h.feed q)⟩
  talkers b q := (talksAt_congr h.hoots b q).mp
  legs b := by rw [h.hoots]
  owner M := by
    by_cases hM : M = L
    · exact hM ▸ h.owner
    · exact .inl (by rw [h.lines M hM])
  gens M := (h.gens M).imp_right (·.2)

theorem IcmFrame.wanes {s t : State} (h : IcmFrame s t) : Wanes s t where
  bindings q e := .inl (h.bindings q e)
  quiet := h.quiet
  talkers b q := (talksAt_congr h.hoots b q).mp
  legs b := by rw [h.hoots]
  owner L := .inl (by rw [h.lines])
  gens L := .inl (by rw [h.gens])

/-- Of a position record, an operation on talk touches the MIC alone. -/
theorem TalkFrame.binding {b : BridgeId} {s t : State} (h : TalkFrame b s t) (q : PosId) {e : Endpoint}
    (he : e ≠ .mic) : t.binding q e = s.binding q e := by
  have hp := congrArg (fun r : Position => r.binding e) (h.positions q)
  cases e with
  | mic => exact absurd rfl he
  | _ => exact hp

theorem TalkFrame.wanes {b : BridgeId} {s t : State} (h : TalkFrame b s t) : Wanes s t where
  bindings q e := by
    by_cases he : e = .mic
    · subst he
      rcases h.mic q with e | e | ⟨ht, hk⟩
      · exact .inl (.inl e)
      · exact .inl (.inr e)
      · exact .inr ⟨rfl, ⟨b, ht⟩, hk⟩
    · exact .inl (.inl (h.binding q he))
  quiet q hq := ⟨by simpa only [State.waiting, h.icm] using hq, .inl (by simp only [State.icmState, h.icm]),
    .inl (congrArg Position.feed (h.positions q) :)⟩
  talkers d q ht := by
    by_cases hd : d = b
    · exact hd ▸ h.talkers q (hd ▸ ht)
    · obtain ⟨g, hg, hq⟩ := ht
      exact ⟨g, h.hoots d hd ▸ hg, hq⟩
  legs d := by
    by_cases hd : d = b
    · exact hd ▸ h.legs
    · rw [h.hoots d hd]
  owner L := .inl (by rw [h.lines])
  gens L := .inl (by rw [h.gens])

theorem wanes_unbind (p : PosId) (e : Endpoint) (c : Cause) (s : State) : Wanes s (unbind p e c s) :=
  (icmFrame_unbind p e c s).wanes

/-! ## The steps of R14 -/

theorem wanes_endLineTalkOf (p : PosId) (c : Cause) (s : State) : Wanes s (endLineTalkOf p c s) := by
  unfold endLineTalkOf
  split
  · exact Wanes.refl s
  · split
    · exact (lineFrame_endLineTalk ..).wanes
    · exact wanes_unbind ..
  · exact wanes_unbind ..

theorem wanes_endAllTalk (w : ClashEval) (p : PosId) (c : Cause) (s : State) : Wanes s (endAllTalk w p c s) :=
  (Wanes.each (fun b t => (endTalk_frame w b p c t).1.wanes) _ s).trans (wanes_endLineTalkOf ..)

theorem wanes_leaveCamps (p : PosId) (c : Cause) (s : State) : Wanes s (leaveCamps p c s) :=
  Wanes.each (fun L t => (lineFrame_campRemove L p c t).wanes) _ s

theorem wanes_dropMonitorAt (p : PosId) (c : Cause) (e : Endpoint) (s : State) : Wanes s (dropMonitorAt p c e s) := by
  unfold dropMonitorAt
  split
  · exact (lineFrame_endMonitor ..).wanes
  · exact Wanes.refl s

theorem wanes_dropHolderAt (p : PosId) (c : Cause) (e : Endpoint) (s : State) : Wanes s (dropHolderAt p c e s) := by
  unfold dropHolderAt
  split
  · exact (lineFrame_dropHolder ..).wanes
  · exact Wanes.refl s

theorem wanes_endCallState (w : ClashEval) (p : PosId) (c : Cause) (s : State) : Wanes s (endCallState w p c s) := by
  unfold endCallState
  refine Wanes.trans ?_ (Wanes.each (wanes_dropHolderAt p c) _ _)
  refine Wanes.trans ?_ (Wanes.each (wanes_dropMonitorAt p c) _ _)
  refine Wanes.trans ?_ (wanes_leaveCamps p c _)
  exact (icmFrame_icmTeardown p c s).wanes.trans (wanes_endAllTalk w p c _)

theorem wanes_releaseHolds (p : PosId) (c : Cause) (s : State) : Wanes s (releaseHolds p c s) :=
  Wanes.each (fun L t => (lineFrame_releaseHold L c t).wanes.ite (Wanes.refl t)) _ s

theorem wanes_endPositions (n : HwId) (s : State) : Wanes s (endPositions n s) :=
  Wanes.each (fun p t => wanes_endCallState .atEnd p .facility t) _ s

theorem wanes_settleClash (s t : State) : Wanes t (settleClash s t) :=
  Wanes.each (fun b u => (talkFrame_evalClash b u).wanes) _ t

/-! ## A position that holds nothing -/

/-- A step that is taken for every entry of a list, and that establishes for its own entry what later steps keep, has
in the end established it for every entry. -/
theorem each_establishes {α : Type} {R : State → State → Prop} {I : State → Prop} {P : α → State → Prop}
    {f : α → State → State} (hR : ∀ x s, R s (f x s)) (hI : ∀ s t, R s t → I s → I t)
    (hP : ∀ x s, I s → P x (f x s)) (hkeep : ∀ x s t, R s t → P x s → P x t) :
    ∀ (xs : List α) (s : State), I s → ∀ x ∈ xs, P x (s.each xs f)
  | [], _, _, x, hx => absurd hx List.not_mem_nil
  | y :: ys, s, hs, x, hx => by
    have hs' : I (f y s) := hI _ _ (hR y s) hs
    have rest : ∀ (zs : List α) (t : State), I t → P x t → P x (t.each zs f) := by
      intro zs
      induction zs with
      | nil => exact fun _ _ h => h
      | cons z zs ih => exact fun t ht h => ih (f z t) (hI _ _ (hR z t) ht) (hkeep x _ _ (hR z t) h)
    rcases List.mem_cons.mp hx with rfl | hx
    · exact rest ys _ hs' (hP x s hs)
    · exact each_establishes hR hI hP hkeep ys (f y s) hs' x hx

theorem Fades.ne {a b v : Binding} (h : Fades a b) (hv : v ≠ .none) (ha : a ≠ v) : b ≠ v := by
  rcases h with rfl | rfl
  · exact ha
  · exact hv.symm

/-- What a teardown has ended, the later steps of it and of others leave ended. -/
theorem Wanes.ne {s t : State} (h : Wanes s t) {q : PosId} {e : Endpoint} {v : Binding} (hv : v ≠ .none)
    (ht : ∀ k, v ≠ .talk k) (ha : s.binding q e ≠ v) : t.binding q e ≠ v := by
  rcases h.bindings q e with hf | ⟨_, _, k, hk⟩
  · exact hf.ne hv ha
  · rw [hk]
    exact (ht k).symm

/-- A position that stands on no hoot and whose MIC talks nowhere stays so. -/
theorem Wanes.mic {s t : State} (h : Wanes s t) {q : PosId} (hq : ∀ b, ¬ s.talksAt b q)
    (hm : (s.positions.get q).mic = .none) : (t.positions.get q).mic = .none := by
  rcases h.bindings q .mic with (e | e) | ⟨_, ⟨b, hb⟩, _⟩
  · exact e.trans hm
  · exact e
  · exact absurd hb (hq b)

theorem holdsNothing_talk_iff {t : State} {p : PosId} :
    (∀ b h, t.hoots.get b = some h → p ∉ h.talkers) ↔ ∀ b, ¬ t.talksAt b p :=
  ⟨fun h b ⟨g, hg, hp⟩ => h b g hg hp, fun h b g hg hp => h b ⟨g, hg, hp⟩⟩

/-- A position that holds nothing goes on holding nothing while things only end. -/
theorem HoldsNothing.of_wanes {s t : State} {p : PosId} (h : HoldsNothing s p) (hw : Wanes s t)
    (hc : ∀ L, ((t.lines.get L).camp).Sublist (s.lines.get L).camp) : HoldsNothing t p where
  holder e L he := hw.ne (by simp) (by simp) (h.holder e L he)
  monitor L := ⟨hw.ne (by simp) (by simp) (h.monitor L).1, hw.ne (by simp) (by simp) (h.monitor L).2⟩
  camp L hp := h.camp L ((hc L).subset hp)
  talk := holdsNothing_talk_iff.mpr fun b hb => holdsNothing_talk_iff.mp h.talk b (hw.talkers b p hb)
  icm c := ⟨hw.ne (by simp) (by simp) (h.icm c).1, hw.ne (by simp) (by simp) (h.icm c).2⟩
  mic := hw.mic (holdsNothing_talk_iff.mp h.talk) h.mic
  idle := by
    rcases (hw.quiet p h.waiting).state with e | e
    · exact e.trans h.idle
    · exact e
  waiting := (hw.quiet p h.waiting).waiting
  feed := by
    rcases (hw.quiet p h.waiting).feed with e | e
    · exact e.trans h.feed
    · exact e

end

end Sys2Proof.Machine

namespace Sys2Proof
open Machine

section

/-! # Tables, changed twice -/

theorem Tab.modify_modify {α : Type} {n : Nat} (t : Tab α n) (i : Fin n) (f g : α → α) :
    (t.modify i f).modify i g = t.modify i fun r => g (f r) := by
  apply Tab.ext_get
  intro j
  simp only [Tab.get_modify]
  split <;> rfl

/-- A change that leaves the entry as it stands changes nothing. -/
theorem Tab.modify_eq_self {α : Type} {n : Nat} {t : Tab α n} {i : Fin n} {f : α → α} (h : f (t.get i) = t.get i) :
    t.modify i f = t := by simp [Tab.modify, h]

theorem Tab.modify_congr {α : Type} {n : Nat} {t : Tab α n} {i : Fin n} {f g : α → α} (h : f (t.get i) = g (t.get i)) :
    t.modify i f = t.modify i g := by simp [Tab.modify, h]

end

end Sys2Proof

namespace Sys2Proof.Machine
open Sys2Proof

section

/-! # What the operations on a line make of its record (R65 to R67, R83) -/

/-- A fold of steps that each take one entry out of a list of a line's record takes them all out. -/
theorem each_removes {α : Type} [DecidableEq α] {L : LineId} {f : α → State → State} (get : Line → List α)
    (set : List α → Line → Line) (get_set : ∀ xs r, get (set xs r) = xs)
    (set_set : ∀ xs ys r, set xs (set ys r) = set xs r) (set_get : ∀ r, set (get r) r = r)
    (h : ∀ x s, (f x s).lines = s.lines.modify L fun r => set ((get r).filter (· ≠ x)) r) :
    ∀ (xs : List α) (s : State),
      (s.each xs f).lines = s.lines.modify L fun r => set ((get r).filter (· ∉ xs)) r
  | [], s => by
    refine (Tab.modify_eq_self ?_).symm
    simp [set_get]
  | x :: xs, s => by
    rw [each_cons, each_removes get set get_set set_set set_get h xs, h, Tab.modify_modify]
    apply Tab.modify_congr
    simp only [get_set, set_set, List.filter_filter]
    congr 2
    funext y
    simp [Bool.and_comm]

@[simp] theorem endLineTalk_lines (p : PosId) (k : KeyId) (L : LineId) (c d : Cause) (s : State) :
    (endLineTalk p k L c d s).lines = s.lines := by
  unfold endLineTalk
  split
  · split <;> simp
  · rfl

@[simp] theorem endTalkOfEndpoint_lines (p : PosId) (e : Endpoint) (L : LineId) (c : Cause) (s : State) :
    (endTalkOfEndpoint p e L c s).lines = s.lines := by
  cases e <;> simp [endTalkOfEndpoint]

theorem detachHolder_lines (L : LineId) (x : PosId × Endpoint) (c : Cause) (s : State) :
    (detachHolder L x c s).lines = s.lines.modify L fun r => { r with holders := r.holders.filter (· ≠ x) } := by
  unfold detachHolder
  simp only [unbind_lines, endTalkOfEndpoint_lines]
  split <;> simp

theorem endHolder_lines (L : LineId) (x : PosId × Endpoint) (c : Cause) (keep : Bool) (s : State) :
    (endHolder L x c keep s).lines = s.lines.modify L fun r => { r with holders := r.holders.filter (· ≠ x) } := by
  unfold endHolder releaseUnless
  cases keep <;> simp [detachHolder_lines]

theorem endHolders_lines (L : LineId) (c : Cause) (s : State) :
    (endHolders L c s).lines = s.lines.modify L fun r => { r with holders := [] } := by
  unfold endHolders
  rw [each_removes Line.holders (fun xs r => { r with holders := xs }) (fun _ _ => rfl) (fun _ _ _ => rfl)
    (fun _ => rfl) fun x t => endHolder_lines L x c false t]
  apply Tab.modify_congr
  simp

theorem endMonitor_lines (L : LineId) (x : PosId × Endpoint) (c : Cause) (s : State) :
    (endMonitor L x c s).lines = s.lines.modify L fun r => { r with monitors := r.monitors.filter (· ≠ x) } := by
  simp [endMonitor]

theorem endMonitors_lines (L : LineId) (c : Cause) (s : State) :
    (endMonitors L c s).lines = s.lines.modify L fun r => { r with monitors := [] } := by
  unfold endMonitors
  rw [each_removes Line.monitors (fun xs r => { r with monitors := xs }) (fun _ _ => rfl) (fun _ _ _ => rfl)
    (fun _ => rfl) fun x t => endMonitor_lines L x c t]
  apply Tab.modify_congr
  simp

theorem dropLineBridge_lines (L : LineId) (s : State) :
    (dropLineBridge L s).lines = s.lines.modify L fun r => { r with bridge := none } := by
  unfold dropLineBridge
  split
  · rfl
  · rename_i h
    refine (Tab.modify_eq_self ?_).symm
    rw [← h]

theorem vacate_lines (L : LineId) (c : Cause) (s : State) :
    (vacate L c s).lines = s.lines.modify L fun r =>
      { r with monitors := [], holdOwner := none, timer := none, bridge := none, farPresent := false } := by
  unfold vacate
  rw [modLine_lines, modGen_lines, dropLineBridge_lines, modLine_lines, endConferences_lines, endMonitors_lines]
  simp only [Tab.modify_modify]

theorem emptyCamp_lines (L : LineId) (c : Cause) (s : State) :
    (emptyCamp L c s).lines = s.lines.modify L fun r => { r with camp := [] } := by
  unfold emptyCamp
  dsimp only
  rw [each_removes Line.camp (fun xs r => { r with camp := xs }) (fun _ _ => rfl) (fun _ _ _ => rfl)
    (fun _ => rfl) fun p t => rfl]
  apply Tab.modify_congr
  simp

@[simp] theorem reportChange_lines (extra : List PosId) (L : LineId) (old : LineState) (c : Cause) (s : State) :
    (reportChange extra L old c s).lines = s.lines := by
  unfold reportChange
  split <;> rfl

/-- A line record once `stripLine` has taken it: nobody camped, no flag and no timer; of a call no holder, monitor, hold
or bridge (R83, R87). -/
def Line.stripped (r : Line) : Line :=
  let called := r.state = .connected ∨ r.state = .held
  { r with
    camp := []
    pendingRing := false
    farPresent := false
    timer := none
    holders := if r.state = .connected then [] else r.holders
    monitors := if called then [] else r.monitors
    holdOwner := if called then none else r.holdOwner
    bridge := if called then none else r.bridge }

/-- A line record once its highway is DOWN: OUT_OF_SERVICE, unless it is DISABLED (R83). -/
def Line.down (r : Line) : Line := if r.state = .disabled then r else { r.stripped with state := .outOfService }

theorem stripLine_get (L : LineId) (c : Cause) (s : State) :
    (stripLine L c s).lines.get L = (s.lines.get L).stripped := by
  unfold stripLine
  rw [modLine_lines, emptyCamp_lines]
  simp only [Tab.get_modify_self]
  cases hs : (s.lines.get L).state
  case connected => simp [Line.stripped, vacate_lines, endHolders_lines, hs]
  case held =>
    simp only [vacate_lines, Tab.get_modify_self]
    split <;> simp [Line.stripped, hs]
  all_goals simp [Line.stripped, hs]

theorem lineDown_get (L : LineId) (s : State) : (lineDown L s).lines.get L = (s.lines.get L).down := by
  unfold lineDown Line.down
  split
  · rfl
  · simp [stripLine_get]

/-- A hold that has been released has no owner (R72). -/
theorem releaseHold_owner (L : LineId) (c : Cause) (s : State) :
    ((releaseHold L c s).lines.get L).holdOwner = none := by
  unfold releaseHold
  split
  · rename_i q hq
    unfold releaseLine
    generalize hv : vacate L c _ = v
    have hown : (v.lines.get L).holdOwner = none := by simp [← hv, vacate_lines]
    exact (lineFrame_enterClearing _ L c v).owner.elim (fun e => e.trans hown) id
  · assumption

end

end Sys2Proof.Machine

namespace Sys2Proof.Machine
open Sys2Proof

section

/-! # The call state of a position, ended (R14, R15) -/

/-- Nothing of the intercom stands at a position after its teardown (R14 step 1, R117). -/
theorem icmTeardown_clears (p : PosId) (c : Cause) (s : State) :
    (∀ e, e = .ha ∨ e = .hb ∨ e = .mic → ∀ d, (icmTeardown p c s).binding p e ≠ .icm d) ∧
      (icmTeardown p c s).waiting p = none ∧ (icmTeardown p c s).icmState p = .idle ∧
      ((icmTeardown p c s).positions.get p).feed = none := by
  unfold icmTeardown
  generalize leaveCall p (.teardown c) false (emptySlot p c s) = u
  rw [clearIcm_eq]
  refine ⟨fun e he d => ?_, by simp [State.waiting], by simp [State.icmState], by simp⟩
  have hends := each_establishes (R := IcmFrame) (I := fun _ => True)
    (P := fun e t => ∀ d, t.binding p e ≠ .icm d) (icmFrame_clearIcmAt p c) (fun _ _ _ h => h)
    (fun e t _ => clearIcmAt_self p c e t)
    (fun e t v hf ht d => (hf.bindings p e).ne (by simp) (ht d)) [.ha, .hb, .mic] u trivial e (by simpa using he)
  rcases (icmFrame_unfeed p ((u.each [.ha, .hb, .mic] (clearIcmAt p c)).modIcm p fun _ => ⟨.idle, none⟩)).bindings p e
    with h | h <;> rw [h]
  · exact hends d
  · simp

/-- The MIC talks nowhere once the line talk is ended (R14 step 2, R132). -/
theorem endLineTalkOf_mic (p : PosId) (c : Cause) (s : State) : ((endLineTalkOf p c s).positions.get p).mic = .none := by
  have hunbind : ((unbind p .mic c s).positions.get p).mic = .none := unbind_self p .mic c s
  unfold endLineTalkOf
  split
  · assumption
  · rename_i k hk
    split
    · rename_i L hL
      unfold endLineTalk
      rw [if_pos (by simp [talksOn, hk])]
      split
      · rename_i b hb
        have hmic : ((unbind p .mic c (leave b (micSource p) s)).positions.get p).mic = .none := unbind_self p .mic c _
        simpa using hmic
      · exact hunbind
    · exact hunbind
  · exact hunbind

/-- A position talks nowhere after step 2 of R14. -/
theorem endAllTalk_clears (w : ClashEval) (p : PosId) (c : Cause) (s : State) (hk : HootsOk s) :
    (∀ b, ¬ (endAllTalk w p c s).talksAt b p) ∧ ((endAllTalk w p c s).positions.get p).mic = .none := by
  unfold endAllTalk
  refine ⟨fun b hb => ?_, endLineTalkOf_mic p c _⟩
  refine each_establishes (R := fun s t => Wanes s t ∧ Kept s t) (I := HootsOk) (P := fun b t => ¬ t.talksAt b p)
    (fun b t => ⟨(endTalk_frame w b p c t).1.wanes, kept_endTalk w b p c t⟩) (fun _ _ h => h.2.hoots)
    (fun b t ht => (endTalk_frame w b p c t).2 ht) (fun b _ _ h hn ht => hn (h.1.talkers b p ht)) (ids 96) s hk b (by simp)
    ((wanes_endLineTalkOf p c _).talkers b p hb)

/-- A position that is removed from a camp queue no longer stands in it (R68). -/
theorem campRemove_self (L : LineId) (p : PosId) (c : Cause) (s : State) :
    p ∉ ((campRemove L p c s).lines.get L).camp := by
  unfold campRemove
  dsimp only
  split
  · generalize hu : postPos p _ (removeCamp L p s) = u
    have hgone : p ∉ (u.lines.get L).camp := by
      rw [← hu]
      simp [removeCamp]
    split
    · exact fun h => hgone (((kept_advanceOffer L u).camps L).subset h)
    · exact hgone
  · rename_i h
    simpa using h

/-- An endpoint that drops its line is unbound (R66). -/
theorem dropHolder_unbinds (L : LineId) (x : PosId × Endpoint) (c : Cause) (keep : Bool) (s : State) :
    (dropHolder L x c keep s).binding x.1 x.2 = .none := by
  have hend : (endHolder L x c keep s).binding x.1 x.2 = .none := by
    have hdetach : (detachHolder L x c s).binding x.1 x.2 = .none := unbind_self x.1 x.2 c _
    unfold endHolder releaseUnless
    split <;> simpa [State.binding] using hdetach
  have hrelease := (lineFrame_releaseLine [] L c .monitorEnd (endHolder L x c keep s)).bindings x.1 x.2
  unfold dropHolder
  dsimp only
  split
  · exact hend
  · split
    · rcases hrelease with h | h
      · exact h.trans hend
      · exact h
    · exact hend

/-- A position stands in no camp queue after step 3 of R14. -/
theorem leaveCamps_clears (p : PosId) (c : Cause) (s : State) (L : LineId) :
    p ∉ ((leaveCamps p c s).lines.get L).camp :=
  each_establishes (R := Kept) (I := fun _ => True) (P := fun L t => p ∉ (t.lines.get L).camp)
    (fun L t => kept_campRemove L p c t) (fun _ _ _ h => h) (fun L t _ => campRemove_self L p c t)
    (fun L _ _ h hn hp => hn ((h.camps L).subset hp)) (ids 192) s trivial L (by simp)

/-- Neither handset monitors a line after step 4 of R14. -/
theorem dropMonitors_clear (p : PosId) (c : Cause) (s : State) {e : Endpoint} (he : e = .ha ∨ e = .hb) (L : LineId) :
    (s.each [.ha, .hb] (dropMonitorAt p c)).binding p e ≠ .monitor L := by
  refine each_establishes (R := Wanes) (I := fun _ => True) (P := fun e t => ∀ L, t.binding p e ≠ .monitor L)
    (wanes_dropMonitorAt p c) (fun _ _ _ h => h) (fun e t _ L => ?_)
    (fun e _ _ h hn L => h.ne (by simp) (by simp) (hn L)) [.ha, .hb] s trivial e (by simpa using he) L
  unfold dropMonitorAt
  split
  · rw [endMonitor, unbind_self]
    simp
  · rename_i h
    exact h L

/-- No endpoint holds a line after step 5 of R14. -/
theorem dropHolders_clear (p : PosId) (c : Cause) (s : State) {e : Endpoint} (he : e ≠ .mic) (L : LineId) :
    (s.each lineEndpoints (dropHolderAt p c)).binding p e ≠ .holder L := by
  refine each_establishes (R := Wanes) (I := fun _ => True) (P := fun e t => ∀ L, t.binding p e ≠ .holder L)
    (wanes_dropHolderAt p c) (fun _ _ _ h => h) (fun e t _ L => ?_)
    (fun e _ _ h hn L => h.ne (by simp) (by simp) (hn L)) lineEndpoints s trivial e ?_ L
  · unfold dropHolderAt
    split
    · simp [dropHolder_unbinds _ (p, e)]
    · rename_i h
      exact h L
  · cases e <;> simp_all [lineEndpoints]

/-- A position whose call state has been ended holds nothing (R14, R15): each step ends its own part, and what is ended
stays ended. -/
theorem endCallState_holdsNothing (w : ClashEval) (p : PosId) (c : Cause) (s : State) (hk : HootsOk s) :
    HoldsNothing (endCallState w p c s) p := by
  unfold endCallState
  generalize h1 : icmTeardown p c s = t1
  generalize h2 : endAllTalk w p c t1 = t2
  generalize h3 : leaveCamps p c t2 = t3
  generalize h4 : t3.each [.ha, .hb] (dropMonitorAt p c) = t4
  generalize h5 : t4.each lineEndpoints (dropHolderAt p c) = t5
  obtain ⟨hicm, hwaiting, hidle, hfeed⟩ := icmTeardown_clears p c s
  obtain ⟨htalk, hmic⟩ := endAllTalk_clears w p c t1 (h1 ▸ (kept_icmTeardown p c s).hoots hk)
  rw [h1] at hicm hwaiting hidle hfeed
  rw [h2] at htalk hmic
  have w45 : Wanes t4 t5 := h5 ▸ Wanes.each (wanes_dropHolderAt p c) _ t4
  have w25 : Wanes t2 t5 := ((h3 ▸ wanes_leaveCamps p c t2 : Wanes t2 t3).trans
    (h4 ▸ Wanes.each (wanes_dropMonitorAt p c) _ t3)).trans w45
  have w15 : Wanes t1 t5 := (h2 ▸ wanes_endAllTalk w p c t1 : Wanes t1 t2).trans w25
  have k35 : Kept t3 t5 := (h4 ▸ Kept.each (kept_dropMonitorAt p c) _ t3 : Kept t3 t4).trans
    (h5 ▸ Kept.each (kept_dropHolderAt p c) _ t4)
  have hquiet := w15.quiet p hwaiting
  have hmonitor {e : Endpoint} (he : e = .ha ∨ e = .hb) (L : LineId) : t5.binding p e ≠ .monitor L :=
    w45.ne (by simp) (by simp) (h4 ▸ dropMonitors_clear p c t3 he L)
  have hcall {e : Endpoint} (he : e = .ha ∨ e = .hb ∨ e = .mic) (d : BridgeId) : t5.binding p e ≠ .icm d :=
    w15.ne (by simp) (by simp) (hicm e he d)
  exact {
    holder := fun e L he => h5 ▸ dropHolders_clear p c t4 he L
    monitor := fun L => ⟨hmonitor (.inl rfl) L, hmonitor (.inr rfl) L⟩
    camp := fun L hp => leaveCamps_clears p c t2 L (h3 ▸ (k35.camps L).subset hp)
    talk := holdsNothing_talk_iff.mpr fun b hb => htalk b (w25.talkers b p hb)
    icm := fun d => ⟨hcall (.inl rfl) d, hcall (.inr (.inl rfl)) d⟩
    mic := w25.mic htalk hmic
    idle := hquiet.state.elim (fun e => e.trans hidle) id
    waiting := hquiet.waiting
    feed := hquiet.feed.elim (fun e => e.trans hfeed) id }

/-- Every position of a highway that goes DOWN holds nothing (R15). -/
theorem endPositions_holdsNothing (n : HwId) (s : State) (hk : HootsOk s) (p : PosId) (hp : hwOfPos p = n) :
    HoldsNothing (endPositions n s) p :=
  each_establishes (R := fun s t => Wanes s t ∧ Kept s t) (I := HootsOk) (P := fun p t => HoldsNothing t p)
    (fun p t => ⟨wanes_endCallState .atEnd p .facility t, kept_endCallState .atEnd p .facility t⟩)
    (fun _ _ h => h.2.hoots) (fun p t => endCallState_holdsNothing .atEnd p .facility t)
    (fun _ _ _ h hn => hn.of_wanes h.1 h.2.camps) (positionsOf n) s hk p (by simp [positionsOf, hp])

/-! ## The holds of a position (R14 step 6) -/

theorem releaseHolds_owner (p : PosId) (c : Cause) (s : State) (L : LineId) :
    ((releaseHolds p c s).lines.get L).holdOwner ≠ some p :=
  each_establishes (R := Wanes) (I := fun _ => True) (P := fun L t => (t.lines.get L).holdOwner ≠ some p)
    (fun L t => (lineFrame_releaseHold L c t).wanes.ite (Wanes.refl t)) (fun _ _ _ h => h)
    (fun L t _ => by
      split
      · simp [releaseHold_owner]
      · assumption)
    (fun L _ _ h hn => by
      rcases h.owner L with e | e <;> rw [e]
      · exact hn
      · simp) (ids 192) s trivial L (by simp)

end

end Sys2Proof.Machine

namespace Sys2Proof.Machine
open Sys2Proof

section

/-! # Highways (R83, R84, R96, R100, R124, R194, R195) -/

/-! ## Folds over numbers -/

/-- What only one step of a fold changes stands as that step left it. -/
theorem each_own {α β : Type} (F : State → β) {f : α → State → State} {m : α}
    (h : ∀ x, x ≠ m → ∀ s, F (f x s) = F s) :
    ∀ (xs : List α) (s : State), xs.Nodup → m ∈ xs → ∃ u, F u = F s ∧ F (s.each xs f) = F (f m u)
  | [], _, _, hm => absurd hm List.not_mem_nil
  | x :: xs, s, hn, hm => by
    obtain ⟨hx, hn⟩ := List.nodup_cons.mp hn
    by_cases hxm : x = m
    · subst hxm
      refine ⟨s, rfl, ?_⟩
      have rest : ∀ (ys : List α) (t : State), x ∉ ys → F (t.each ys f) = F t := by
        intro ys
        induction ys with
        | nil => exact fun _ _ => rfl
        | cons y ys ih =>
          intro t ht
          rw [List.mem_cons, not_or] at ht
          obtain ⟨hy, ht⟩ := ht
          exact (ih (f y t) ht).trans (h y (Ne.symm hy) t)
      exact rest xs _ hx
    · obtain ⟨u, hu, he⟩ := each_own F h xs (f x s) hn (List.mem_of_ne_of_mem (Ne.symm hxm) hm)
      exact ⟨u, hu.trans (h x hxm s), he⟩

/-- What no step of a fold over these entries changes stands. -/
theorem each_other {α β : Type} (F : State → β) {f : α → State → State} :
    ∀ (xs : List α), (∀ x ∈ xs, ∀ s, F (f x s) = F s) → ∀ s : State, F (s.each xs f) = F s
  | [], _, _ => rfl
  | x :: xs, h, s => by
    rw [each_cons, each_other F xs fun y hy => h y (List.mem_cons_of_mem x hy)]
    exact h x List.mem_cons_self s

@[simp] theorem mem_linesOf {n : HwId} {L : LineId} : L ∈ linesOf n ↔ hwOfLine L = n := by simp [linesOf]

theorem nodup_linesOf (n : HwId) : (linesOf n).Nodup := (List.nodup_finRange 192).filter _

theorem mem_upHighways {t : Tab Highway 4} {n : HwId} : n ∈ upHighways t ↔ (t.get n).up = true := by simp [upHighways]

theorem nodup_upHighways (t : Tab Highway 4) : (upHighways t).Nodup := (List.nodup_finRange 4).filter _

/-! ## What a highway change keeps -/

/-- What `Kept` says of the settings, hoots and camp queues, where detectors may start anew (R96). -/
structure KeptButRings (s t : State) : Prop where
  frame : { t.frame with rings := s.rings } = s.frame
  posSet : ∀ p, (t.positions.get p).settings = (s.positions.get p).settings
  lineSet : ∀ L, (t.lines.get L).settings = (s.lines.get L).settings
  hoots : HootsOk s → HootsOk t
  camps : ∀ L, (t.lines.get L).camp.Sublist (s.lines.get L).camp

theorem Kept.butRings {s t : State} (h : Kept s t) : KeptButRings s t where
  frame := by rw [h.frame]; rfl
  posSet := h.posSet
  lineSet := h.lineSet
  hoots := h.hoots
  camps := h.camps

theorem KeptButRings.refl (s : State) : KeptButRings s s := (Kept.refl s).butRings

theorem KeptButRings.trans {s t u : State} (h : KeptButRings s t) (g : KeptButRings t u) : KeptButRings s u where
  frame := by
    have e := congrArg (fun f : Frame => { f with rings := s.rings }) g.frame
    exact e.trans h.frame
  posSet p := (g.posSet p).trans (h.posSet p)
  lineSet L := (g.lineSet L).trans (h.lineSet L)
  hoots := g.hoots ∘ h.hoots
  camps L := (g.camps L).trans (h.camps L)

theorem KeptButRings.each {α : Type} {f : α → State → State} (h : ∀ x s, KeptButRings s (f x s)) (xs : List α)
    (s : State) : KeptButRings s (s.each xs f) := each_rel KeptButRings.refl KeptButRings.trans h xs s

theorem keptButRings_restartDetector (L : LineId) (s : State) : KeptButRings s (restartDetector L s) :=
  ⟨rfl, fun _ => rfl, fun _ => rfl, id, fun _ => List.Sublist.refl _⟩

theorem keptButRings_resetSignalling (L : LineId) (s : State) : KeptButRings s (resetSignalling L s) :=
  ⟨rfl, fun _ => rfl, fun _ => rfl, id, fun _ => List.Sublist.refl _⟩

theorem keptButRings_endLines (n : HwId) (s : State) : KeptButRings s (endLines n s) := by
  unfold endLines
  refine KeptButRings.trans ?_ (Kept.each kept_legDown _ _).butRings
  exact (Kept.each kept_lineDown _ s).butRings.trans (KeptButRings.each keptButRings_resetSignalling _ _)

/-- A change of call state alone, where the untouched fields and the settings stand. -/
theorem onlyCalls_of {s t : State} (hf : State.frame { t with origin := s.origin } = s.frame)
    (hp : ∀ p, (t.positions.get p).settings = (s.positions.get p).settings)
    (hl : ∀ L, (t.lines.get L).settings = (s.lines.get L).settings) : onlyCalls s t :=
  ⟨state_eq hf rfl rfl rfl rfl rfl rfl rfl rfl rfl rfl rfl, hp, hl⟩

/-! ## Lines and signalling, once a highway is DOWN -/

/-- A line on the highway goes down, and its detector and generator start anew; the others stand (R83, R96, R100). -/
theorem endLines_get (n : HwId) (s : State) (L : LineId) :
    if hwOfLine L = n then (endLines n s).lines.get L = (s.lines.get L).down ∧
        (endLines n s).rings.get L = RingDet.start (samplesOf (s.lines.get L).sig.preQuiet) ∧
        (endLines n s).gens.get L = ⟨0, false⟩
      else (endLines n s).lines.get L = s.lines.get L ∧ (endLines n s).rings.get L = s.rings.get L ∧
        (endLines n s).gens.get L = s.gens.get L := by
  unfold endLines
  generalize hA : s.each (linesOf n) lineDown = tA
  generalize hB : tA.each (linesOf n) resetSignalling = tB
  have hkept : Kept s tA := hA ▸ Kept.each kept_lineDown _ s
  have hring : tA.rings = s.rings := (congrArg Frame.rings hkept.frame :)
  have hsig : (tA.lines.get L).sig = (s.lines.get L).sig := (congrArg Line.sig (hkept.lineSet L) :)
  have hleg (F : State → Line × RingDet × Generator)
      (h : ∀ M t, F (legDown M t) = F t) : F (tB.each (linesOf n) legDown) = F tB := each_same F h _ tB
  have hC := hleg (fun t => (t.lines.get L, t.rings.get L, t.gens.get L)) fun M t => by
    unfold legDown
    split <;> rfl
  simp only [Prod.mk.injEq] at hC
  obtain ⟨hCl, hCr, hCg⟩ := hC
  rw [hCl, hCr, hCg]
  have hlines : tB.lines = tA.lines := hB ▸ each_same State.lines (f := resetSignalling) (fun _ _ => rfl) _ tA
  rw [hlines]
  split
  · rename_i hn
    obtain ⟨u, hu, hd⟩ := each_own (fun t => t.lines.get L) (f := lineDown) (m := L)
      (fun M hM t => (lineFrame_lineDown M t).lines L (Ne.symm hM)) (linesOf n) s (nodup_linesOf n) (by simpa using hn)
    obtain ⟨v, hv, he⟩ := each_own (fun t => ((t.lines.get L).sig, t.rings.get L, t.gens.get L)) (f := resetSignalling)
      (m := L) (fun M hM t => by simp [resetSignalling, restartDetector, Ne.symm hM]) (linesOf n) tA (nodup_linesOf n)
      (by simpa using hn)
    rw [hA] at hd
    rw [hB] at he
    simp only [Prod.mk.injEq] at hv he
    refine ⟨?_, ?_, ?_⟩
    · rw [hd, lineDown_get, hu]
    · rw [he.2.1, ← hsig, ← hv.1]
      simp [resetSignalling, restartDetector]
    · rw [he.2.2]
      simp [resetSignalling]
  · rename_i hn
    have hne {M : LineId} (hM : M ∈ linesOf n) : L ≠ M := fun h => hn (h ▸ mem_linesOf.mp hM)
    have hdown := each_other (fun t => (t.lines.get L, t.gens.get L)) (f := lineDown) (linesOf n) (fun M hM t => by
      have hf := lineFrame_lineDown M t
      rw [hf.lines L (hne hM), (hf.gens L).resolve_right fun h => hne hM h.1]) s
    have hreset := each_other (fun t => (t.rings.get L, t.gens.get L)) (f := resetSignalling) (linesOf n)
      (fun M hM t => by simp [resetSignalling, restartDetector, hne hM]) tA
    rw [hA] at hdown
    rw [hB] at hreset
    simp only [Prod.mk.injEq] at hdown hreset
    exact ⟨hdown.1, hreset.1.trans (by rw [hring]), hreset.2.trans hdown.2⟩

end

end Sys2Proof.Machine

namespace Sys2Proof.Machine
open Sys2Proof

section

/-! ## Trunk legs (R124) -/

/-- A leg whose line is hit takes a leg state; the others stand. -/
def legMark (hit : LineId → Bool) (joined : Bool) (x : Leg) : Leg := if hit x.line then { x with joined := joined } else x

@[simp] theorem legMark_line (hit : LineId → Bool) (v : Bool) (x : Leg) : (legMark hit v x).line = x.line := by
  unfold legMark
  split <;> rfl

@[simp] theorem legMark_gain (hit : LineId → Bool) (v : Bool) (x : Leg) : (legMark hit v x).gain = x.gain := by
  unfold legMark
  split <;> rfl

theorem legMark_legMark (hit hit' : LineId → Bool) (v : Bool) (x : Leg) :
    legMark hit' v (legMark hit v x) = legMark (fun L => hit L || hit' L) v x := by
  unfold legMark
  by_cases h : hit x.line = true <;> by_cases h' : hit' x.line = true <;> simp [h, h']

theorem map_legMark_of_not_mem {hit : LineId → Bool} {v : Bool} {xs : List Leg} (h : ∀ x ∈ xs, hit x.line = false) :
    xs.map (legMark hit v) = xs :=
  (List.map_congr_left fun x hx => by simp [legMark, h x hx]).trans (List.map_id xs)

theorem map_legMark_legMark (hit hit' : LineId → Bool) (v : Bool) (xs : List Leg) :
    (xs.map (legMark hit v)).map (legMark hit' v) = xs.map (legMark (fun L => hit L || hit' L) v) := by
  simp [Function.comp_def, legMark_legMark]

/-- The legs of every hoot are on the same lines. -/
def SameLegLines (s t : State) : Prop :=
  ∀ d, (t.hoots.get d).map (fun h => h.legs.map Leg.line) = (s.hoots.get d).map fun h => h.legs.map Leg.line

theorem SameLegLines.of_hoots {s t u : State} (h : SameLegLines s t) (hu : u.hoots = t.hoots) : SameLegLines s u :=
  fun d => by rw [hu]; exact h d

/-- The hoot whose leg list names a line depends on the legs' lines alone. -/
theorem legOf_congr {s t : State} (h : SameLegLines s t) (L : LineId) : legOf t L = legOf s L := by
  have hany (g : Hoot) : (g.legs.any fun x => x.line = L) = (g.legs.map Leg.line).any (· = L) := by
    simp [Function.comp_def]
  unfold legOf
  congr 1
  funext d
  have hd := h d
  cases ht : t.hoots.get d <;> cases hs : s.hoots.get d <;> rw [ht, hs] at hd <;> simp at hd
  simp only [hany, hd]

/-- Hoot `b` is `h`, and shares no leg's line with another (R120). -/
def Alone (s : State) (b : BridgeId) (h : Hoot) : Prop := s.hoots.get b = some h ∧
  ∀ d g, s.hoots.get d = some g → d ≠ b → ∀ x ∈ g.legs, ∀ y ∈ h.legs, x.line ≠ y.line

theorem legOf_eq_some_iff {s : State} {b : BridgeId} {h : Hoot} (ha : Alone s b h) (L : LineId) :
    legOf s L = some b ↔ ∃ x ∈ h.legs, x.line = L := by
  constructor
  · intro hL
    have hp := List.find?_some hL
    simpa [ha.1] using hp
  · rintro ⟨x, hx, rfl⟩
    unfold legOf
    generalize hf : List.find? _ _ = r
    cases r with
    | none =>
      have hb := List.find?_eq_none.mp hf b (by simp)
      simp only [ha.1, List.any_eq_true, decide_eq_true_eq] at hb
      exact absurd ⟨x, hx, rfl⟩ hb
    | some d =>
      have hd := List.find?_some hf
      by_cases hdb : d = b
      · rw [hdb]
      · cases hg : s.hoots.get d with
        | none => simp [hg] at hd
        | some g =>
          simp only [hg, List.any_eq_true, decide_eq_true_eq] at hd
          obtain ⟨y, hy, e⟩ := hd
          exact absurd e (ha.2 d g hg hdb y hy x hx)

/-- A leg's record changed, on the hoot that has it, with its line. -/
theorem setLeg_hoots (d b : BridgeId) (L : LineId) (v : Bool) (s : State) :
    (setLeg d L (fun x => { x with joined := v }) s).hoots.get b =
      if b = d then (s.hoots.get b).map fun h => { h with legs := h.legs.map (legMark (· = L) v) }
      else s.hoots.get b := by
  simp only [setLeg, modHoot_hoots, Tab.get_modify]
  split
  · rename_i h
    subst h
    congr 1
    funext h
    congr 2
    funext x
    simp [legMark]
  · rfl

/-- What the speaker-box block does with line `L`, once its line block has taken the line down or up: the leg that the
line is takes its state (R124). -/
structure LegStep (v : Bool) (L : LineId) (t u : State) : Prop where
  hoots : ∀ b, u.hoots.get b = if legOf t L = some b then
      (t.hoots.get b).map fun h => { h with legs := h.legs.map (legMark (· = L) v) }
    else t.hoots.get b
  lines : u.lines = t.lines
  rings : u.rings = t.rings
  gens : u.gens = t.gens

theorem LegStep.sameLegLines {v : Bool} {L : LineId} {t u : State} (h : LegStep v L t u) : SameLegLines t u := fun b => by
  rw [h.hoots]
  split
  · cases t.hoots.get b <;> simp [Function.comp_def]
  · rfl

theorem legStep_legDown (L : LineId) (s : State) : LegStep false L s (legDown L s) := by
  unfold legDown
  split
  · rename_i d hd
    refine ⟨fun b => ?_, rfl, rfl, rfl⟩
    rw [outLeg, setLeg_hoots, hd]
    simp [eq_comm]
  · rename_i hd
    exact ⟨fun b => by simp [hd], rfl, rfl, rfl⟩

theorem legStep_legUp (L : LineId) (s : State) : LegStep true L s (legUp L s) := by
  unfold legUp
  split
  · rename_i d hd
    have hleg := List.find?_some hd
    unfold joinLeg
    split
    · rename_i h hh
      split
      · rename_i x hx
        dsimp only
        generalize hu : setLeg d L (fun y => { y with joined := true }) (join d (lineSource L) x.gain 0 .owner s) = u
        have hstep : LegStep true L s u := by
          rw [← hu]
          refine ⟨fun b => ?_, ?_, ?_, ?_⟩
          · rw [setLeg_hoots, join_hoots, hd]
            simp [eq_comm]
          · simp [setLeg]
          · exact (congrArg Frame.rings (join_frame d (lineSource L) x.gain 0 .owner s) :)
          · simp [setLeg]
        split
        · exact ⟨hstep.hoots, hstep.lines, hstep.rings, hstep.gens⟩
        · exact hstep
      · rename_i hx
        simp only [hh, List.any_eq_true, decide_eq_true_eq] at hleg
        obtain ⟨y, hy, e⟩ := hleg
        exact absurd e (by simpa using List.find?_eq_none.mp hx y hy)
    · rename_i hh
      simp [hh] at hleg
  · rename_i hd
    exact ⟨fun b => by simp [hd], rfl, rfl, rfl⟩

/-- The legs of a hoot that shares no line, once each line in a list has been taken. -/
theorem each_legStep {v : Bool} {f : LineId → State → State} (hf : ∀ L t, LegStep v L t (f L t)) {s : State}
    {b : BridgeId} {h : Hoot} (ha : Alone s b h) : ∀ (xs : List LineId) (t : State) (g : Hoot), SameLegLines s t →
      t.hoots.get b = some g →
      (t.each xs f).hoots.get b = some { g with legs := g.legs.map (legMark (· ∈ xs) v) } ∧ SameLegLines s (t.each xs f)
  | [], t, g, hs, hg => ⟨by rw [map_legMark_of_not_mem (by simp)]; exact hg, hs⟩
  | L :: xs, t, g, hs, hg => by
    have hstep := hf L t
    have hlines : g.legs.map Leg.line = h.legs.map Leg.line := by simpa [hg, ha.1] using hs b
    have hg' : (f L t).hoots.get b = some { g with legs := g.legs.map (legMark (· = L) v) } := by
      rw [hstep.hoots, legOf_congr hs, hg]
      split
      · rfl
      · rename_i hL
        rw [legOf_eq_some_iff ha] at hL
        have hmem : L ∉ g.legs.map Leg.line := by
          rw [hlines]
          simpa using hL
        rw [map_legMark_of_not_mem fun x hx => by
          simp only [decide_eq_false_iff_not]
          rintro rfl
          exact hmem (List.mem_map_of_mem hx)]
    have hs' : SameLegLines s (f L t) := fun d => (hstep.sameLegLines d).trans (hs d)
    obtain ⟨he, hse⟩ := each_legStep hf ha xs (f L t) _ hs' hg'
    refine ⟨he.trans ?_, hse⟩
    rw [map_legMark_legMark]
    simp

/-- What the block of the lines' highway leaves of the hoots: they stand until the legs are taken. -/
theorem endLines_legs {s : State} {b : BridgeId} {h : Hoot} (ha : Alone s b h) (n : HwId) (t : State) (g : Hoot)
    (hs : SameLegLines s t) (hg : t.hoots.get b = some g) :
    (endLines n t).hoots.get b = some { g with legs := g.legs.map (legMark (fun L => hwOfLine L = n) false) } ∧
      SameLegLines s (endLines n t) := by
  unfold endLines
  generalize hB : (t.each (linesOf n) lineDown).each (linesOf n) resetSignalling = tB
  have hhoots : tB.hoots = t.hoots := by
    rw [← hB, each_same State.hoots (f := resetSignalling) fun _ _ => rfl]
    exact each_same State.hoots (fun L u => (lineFrame_lineDown L u).hoots) _ t
  have hlegs := each_legStep legStep_legDown ha (linesOf n) tB g (hs.of_hoots hhoots) (by rw [hhoots]; exact hg)
  simpa using hlegs

/-- What the ends of several highways leave of the hoots. -/
theorem each_endLines_legs {s : State} {b : BridgeId} {h : Hoot} (ha : Alone s b h) :
    ∀ (ns : List HwId) (t : State) (g : Hoot), SameLegLines s t → t.hoots.get b = some g →
      (t.each ns endLines).hoots.get b = some { g with legs := g.legs.map (legMark (fun L => hwOfLine L ∈ ns) false) }
  | [], t, g, _, hg => by rw [map_legMark_of_not_mem (by simp)]; exact hg
  | n :: ns, t, g, hs, hg => by
    obtain ⟨hg', hs'⟩ := endLines_legs ha n t g hs hg
    refine (each_endLines_legs ha ns (endLines n t) _ hs' hg').trans ?_
    rw [map_legMark_legMark]
    simp

/-! ## The contributors of a hoot's bridge (R124) -/

/-- What a hoot's bridge shows of a contributor: its source and gain. -/
def Contrib.voice (c : Contrib) : SourceId × Nat := (c.source, c.gain)

/-- The sources and gains on a bridge, in the order of its list. -/
def State.voices (s : State) (b : BridgeId) : List (SourceId × Nat) := (s.bridges.get b).contributors.map Contrib.voice

theorem setShift_voices (d b : BridgeId) (sel : SourceId → Bool) (n : Nat) (s : State) :
    (setShift d sel n s).voices b = s.voices b := by
  simp only [State.voices, setShift, modBridge_bridges, Tab.get_modify]
  split
  · rename_i h
    subst h
    rw [List.map_map]
    refine List.map_congr_left fun c _ => ?_
    simp only [Function.comp_apply]
    split <;> rfl
  · rfl

theorem evalClash_voices (d b : BridgeId) (s : State) : (evalClash d s).voices b = s.voices b := by
  have hstart (h : Hoot) : (startClash d h s).voices b = s.voices b := by
    refine Eq.trans ?_ (setShift_voices d b h.reduced h.shift (s.modHoot d fun g => { g with clashing := true }))
    simp [State.voices, startClash]
  have hend (h : Hoot) : (endClash d h s).voices b = s.voices b := by
    refine Eq.trans ?_ (setShift_voices d b (fun _ => true) 0 (s.modHoot d fun g => { g with clashing := false }))
    simp [State.voices, endClash]
  unfold evalClash
  split
  · split
    · split
      · rfl
      · exact hstart _
    · split
      · exact hend _
      · rfl
  · rfl

theorem settleClash_voices (s t : State) (b : BridgeId) : (settleClash s t).voices b = t.voices b :=
  each_same (fun t => t.voices b) (fun d t => evalClash_voices d b t) _ t

/-- A source that leaves a bridge leaves its list (R23). -/
theorem leave_contributors (b : BridgeId) (x : SourceId) (s : State) :
    ((leave b x s).bridges.get b).contributors = (s.bridges.get b).contributors.filter fun c => c.source ≠ x := by
  simp only [leave, modBridge_bridges, Tab.get_modify_self]
  split
  · rename_i h
    refine (List.filter_eq_self.mpr fun c hc => ?_).symm
    simp only [Bridge.has, Bool.not_eq_true', List.any_eq_false, decide_eq_true_eq] at h
    simpa using h c hc
  · split <;> rfl

theorem lineSource_inj {L M : LineId} (h : lineSource L = lineSource M) : L = M := by
  simp only [lineSource, Fin.mk.injEq] at h
  exact Fin.ext (by omega)

/-- A line is a leg of a hoot. -/
def Hoot.hasLeg (h : Hoot) (L : LineId) : Bool := h.legs.any fun x => x.line = L

theorem legOf_eq_some_iff_hasLeg {s : State} {b : BridgeId} {h : Hoot} (ha : Alone s b h) (L : LineId) :
    legOf s L = some b ↔ h.hasLeg L = true := by
  rw [legOf_eq_some_iff ha]
  simp [Hoot.hasLeg]

/-- One leg that goes OUT leaves its hoot's bridge (R124). -/
theorem legDown_contributors (L : LineId) (b : BridgeId) (s : State) :
    ((legDown L s).bridges.get b).contributors = if legOf s L = some b then
        (s.bridges.get b).contributors.filter fun c => c.source ≠ lineSource L
      else (s.bridges.get b).contributors := by
  unfold legDown
  split
  · rename_i d hd
    have hout : (outLeg d L s).bridges = (leave d (lineSource L) s).bridges := rfl
    rw [hd, hout]
    by_cases hdb : d = b
    · subst hdb
      simp [leave_contributors]
    · have hbd : b ≠ d := Ne.symm hdb
      simp [leave, hbd, hdb]
  · rename_i hd
    simp [hd]

/-- The legs that go OUT leave the bridge of a hoot that shares no line with another. -/
theorem each_legDown_contributors {s : State} {b : BridgeId} {h : Hoot} (ha : Alone s b h) :
    ∀ (xs : List LineId) (t : State), SameLegLines s t →
      ((t.each xs legDown).bridges.get b).contributors = (t.bridges.get b).contributors.filter fun c =>
        c.source ∉ (xs.filter h.hasLeg).map lineSource
  | [], t, _ => by
    rw [List.filter_eq_self.mpr (by simp)]
    rfl
  | L :: xs, t, hs => by
    have hs' : SameLegLines s (legDown L t) := fun d => ((legStep_legDown L t).sameLegLines d).trans (hs d)
    have hleg : legOf t L = some b ↔ h.hasLeg L = true := by rw [legOf_congr hs, legOf_eq_some_iff_hasLeg ha]
    rw [each_cons, each_legDown_contributors ha xs (legDown L t) hs', legDown_contributors]
    by_cases hL : h.hasLeg L = true
    · rw [if_pos (hleg.mpr hL), List.filter_filter, List.filter_cons_of_pos hL]
      refine List.filter_congr fun c _ => ?_
      simp [Bool.and_comm]
    · rw [if_neg fun e => hL (hleg.mp e), List.filter_cons_of_neg hL]

/-- The sources and gains with which the legs on these lines join a bridge (R122, R124). -/
def Hoot.legVoices (h : Hoot) (xs : List LineId) : List (SourceId × Nat) :=
  xs.filterMap fun L => (h.legs.find? fun x => x.line = L).map fun x => (lineSource L, min x.gain 4095)

theorem mem_legVoices {h : Hoot} {xs : List LineId} {y : SourceId × Nat} (hy : y ∈ h.legVoices xs) :
    ∃ L ∈ xs, y.1 = lineSource L := by
  obtain ⟨L, hL, e⟩ := List.mem_filterMap.mp hy
  obtain ⟨x, _, rfl⟩ := Option.map_eq_some_iff.mp e
  exact ⟨L, hL, rfl⟩

/-- Leg states play no part in the sources and gains. -/
theorem legVoices_mark (h : Hoot) (hit : LineId → Bool) (v : Bool) (xs : List LineId) :
    Hoot.legVoices { h with legs := h.legs.map (legMark hit v) } xs = h.legVoices xs := by
  unfold Hoot.legVoices
  congr 1
  funext L
  simp [List.find?_map, Function.comp_def]

/-- A source joins a bridge that does not have it and has room (R22). -/
theorem join_voices {b : BridgeId} {x : SourceId} {s : State} (hhas : (s.bridges.get b).has x = false)
    (hroom : (s.bridges.get b).contributors.length < 12) (gain shift : Nat) (o : Origin) :
    (join b x gain shift o s).voices b = s.voices b ++ [(x, min gain 4095)] := by
  have hans : joinAnswer s b x = none := by
    simp [joinAnswer, hhas, Config.maxContributors, Nat.not_le.mpr hroom]
  unfold join
  rw [hans]
  simp [State.voices, Bridge.rearm, Bridge.reflag, Contrib.voice]

theorem has_eq_false_iff (s : State) (b : BridgeId) (x : SourceId) :
    (s.bridges.get b).has x = false ↔ ∀ y ∈ s.voices b, y.1 ≠ x := by
  simp [Bridge.has, State.voices, Contrib.voice]

/-- One leg that rejoins its hoot joins its bridge (R124). -/
theorem legUp_voices {b : BridgeId} {h : Hoot} {s : State} {L : LineId} (hh : s.hoots.get b = some h)
    (hleg : legOf s L = some b ↔ h.hasLeg L = true) (hfree : ∀ y ∈ h.legVoices [L], (s.bridges.get b).has y.1 = false)
    (hroom : (s.voices b).length + (h.legVoices [L]).length ≤ 12) :
    (legUp L s).voices b = s.voices b ++ h.legVoices [L] := by
  cases hx : h.legs.find? fun x => x.line = L with
  | none =>
    have hno : ¬ h.hasLeg L = true := by simpa [Hoot.hasLeg] using hx
    have hv : h.legVoices [L] = [] := by simp [Hoot.legVoices, hx]
    rw [hv, List.append_nil]
    unfold legUp
    split
    · rename_i d hd
      have hdb : b ≠ d := fun e => hno (hleg.mp (e ▸ hd))
      unfold State.voices
      congr 2
      unfold joinLeg
      split
      · split
        · dsimp only
          split <;> simp [setShift, setLeg, (talkFrame_join d _ _ _ _ s).bridges b hdb, hdb]
        · rfl
      · rfl
    · rfl
  | some x =>
    have hxL : x.line = L := by simpa using List.find?_some hx
    have hv : h.legVoices [L] = [(lineSource L, min x.gain 4095)] := by simp [Hoot.legVoices, hx]
    have hb : legOf s L = some b :=
      hleg.mpr (List.any_eq_true.mpr ⟨x, List.mem_of_find?_eq_some hx, by simpa using hxL⟩)
    rw [hv] at hfree hroom ⊢
    have hjoin := join_voices (hfree (lineSource L, min x.gain 4095) (by simp)) (by simpa [State.voices] using hroom) x.gain 0 .owner
    rw [← hjoin]
    unfold legUp joinLeg
    simp only [hb, hh, hx]
    split
    · rw [setShift_voices]
      rfl
    · rfl

/-- The legs that become JOINED join the bridge of a hoot that shares no line with another, in their order. -/
theorem each_legUp_voices {s : State} {b : BridgeId} {h : Hoot} (ha : Alone s b h) :
    ∀ (xs : List LineId) (t : State) (g : Hoot), xs.Nodup → SameLegLines s t → t.hoots.get b = some g →
      (∀ y ∈ g.legVoices xs, (t.bridges.get b).has y.1 = false) →
      (t.voices b).length + (g.legVoices xs).length ≤ 12 →
      (t.each xs legUp).voices b = t.voices b ++ g.legVoices xs
  | [], t, g, _, _, _, _, _ => by simp [Hoot.legVoices]
  | L :: xs, t, g, hn, hs, hg, hfree, hroom => by
    obtain ⟨hL, hn⟩ := List.nodup_cons.mp hn
    have hsplit : g.legVoices (L :: xs) = g.legVoices [L] ++ g.legVoices xs := by
      unfold Hoot.legVoices
      rw [← List.filterMap_append]
      rfl
    rw [hsplit] at hfree hroom ⊢
    rw [List.length_append] at hroom
    have hlines : g.legs.map Leg.line = h.legs.map Leg.line := by simpa [hg, ha.1] using hs b
    have hleg : legOf t L = some b ↔ g.hasLeg L = true := by
      rw [legOf_congr hs, legOf_eq_some_iff_hasLeg ha]
      have hany (k : Hoot) : k.hasLeg L = (k.legs.map Leg.line).any (· = L) := by
        simp [Hoot.hasLeg, Function.comp_def]
      rw [hany, hany, hlines]
    have hone := legUp_voices hg hleg (fun y hy => hfree y (by simp [hy])) (by omega)
    obtain ⟨hg', hs'⟩ := each_legStep legStep_legUp ha [L] t g hs hg
    have hrest := each_legUp_voices ha xs (legUp L t) _ hn hs' hg' (fun y hy => ?_) ?_
    · rw [legVoices_mark] at hrest
      rw [each_cons, hrest, hone, List.append_assoc]
    · rw [legVoices_mark] at hy
      obtain ⟨M, hM, hyM⟩ := mem_legVoices hy
      rw [has_eq_false_iff, hone]
      intro z hz
      rcases List.mem_append.mp hz with hz | hz
      · exact (has_eq_false_iff t b y.1).mp (hfree y (by simp [hy])) z hz
      · obtain ⟨N, hN, hzN⟩ := mem_legVoices hz
        rw [List.mem_singleton] at hN
        rw [hyM, hzN, hN]
        exact fun e => hL (lineSource_inj e ▸ hM)
    · rw [legVoices_mark, hone, List.length_append]
      omega

end

end Sys2Proof.Machine

namespace Sys2Proof.Machine
open Sys2Proof

section

/-! ## Bridges and lines while others end -/

/-- A bridge that is no line's, with OWNER entries alone, stands while lines go down (R83). -/
theorem each_lineDown_bridge {b : BridgeId} : ∀ (xs : List LineId) (s : State),
    (∀ L, (s.lines.get L).bridge ≠ some b) → (∀ c ∈ (s.bridges.get b).contributors, c.origin = .owner) →
    (s.each xs lineDown).bridges.get b = s.bridges.get b
  | [], _, _, _ => rfl
  | L :: xs, s, hno, ho => by
    have hf := lineFrame_lineDown L s
    have hb := hf.bridges b (hno L) ho
    have hno' (M : LineId) : ((lineDown L s).lines.get M).bridge ≠ some b := by
      by_cases hM : M = L
      · rcases hf.bridge with e | e <;> rw [hM, e]
        · exact hno L
        · simp
      · rw [hf.lines M hM]
        exact hno M
    rw [each_cons, each_lineDown_bridge xs (lineDown L s) hno' (by rw [hb]; exact ho), hb]

/-- The bridge of a hoot that shares no line loses the sources of the legs on a highway that goes DOWN (R124). -/
theorem endLines_contributors {s : State} {b : BridgeId} {h : Hoot} (ha : Alone s b h) (n : HwId)
    (hno : ∀ L, (s.lines.get L).bridge ≠ some b) (ho : ∀ c ∈ (s.bridges.get b).contributors, c.origin = .owner) :
    ((endLines n s).bridges.get b).contributors = (s.bridges.get b).contributors.filter fun c =>
      c.source ∉ ((linesOf n).filter h.hasLeg).map lineSource := by
  unfold endLines
  generalize hB : (s.each (linesOf n) lineDown).each (linesOf n) resetSignalling = tB
  have hhoots : tB.hoots = s.hoots := by
    rw [← hB, each_same State.hoots (f := resetSignalling) fun _ _ => rfl]
    exact each_same State.hoots (fun L u => (lineFrame_lineDown L u).hoots) _ s
  have hbridge : tB.bridges.get b = s.bridges.get b := by
    rw [← hB, each_same (fun t => t.bridges.get b) (f := resetSignalling) fun _ _ => rfl]
    exact each_lineDown_bridge _ s hno ho
  have hsame : SameLegLines s tB := SameLegLines.of_hoots (t := s) (fun _ => rfl) hhoots
  rw [each_legDown_contributors ha (linesOf n) tB hsame, hbridge]

/-- What the loss of a line highway has made of a line (R83): OUT_OF_SERVICE, nobody camped, no timer and no flag. -/
structure OffLine (r : Line) : Prop where
  state : r.state = .outOfService
  camp : r.camp = []
  timer : r.timer = none
  farPresent : r.farPresent = false
  pendingRing : r.pendingRing = false

/-- A line with no holder, no monitor and no bridge. -/
structure BareLine (r : Line) : Prop where
  holders : r.holders = []
  monitors : r.monitors = []
  bridge : r.bridge = none

theorem Line.down_off {r : Line} (h : r.state ≠ .disabled) : OffLine r.down := by
  rw [Line.down, if_neg h]
  exact ⟨rfl, rfl, rfl, rfl, rfl⟩

theorem Line.down_bare {r : Line} (h : r.state = .connected) : BareLine r.down := by
  rw [Line.down, if_neg (by simp [h])]
  exact ⟨by simp [Line.stripped, h], by simp [Line.stripped, h], by simp [Line.stripped, h]⟩

/-- A line that is off stays off, and bare when it is bare. -/
structure OffKept (s t : State) (L : LineId) : Prop where
  off : OffLine (s.lines.get L) → OffLine (t.lines.get L)
  bare : OffLine (s.lines.get L) → BareLine (s.lines.get L) → BareLine (t.lines.get L)

theorem OffKept.of_eq {s t : State} {L : LineId} (h : t.lines.get L = s.lines.get L) : OffKept s t L :=
  ⟨fun k => h ▸ k, fun _ k => h ▸ k⟩

theorem OffKept.trans {s t u : State} {L : LineId} (h : OffKept s t L) (g : OffKept t u L) : OffKept s u L :=
  ⟨fun k => g.off (h.off k), fun k j => g.bare (h.off k) (h.bare k j)⟩

theorem OffKept.each {α : Type} {f : α → State → State} {L : LineId} (h : ∀ x s, OffKept s (f x s) L) (xs : List α)
    (s : State) : OffKept s (s.each xs f) L := 
  each_rel (R := fun s t => OffKept s t L) (fun _ => OffKept.of_eq rfl) OffKept.trans h xs s

/-- An operation on one line leaves every other. -/
theorem LineFrame.offKept {M L : LineId} {s t : State} (h : LineFrame M s t) (hself : M = L → OffKept s t L) :
    OffKept s t L := by
  by_cases hM : M = L
  · exact hself hM
  · exact OffKept.of_eq (h.lines L (Ne.symm hM))

theorem offKept_campRemove (M L : LineId) (p : PosId) (c : Cause) (s : State) : OffKept s (campRemove M p c s) L :=
  (lineFrame_campRemove M p c s).offKept fun h => by
    subst h
    have hsame (k : OffLine (s.lines.get M)) : campRemove M p c s = s := by simp [campRemove, k.camp]
    exact ⟨fun k => by rw [hsame k]; exact k, fun k j => by rw [hsame k]; exact j⟩

theorem offKept_endMonitor (M L : LineId) (x : PosId × Endpoint) (c : Cause) (s : State) :
    OffKept s (endMonitor M x c s) L :=
  (lineFrame_endMonitor M x c s).offKept fun h => by
    subst h
    have hget : (endMonitor M x c s).lines.get M =
        { s.lines.get M with monitors := (s.lines.get M).monitors.filter (· ≠ x) } := by simp [endMonitor_lines]
    refine ⟨fun k => ?_, fun _ j => ?_⟩ <;> rw [hget]
    · exact ⟨k.state, k.camp, k.timer, k.farPresent, k.pendingRing⟩
    · exact ⟨j.holders, by simp [j.monitors], j.bridge⟩

theorem offKept_dropHolder (M L : LineId) (x : PosId × Endpoint) (c : Cause) (keep : Bool) (s : State) :
    OffKept s (dropHolder M x c keep s) L :=
  (lineFrame_dropHolder M x c keep s).offKept fun h => by
    subst h
    have hget : (endHolder M x c keep s).lines.get M =
        { s.lines.get M with holders := (s.lines.get M).holders.filter (· ≠ x) } := by simp [endHolder_lines]
    have hend (k : OffLine (s.lines.get M)) : dropHolder M x c keep s = endHolder M x c keep s := by
      have hs : ((endHolder M x c keep s).lines.get M).state = .outOfService := by rw [hget]; exact k.state
      simp [dropHolder, hs]
    refine ⟨fun k => ?_, fun k j => ?_⟩ <;> rw [hend k, hget]
    · exact ⟨k.state, k.camp, k.timer, k.farPresent, k.pendingRing⟩
    · exact ⟨by simp [j.holders], j.monitors, j.bridge⟩

/-- The end of a position's call state leaves a line that is off as it is (R15). -/
theorem offKept_endCallState (w : ClashEval) (p : PosId) (c : Cause) (s : State) (L : LineId) :
    OffKept s (endCallState w p c s) L := by
  unfold endCallState
  refine OffKept.trans ?_ (OffKept.each (fun e t => ?_) _ _)
  · refine OffKept.trans ?_ (OffKept.each (fun e t => ?_) _ _)
    · refine OffKept.trans (OffKept.of_eq ?_) (OffKept.each (fun M t => offKept_campRemove M L p c t) _ _)
      have htalk (t : State) : (endAllTalk w p c t).lines = t.lines := by
        unfold endAllTalk endLineTalkOf
        have hall := each_same State.lines (fun b u => (endTalk_frame w b p c u).1.lines) (ids 96) t
        split
        · exact hall
        · split <;> simpa using hall
        · simpa using hall
      rw [htalk, (icmFrame_icmTeardown p c s).lines]
    · unfold dropMonitorAt
      split
      · exact offKept_endMonitor ..
      · exact OffKept.of_eq rfl
  · unfold dropHolderAt
    split
    · exact offKept_dropHolder ..
    · exact OffKept.of_eq rfl

theorem offKept_endPositions (n : HwId) (s : State) (L : LineId) : OffKept s (endPositions n s) L :=
  OffKept.each (fun p t => offKept_endCallState .atEnd p .facility t L) _ s

/-! ## The clash evaluations at the end of an event (R135) -/

@[simp] theorem settleClash_lines (s t : State) : (settleClash s t).lines = t.lines :=
  each_same State.lines (fun b u => (talkFrame_evalClash b u).lines) _ t

@[simp] theorem settleClash_gens (s t : State) : (settleClash s t).gens = t.gens :=
  each_same State.gens (fun b u => (talkFrame_evalClash b u).gens) _ t

@[simp] theorem settleClash_frame (s t : State) : (settleClash s t).frame = t.frame := (kept_settleClash s t).frame

@[simp] theorem settleClash_rings (s t : State) : (settleClash s t).rings = t.rings :=
  (congrArg Frame.rings (settleClash_frame s t) :)

/-! ## Lines, once a highway is UP (R84, R96, R124) -/

/-- A line record once its highway is UP (R84). -/
def Line.up (r : Line) : Line := { r with state := if r.state = .outOfService then .idle else r.state }

theorem lineUp_lines (L : LineId) (s : State) : (lineUp L s).lines = s.lines.modify L Line.up := by
  unfold lineUp
  split
  · rename_i h
    simp only [enterState, enterStateTo, reportChange_lines, modLine_lines]
    apply Tab.modify_congr
    simp [Line.up, h]
  · rename_i h
    refine (Tab.modify_eq_self ?_).symm
    simp [Line.up, h]

/-- A line that comes UP changes its own record and the links alone. -/
theorem lineUp_rest (L : LineId) (s : State) : (lineUp L s).bridges = s.bridges ∧ (lineUp L s).hoots = s.hoots ∧
    (lineUp L s).gens = s.gens := by
  unfold lineUp enterState enterStateTo reportChange
  split
  · split <;> exact ⟨rfl, rfl, rfl⟩
  · exact ⟨rfl, rfl, rfl⟩

/-- What the coming UP of line highway `n` begins, before the clash evaluations: lines, detectors, legs. -/
def startLines (n : HwId) (s : State) : State :=
  s.each (linesOf n) lineUp |>.each (linesOf n) restartDetector |>.each (linesOf n) legUp

theorem lineHighwayUp_eq (n : HwId) (s : State) :
    lineHighwayUp n s = settleClash s (startLines n { s with lineHw := s.lineHw.set n ⟨true, 0, 0⟩ }) := rfl

theorem keptButRings_startLines (n : HwId) (s : State) : KeptButRings s (startLines n s) := by
  unfold startLines
  refine KeptButRings.trans ?_ (Kept.each kept_legUp _ _).butRings
  exact (Kept.each kept_lineUp _ s).butRings.trans (KeptButRings.each keptButRings_restartDetector _ _)

theorem startLines_get (n : HwId) (s : State) (L : LineId) :
    (if hwOfLine L = n then (startLines n s).lines.get L = (s.lines.get L).up ∧
        (startLines n s).rings.get L = RingDet.start (samplesOf (s.lines.get L).sig.preQuiet)
      else (startLines n s).lines.get L = s.lines.get L ∧ (startLines n s).rings.get L = s.rings.get L) ∧
    (startLines n s).gens = s.gens := by
  unfold startLines
  generalize hA : s.each (linesOf n) lineUp = tA
  generalize hB : tA.each (linesOf n) restartDetector = tB
  have hkept : Kept s tA := hA ▸ Kept.each kept_lineUp _ s
  have hring : tA.rings = s.rings := (congrArg Frame.rings hkept.frame :)
  have hsig : (tA.lines.get L).sig = (s.lines.get L).sig := (congrArg Line.sig (hkept.lineSet L) :)
  have hgens : tA.gens = s.gens := hA ▸ each_same State.gens (fun M t => (lineUp_rest M t).2.2) _ s
  rw [each_same State.lines fun M t => (legStep_legUp M t).lines, each_same State.rings fun M t => (legStep_legUp M t).rings,
    each_same State.gens fun M t => (legStep_legUp M t).gens]
  have hlines : tB.lines = tA.lines := hB ▸ each_same State.lines (f := restartDetector) (fun _ _ => rfl) _ tA
  have hgens' : tB.gens = tA.gens := hB ▸ each_same State.gens (f := restartDetector) (fun _ _ => rfl) _ tA
  rw [hlines]
  refine ⟨?_, hgens'.trans hgens⟩
  split
  · rename_i hn
    obtain ⟨u, hu, hd⟩ := each_own (fun t => t.lines.get L) (f := lineUp) (m := L)
      (fun M hM t => by simp [lineUp_lines, Ne.symm hM]) (linesOf n) s (nodup_linesOf n) (by simpa using hn)
    obtain ⟨v, hv, he⟩ := each_own (fun t => ((t.lines.get L).sig, t.rings.get L)) (f := restartDetector)
      (m := L) (fun M hM t => by simp [restartDetector, Ne.symm hM]) (linesOf n) tA (nodup_linesOf n) (by simpa using hn)
    rw [hA] at hd
    rw [hB] at he
    simp only [Prod.mk.injEq] at hv he
    refine ⟨?_, ?_⟩
    · rw [hd, lineUp_lines, Tab.get_modify_self, hu]
    · rw [he.2, ← hsig, ← hv.1]
      simp [restartDetector]
  · rename_i hn
    have hne {M : LineId} (hM : M ∈ linesOf n) : L ≠ M := fun h => hn (h ▸ mem_linesOf.mp hM)
    have hup := each_other (fun t => t.lines.get L) (f := lineUp) (linesOf n)
      (fun M hM t => by simp [lineUp_lines, hne hM]) s
    have hstart := each_other (fun t => t.rings.get L) (f := restartDetector) (linesOf n)
      (fun M hM t => by simp [restartDetector, hne hM]) tA
    rw [hA] at hup
    rw [hB] at hstart
    exact ⟨hup, hstart.trans (by rw [hring])⟩

/-- What the legs become of a hoot that shares no line, and what joins its bridge. -/
theorem startLines_legs {s : State} {b : BridgeId} {h : Hoot} (ha : Alone s b h) (n : HwId) :
    (startLines n s).hoots.get b = some { h with legs := h.legs.map (legMark (fun L => hwOfLine L = n) true) } ∧
      ((∀ y ∈ h.legVoices (linesOf n), (s.bridges.get b).has y.1 = false) →
        (s.voices b).length + (h.legVoices (linesOf n)).length ≤ 12 →
        (startLines n s).voices b = s.voices b ++ h.legVoices (linesOf n)) := by
  unfold startLines
  generalize hB : (s.each (linesOf n) lineUp).each (linesOf n) restartDetector = tB
  have hhoots : tB.hoots = s.hoots := by
    rw [← hB, each_same State.hoots (f := restartDetector) fun _ _ => rfl]
    exact each_same State.hoots (fun L u => (lineUp_rest L u).2.1) _ s
  have hbridges : tB.bridges = s.bridges := by
    rw [← hB, each_same State.bridges (f := restartDetector) fun _ _ => rfl]
    exact each_same State.bridges (fun L u => (lineUp_rest L u).1) _ s
  have hsame : SameLegLines s tB := SameLegLines.of_hoots (t := s) (fun _ => rfl) hhoots
  have hg : tB.hoots.get b = some h := by rw [hhoots]; exact ha.1
  have hv : tB.voices b = s.voices b := by simp only [State.voices, hbridges]
  refine ⟨?_, fun hfree hroom => ?_⟩
  · simpa using (each_legStep legStep_legUp ha (linesOf n) tB h hsame hg).1
  · rw [← hv] at hroom ⊢
    exact each_legUp_voices ha (linesOf n) tB h (nodup_linesOf n) hsame hg (by rw [hbridges]; exact hfree) hroom

end

end Sys2Proof.Machine

namespace Sys2Proof.Machine
open Sys2Proof

section

/-! ## The events themselves -/

/-- A hoot that a fold of Wanes steps leaves has the legs it had. -/
theorem Wanes.hoot_legs {s t : State} (h : Wanes s t) {b : BridgeId} {g : Hoot} (hg : s.hoots.get b = some g) :
    ∃ g', t.hoots.get b = some g' ∧ g'.legs = g.legs := by
  have hl := h.legs b
  rw [hg] at hl
  obtain ⟨g', hg', e⟩ := Option.map_eq_some_iff.mp hl
  exact ⟨g', hg', e⟩

/-- A position highway that goes DOWN (R15, R194). -/
theorem posHighwayDown_taken (n : HwId) (s : State) (hk : HootsOk s) :
    (posHighwayDown n s).posHw = s.posHw.set n ⟨false, 0, 0⟩ ∧
      (∀ p, hwOfPos p = n → HoldsNothing (posHighwayDown n s) p) ∧
      Kept { s with posHw := s.posHw.set n ⟨false, 0, 0⟩ } (posHighwayDown n s) := by
  unfold posHighwayDown
  generalize hs : ({ s with posHw := s.posHw.set n ⟨false, 0, 0⟩ } : State) = s1
  have hk1 : HootsOk s1 := by rw [← hs]; exact hk
  have hkept : Kept s1 (settleClash s (endPositions n s1)) := (kept_endPositions n s1).trans (kept_settleClash _ _)
  refine ⟨(congrArg Frame.posHw hkept.frame :).trans (by rw [← hs]; rfl), fun p hp => ?_, hkept⟩
  exact (endPositions_holdsNothing n s1 hk1 p hp).of_wanes (wanes_settleClash _ _) (kept_settleClash _ _).camps

/-- The legs whose lines are on a highway, as the statement of O52 writes their entries. -/
theorem hasLeg_source_iff (h : Hoot) (n : HwId) (x : SourceId) :
    x ∈ ((linesOf n).filter h.hasLeg).map lineSource ↔
      (h.legs.any fun y => decide (hwOfLine y.line = n) && decide (lineSource y.line = x)) = true := by
  simp only [List.mem_map, List.mem_filter, mem_linesOf, Hoot.hasLeg, List.any_eq_true, decide_eq_true_eq,
    Bool.and_eq_true]
  constructor
  · rintro ⟨L, ⟨hn, y, hy, rfl⟩, rfl⟩
    exact ⟨y, hy, hn, rfl⟩
  · rintro ⟨y, hy, hn, rfl⟩
    exact ⟨y.line, ⟨hn, y, hy, rfl⟩, rfl⟩

/-- The voices of the legs on a highway, as the statement of O52 writes them. -/
theorem legVoices_linesOf (h : Hoot) (n : HwId) : h.legVoices (linesOf n) = (List.finRange 192).filterMap fun L =>
    if hwOfLine L = n then (h.legs.find? fun x => x.line = L).map fun x => (lineSource L, min x.gain 4095) else none := by
  simp [Hoot.legVoices, linesOf, ids, List.filterMap_filter]

/-- A line highway that goes DOWN: its lines, and the hoots that share no line (R83, R96, R100, R124). -/
theorem lineHighwayDown_taken (n : HwId) (s : State) :
    KeptButRings { s with lineHw := s.lineHw.set n ⟨false, 0, 0⟩ } (lineHighwayDown n s) ∧
      (∀ L, if hwOfLine L = n then (lineHighwayDown n s).lines.get L = (s.lines.get L).down ∧
          (lineHighwayDown n s).rings.get L = RingDet.start (samplesOf (s.lines.get L).sig.preQuiet) ∧
          (lineHighwayDown n s).gens.get L = ⟨0, false⟩
        else (lineHighwayDown n s).lines.get L = s.lines.get L ∧ (lineHighwayDown n s).rings.get L = s.rings.get L ∧
          (lineHighwayDown n s).gens.get L = s.gens.get L) ∧
      ∀ b h, Alone s b h →
        (∃ h', (lineHighwayDown n s).hoots.get b = some h' ∧
          h'.legs = h.legs.map (legMark (fun L => hwOfLine L = n) false)) ∧
        ((∀ L, (s.lines.get L).bridge ≠ some b) → (∀ c ∈ (s.bridges.get b).contributors, c.origin = .owner) →
          (lineHighwayDown n s).voices b = ((s.bridges.get b).contributors.filter fun c =>
            c.source ∉ ((linesOf n).filter h.hasLeg).map lineSource).map Contrib.voice) := by
  unfold lineHighwayDown
  generalize hs : ({ s with lineHw := s.lineHw.set n ⟨false, 0, 0⟩ } : State) = s1
  refine ⟨(keptButRings_endLines n s1).trans (kept_settleClash _ _).butRings, fun L => ?_, fun b h ha => ⟨?_, ?_⟩⟩
  · rw [settleClash_lines, settleClash_rings, settleClash_gens]
    have hget := endLines_get n s1 L
    rw [← hs] at hget ⊢
    exact hget
  · have hlegs := (endLines_legs (s := s) ha n s1 h (by rw [← hs]; exact fun _ => rfl) (by rw [← hs]; exact ha.1)).1
    exact (wanes_settleClash s (endLines n s1)).hoot_legs hlegs
  · intro hno ho
    rw [settleClash_voices, State.voices]
    have hb := endLines_contributors (s := s1) (b := b) (h := h) (by rw [← hs]; exact ha) n (by rw [← hs]; exact hno)
      (by rw [← hs]; exact ho)
    rw [hb, ← hs]

/-- A line highway that comes UP: its lines, and the hoots that share no line (R84, R96, R124). -/
theorem lineHighwayUp_taken (n : HwId) (s : State) :
    KeptButRings { s with lineHw := s.lineHw.set n ⟨true, 0, 0⟩ } (lineHighwayUp n s) ∧
      (lineHighwayUp n s).gens = s.gens ∧
      (∀ L, if hwOfLine L = n then (lineHighwayUp n s).lines.get L = (s.lines.get L).up ∧
          (lineHighwayUp n s).rings.get L = RingDet.start (samplesOf (s.lines.get L).sig.preQuiet)
        else (lineHighwayUp n s).lines.get L = s.lines.get L ∧ (lineHighwayUp n s).rings.get L = s.rings.get L) ∧
      ∀ b h, Alone s b h →
        (∃ h', (lineHighwayUp n s).hoots.get b = some h' ∧
          h'.legs = h.legs.map (legMark (fun L => hwOfLine L = n) true)) ∧
        ((∀ y ∈ h.legVoices (linesOf n), (s.bridges.get b).has y.1 = false) →
          (s.bridges.get b).contributors.length + (h.legVoices (linesOf n)).length ≤ 12 →
          (lineHighwayUp n s).voices b = s.voices b ++ h.legVoices (linesOf n)) := by
  rw [lineHighwayUp_eq]
  generalize hs : ({ s with lineHw := s.lineHw.set n ⟨true, 0, 0⟩ } : State) = s1
  refine ⟨(keptButRings_startLines n s1).trans (kept_settleClash _ _).butRings, ?_, fun L => ?_, fun b h ha => ⟨?_, ?_⟩⟩
  · rw [settleClash_gens, (startLines_get n s1 0).2, ← hs]
  · rw [settleClash_lines, settleClash_rings]
    have hget := (startLines_get n s1 L).1
    rw [← hs] at hget ⊢
    exact hget
  · exact (wanes_settleClash s _).hoot_legs (startLines_legs (s := s1) (by rw [← hs]; exact ha) n).1
  · intro hfree hroom
    rw [settleClash_voices]
    have hv := (startLines_legs (s := s1) (b := b) (h := h) (by rw [← hs]; exact ha) n).2
    rw [← hs] at hv ⊢
    exact hv hfree (by simpa [State.voices] using hroom)

/-- The state in which FRAME_SYNC_ABSENT hands on the DOWN of the highways: the frame sync ABSENT, every highway DOWN
with both counts 0 (R195). -/
def syncGone (s : State) : State := zeroCounts { s with
  syncPresent := false
  posHw := s.posHw.map fun h => { h with up := false }
  lineHw := s.lineHw.map fun h => { h with up := false } }

theorem syncLost_eq (s : State) : syncLost s = settleClash s
    (((syncGone s).each (upHighways s.lineHw) endLines).each (upHighways s.posHw) endPositions) := rfl

theorem syncGone_hw (s : State) (n : HwId) :
    (syncGone s).posHw.get n = ⟨false, 0, 0⟩ ∧ (syncGone s).lineHw.get n = ⟨false, 0, 0⟩ := by
  simp [syncGone, zeroCounts]

/-- The lines and signalling of every highway that was UP, once all of them are DOWN (R83, R96, R100, R195). -/
theorem each_endLines_get (s t : State) (ht : t.lines = s.lines) {L : LineId} (hL : s.lineUp L = true) :
    (t.each (upHighways s.lineHw) endLines).lines.get L = (s.lines.get L).down ∧
      (t.each (upHighways s.lineHw) endLines).rings.get L = RingDet.start (samplesOf (s.lines.get L).sig.preQuiet) ∧
      (t.each (upHighways s.lineHw) endLines).gens.get L = ⟨0, false⟩ := by
  obtain ⟨u, hu, he⟩ := each_own (fun t => (t.lines.get L, t.rings.get L, t.gens.get L)) (f := endLines) (m := hwOfLine L)
    (fun n hn u => by
      have h := endLines_get n u L
      rw [if_neg (Ne.symm hn)] at h
      simp [h])
    (upHighways s.lineHw) t (nodup_upHighways _) (mem_upHighways.mpr hL)
  have h := endLines_get (hwOfLine L) u L
  rw [if_pos rfl] at h
  simp only [Prod.mk.injEq] at hu he
  rw [hu.1, ht] at h
  exact ⟨he.1.trans h.1, he.2.1.trans h.2.1, he.2.2.trans h.2.2⟩

/-- The loss of the frame sync: every line of an UP highway is off, every position of one holds nothing, and the legs on
UP highways are OUT (R124, R195). -/
theorem syncLost_taken (s : State) (hk : HootsOk s) :
    KeptButRings (syncGone s) (syncLost s) ∧
      (∀ L, s.lineUp L = true →
        ((s.lines.get L).state ≠ .disabled → OffLine ((syncLost s).lines.get L) ∧
          ((s.lines.get L).state = .connected → BareLine ((syncLost s).lines.get L))) ∧
        (syncLost s).rings.get L = RingDet.start (samplesOf (s.lines.get L).sig.preQuiet) ∧
        (syncLost s).gens.get L = ⟨0, false⟩) ∧
      (∀ p, s.posUp p = true → HoldsNothing (syncLost s) p) ∧
      ∀ b h, Alone s b h → ∃ h', (syncLost s).hoots.get b = some h' ∧ h'.legs = h.legs.map (legMark s.lineUp false) := by
  rw [syncLost_eq]
  generalize hA : (syncGone s).each (upHighways s.lineHw) endLines = tA
  generalize hB : tA.each (upHighways s.posHw) endPositions = tB
  have keptA : KeptButRings (syncGone s) tA := hA ▸ KeptButRings.each keptButRings_endLines _ _
  have keptB : Kept tA tB := hB ▸ Kept.each kept_endPositions _ tA
  have keptC : Kept tB (settleClash s tB) := kept_settleClash s tB
  have wanesB : Wanes tA tB := hB ▸ Wanes.each wanes_endPositions _ tA
  have wanesC : Wanes tB (settleClash s tB) := wanes_settleClash s tB
  refine ⟨(keptA.trans keptB.butRings).trans keptC.butRings, fun L hL => ?_, fun p hp => ?_, fun b h ha => ?_⟩
  · obtain ⟨hline, hring, hgen⟩ := each_endLines_get s (syncGone s) rfl hL
    rw [hA] at hline hring hgen
    have hoff : OffKept tA tB L := hB ▸ OffKept.each (fun n t => offKept_endPositions n t L) _ tA
    rw [settleClash_lines, settleClash_rings, settleClash_gens]
    refine ⟨fun hd => ?_, ?_, ?_⟩
    · have hdown : OffLine (tA.lines.get L) := hline ▸ Line.down_off hd
      exact ⟨hoff.off hdown, fun hc => hoff.bare hdown (hline ▸ Line.down_bare hc)⟩
    · have hrings : tB.rings = tA.rings := (congrArg Frame.rings keptB.frame :)
      rw [hrings, hring]
    · rcases wanesB.gens L with e | e <;> rw [e, hgen]
  · have hholds : HoldsNothing tB p := by
      rw [← hB]
      exact each_establishes (R := fun s t => Wanes s t ∧ Kept s t) (I := HootsOk)
        (P := fun n t => ∀ p, hwOfPos p = n → HoldsNothing t p)
        (fun n t => ⟨wanes_endPositions n t, kept_endPositions n t⟩) (fun _ _ h => h.2.hoots)
        (fun n t ht => endPositions_holdsNothing n t ht) (fun _ _ _ h hn p hp => (hn p hp).of_wanes h.1 h.2.camps)
        (upHighways s.posHw) tA (keptA.hoots hk) (hwOfPos p) (mem_upHighways.mpr hp) p rfl
    exact hholds.of_wanes wanesC keptC.camps
  · have hlegs := each_endLines_legs (s := s) ha (upHighways s.lineHw) (syncGone s) h (fun _ => rfl) ha.1
    rw [hA] at hlegs
    obtain ⟨h', hh', e⟩ := (wanesB.trans wanesC).hoot_legs hlegs
    refine ⟨h', hh', e.trans ?_⟩
    have hmark : (fun L => decide (hwOfLine L ∈ upHighways s.lineHw)) = s.lineUp := by
      funext L
      simp only [mem_upHighways]
      cases h : s.lineUp L <;> simpa [State.lineUp] using h
    simp only [hmark]

end

/-- Settles O52: a position highway ends the call state of its positions (`posHighwayDown_taken`); a line highway takes
its lines, detectors and legs one after another (`lineHighwayDown_taken`, `lineHighwayUp_taken`); the loss of the frame
sync is the fold of both over the highways that were UP (`syncLost_taken`). -/
theorem highwaysTaken : Obligations.HighwaysTaken := by
  intro s hk same off start legs alone
  have hoff {t : State} {L : LineId} (h : (s.lines.get L).state ≠ .disabled → OffLine (t.lines.get L) ∧
      ((s.lines.get L).state = .connected → BareLine (t.lines.get L))) : off t L := fun hd => by
    obtain ⟨⟨hs, hc, ht, hf, hp⟩, hbare⟩ := h hd
    refine ⟨hs, hc, ht, hf, hp, fun hcon => ?_⟩
    obtain ⟨hh, hm, hb⟩ := hbare hcon
    exact ⟨hh, hm, hb⟩
  refine ⟨fun n => ⟨?_, ?_, ?_, ?_⟩, ?_⟩
  · by_cases hup : (s.posHw.get n).up = true
    · obtain ⟨hhw, hholds, hkept⟩ := posHighwayDown_taken n (s.begin none) hk
      refine ⟨_, congrArg Host.Outcome.next (if_pos hup), ?_⟩
      rw [if_pos hup]
      refine ⟨hhw, hholds, onlyCalls_of ?_ hkept.posSet hkept.lineSet⟩
      exact (congrArg (fun f : Frame => { f with posHw := s.posHw, origin := s.origin }) hkept.frame :)
    · refine ⟨_, congrArg Host.Outcome.next (if_neg hup), ?_⟩
      rw [if_neg hup]
      rfl
  · by_cases hup : (s.posHw.get n).up = true
    · refine ⟨_, congrArg Host.Outcome.next (if_pos hup), ?_⟩
      rw [if_pos hup]
      rfl
    · refine ⟨_, congrArg Host.Outcome.next (if_neg hup), ?_⟩
      rw [if_neg hup]
      exact ⟨rfl, rfl⟩
  · by_cases hup : (s.lineHw.get n).up = true
    · obtain ⟨hkept, hget, hlegs⟩ := lineHighwayDown_taken n (s.begin none)
      refine ⟨_, congrArg Host.Outcome.next (if_pos hup), ?_⟩
      rw [if_pos hup]
      refine ⟨(congrArg Frame.lineHw hkept.frame :), fun L => ?_, fun b h ha => ⟨(hlegs b h ha).1, fun hno ho => ?_⟩,
        onlyCalls_of ?_ hkept.posSet hkept.lineSet⟩
      · have hL := hget L
        split at hL
        · rename_i hn
          rw [if_pos hn]
          obtain ⟨hline, hring, hgen⟩ := hL
          exact ⟨hoff fun hd => ⟨hline ▸ Line.down_off hd, fun hc => hline ▸ Line.down_bare hc⟩, hring, hgen⟩
        · rename_i hn
          rw [if_neg hn]
          exact hL
      · refine ((hlegs b h ha).2 hno ho).trans ?_
        congr 1
        refine List.filter_congr fun c _ => ?_
        rw [Bool.eq_iff_iff, decide_eq_true_iff, hasLeg_source_iff, Bool.not_eq_true', Bool.not_eq_true]
      · exact (congrArg (fun f : Frame => { f with lineHw := s.lineHw, origin := s.origin }) hkept.frame :)
    · refine ⟨_, congrArg Host.Outcome.next (if_neg hup), ?_⟩
      rw [if_neg hup]
      rfl
  · by_cases hup : (s.lineHw.get n).up = true
    · refine ⟨_, congrArg Host.Outcome.next (if_pos hup), ?_⟩
      rw [if_pos hup]
      rfl
    · obtain ⟨hkept, hgens, hget, hlegs⟩ := lineHighwayUp_taken n (s.begin none)
      refine ⟨_, congrArg Host.Outcome.next (if_neg hup), ?_⟩
      rw [if_neg hup]
      refine ⟨(congrArg Frame.lineHw hkept.frame :), hgens, hget, fun b h ha => ⟨(hlegs b h ha).1, fun hfree hroom => ?_⟩,
        onlyCalls_of ?_ hkept.posSet hkept.lineSet⟩
      · have hv := (hlegs b h ha).2
        rw [legVoices_linesOf] at hv
        exact hv hfree hroom
      · exact (congrArg (fun f : Frame => { f with lineHw := s.lineHw, origin := s.origin }) hkept.frame :)
  · obtain ⟨hkept, hlines, hholds, hlegs⟩ := syncLost_taken (s.begin none) hk
    have hframe := hkept.frame
    refine ⟨_, rfl, (congrArg Frame.syncPresent hframe :), fun n => ⟨?_, ?_⟩, fun L hL => ?_, hholds, hlegs,
      onlyCalls_of ?_ hkept.posSet hkept.lineSet⟩
    · have hhw : (syncLost (s.begin none)).posHw = (syncGone (s.begin none)).posHw := (congrArg Frame.posHw hframe :)
      rw [hhw]
      exact (syncGone_hw _ n).1
    · have hhw : (syncLost (s.begin none)).lineHw = (syncGone (s.begin none)).lineHw :=
        (congrArg Frame.lineHw hframe :)
      rw [hhw]
      exact (syncGone_hw _ n).2
    · obtain ⟨hline, hring, hgen⟩ := hlines L hL
      exact ⟨hoff hline, hring, hgen⟩
    · exact (congrArg (fun f : Frame => { f with
        lineHw := s.lineHw, posHw := s.posHw, syncPresent := s.syncPresent, origin := s.origin }) hframe :)

end Sys2Proof.Machine

namespace Sys2Proof.Machine
open Sys2Proof

section

/-! # What has been recorded and told (R167, R168, R183) -/

/-- The same records are in the log, and the same notices at the links, so that the next record and the next notice are
taken alike. -/
structure ToldAlike (u t : State) : Prop where
  log : t.log = u.log
  time : t.timeValid = u.timeValid
  notices : noNotice u t

theorem ToldAlike.refl (s : State) : ToldAlike s s := ⟨rfl, rfl, noNotice.refl s⟩

theorem ToldAlike.trans {s t u : State} (h : ToldAlike s t) (g : ToldAlike t u) : ToldAlike s u :=
  ⟨g.log.trans h.log, g.time.trans h.time, h.notices.trans g.notices⟩

theorem toldAlike_begin (s : State) (o : Option LinkId) : ToldAlike s (s.begin o) := ⟨rfl, rfl, noNotice.refl s⟩

/-- A step that writes no record and sends no notice. -/
theorem ToldAlike.quiet {u t v : State} (h : ToldAlike u t) (hlog : v.log = t.log) (hlinks : v.links = t.links)
    (hframe : v.frame = t.frame) : ToldAlike u v :=
  ⟨hlog.trans h.log, (congrArg Frame.timeValid hframe :).trans h.time, h.notices.trans (noNotice.of_links hlinks)⟩

/-- Links alike take a notice alike (R183). -/
theorem sameNotices.enqueue {j k : Link} (h : sameNotices j k) (n : Notice) :
    sameNotices (j.enqueue n) (k.enqueue n) := by
  obtain ⟨hq, hm, hr, hd, ha⟩ := h
  have he : k.enabled n = j.enabled n := by simp [Link.enabled, hm]
  unfold Link.enqueue
  rw [he, hr, hq]
  split
  · exact ⟨hq, hm, hr, hd, ha⟩
  · split
    · exact ⟨rfl, hm, rfl, by simp [hd], ha⟩
    · exact ⟨by simp [Link.setQueue], hm, hr, hd, by simp [Link.setQueue]⟩

theorem post_link (dest : LinkId → Bool) (n : Notice) (s : State) (l : LinkId) :
    (post dest n s).link l = if dest l then (s.link l).enqueue n else s.link l := by
  simp [post, State.link]

theorem ToldAlike.post {u t : State} (h : ToldAlike u t) {dest dest' : LinkId → Bool} (hd : dest' = dest) (n : Notice) :
    ToldAlike (Machine.post dest n u) (Machine.post dest' n t) :=
  ⟨h.log, h.time, fun l => by
    rw [post_link, post_link, hd]
    split
    · exact (h.notices l).enqueue n
    · exact h.notices l⟩

theorem ToldAlike.modLog {u t : State} (h : ToldAlike u t) (f : Log → Log) : ToldAlike (u.modLog f) (t.modLog f) :=
  ⟨congrArg f h.log, h.time, h.notices⟩

theorem ToldAlike.setLevel {u t : State} (h : ToldAlike u t) (v : LogLevel) :
    ToldAlike (Machine.setLevel v u) (Machine.setLevel v t) := by
  unfold Machine.setLevel
  rw [h.log]
  exact (h.modLog _).post rfl _

theorem ToldAlike.throttle {u t : State} (h : ToldAlike u t) : ToldAlike (Machine.throttle u) (Machine.throttle t) := by
  unfold Machine.throttle
  rw [h.log]
  split
  · exact h.setLevel _
  · exact h

theorem ToldAlike.stamp {u t : State} (h : ToldAlike u t) (r : Record) : Machine.stamp t r = Machine.stamp u r := by
  simp [Machine.stamp, h.log, h.time]

theorem ToldAlike.admitRecord {u t : State} (h : ToldAlike u t) (r : Record) :
    ToldAlike (Machine.admitRecord r u) (Machine.admitRecord r t) := by
  unfold Machine.admitRecord
  rw [h.stamp]
  exact h.modLog _

theorem ToldAlike.lose {u t : State} (h : ToldAlike u t) (r : Record) :
    ToldAlike (Machine.lose r u) (Machine.lose r t) := by
  unfold Machine.lose
  rw [h.stamp]
  exact h.modLog _

/-- A record is taken alike (R168, R169). -/
theorem ToldAlike.submit {u t : State} (h : ToldAlike u t) (r : Record) :
    ToldAlike (Machine.submit r u) (Machine.submit r t) := by
  unfold Machine.submit
  rw [h.log]
  split
  · exact (h.admitRecord r).throttle
  · split
    · exact h
    · split
      · exact h.admitRecord r
      · exact (h.lose r).setLevel _
  · exact h.lose r

/-! ## Routes (R186) -/

theorem posRoute_of_frame {s t : State} (h : t.frame = s.frame) (ps : List PosId) : posRoute t ps = posRoute s ps := by
  have ho : t.origin = s.origin := (congrArg Frame.origin h :)
  unfold posRoute
  rw [ho]

theorem lineRoute_of_frame {s t : State} (h : t.frame = s.frame) (L : LineId) : lineRoute t L = lineRoute s L := by
  have hp : t.perms = s.perms := (congrArg Frame.perms h :)
  unfold lineRoute State.appears
  rw [hp]

theorem routes_of_frame {s t : State} (h : t.frame = s.frame) : t.routes = s.routes := (congrArg Frame.routes h :)

/-- The report of a line's change of state (R85, R153). -/
theorem ToldAlike.reportChange {s u t : State} (h : ToldAlike u t) (hf : t.frame = s.frame) {L : LineId} {new old : LineState}
    {owner : Option PosId} {n m : Nat} (hne : new ≠ old) (hs : (t.lines.get L).state = new)
    (hh : (t.lines.get L).holders.length = n) (ho : (t.lines.get L).holdOwner = owner)
    (hc : (t.lines.get L).camp.length = m) (cause : Cause) :
    ToldAlike (Machine.post (watchRoute (s.routes.get L)) (.watch L old new cause)
      (Machine.post (lineRoute s L) (.lineState L new n owner m) u)) (Machine.reportChange [] L old cause t) := by
  unfold Machine.reportChange
  rw [hs, if_neg hne]
  have hline : lineNotice t L = .lineState L new n owner m := by simp [lineNotice, hs, hh, ho, hc]
  unfold reportLineTo reportWatch
  rw [hline]
  refine (h.post ?_ _).post ?_ _
  · funext l
    rw [lineRoute_of_frame hf]
    simp [posRoute]
  · exact congrArg (fun r : Tab Route 192 => watchRoute (r.get L)) (routes_of_frame hf)

end

end Sys2Proof.Machine

namespace Sys2Proof.Machine
open Sys2Proof

section

/-! # Holders and monitors that leave a line, one after another (R65, R66, R132) -/

theorem State.binding_congr {s t : State} (h : t.positions = s.positions) (p : PosId) (e : Endpoint) :
    t.binding p e = s.binding p e := by simp only [State.binding, h]

/-! ## Line talk on a holder's key (R132) -/

section
variable (p : PosId) (k : KeyId) (L : LineId) (c d : Cause) (s : State)

@[simp] theorem endLineTalk_gens : (endLineTalk p k L c d s).gens = s.gens := by
  unfold endLineTalk
  split
  · split <;> simp
  · rfl

@[simp] theorem endLineTalk_channels : (endLineTalk p k L c d s).channels = s.channels := by
  unfold endLineTalk
  split
  · split <;> simp
  · rfl

theorem endLineTalk_bridges {b : BridgeId} (hb : (s.lines.get L).bridge ≠ some b) :
    (endLineTalk p k L c d s).bridges.get b = s.bridges.get b := by
  unfold endLineTalk
  split
  · split
    · rename_i a ha
      have hne : b ≠ a := fun e => hb (e ▸ ha)
      simp [leave, hne]
    · simp
  · rfl

/-- The MIC that talks on the key becomes NONE, and no other binding changes. -/
theorem endLineTalk_binding (q : PosId) (f : Endpoint) : (endLineTalk p k L c d s).binding q f =
    if (q = p ∧ f = .mic) ∧ talksOn s p k = true then .none else s.binding q f := by
  have hunbind (t : State) (ht : t.positions = s.positions) :
      (unbind p .mic d t).binding q f = if q = p ∧ f = .mic then .none else s.binding q f := by
    simp [unbind_binding, State.binding_congr ht]
  unfold endLineTalk
  by_cases ht : talksOn s p k = true
  · rw [if_pos ht]
    simp only [ht, and_true]
    split
    · rename_i b hb
      refine (State.binding_congr ?_ q f).trans (hunbind (leave b (micSource p) s) rfl)
      simp
    · exact hunbind s rfl
  · simp [ht]

@[simp] theorem endLineTalk_feed (q : PosId) :
    ((endLineTalk p k L c d s).positions.get q).feed = (s.positions.get q).feed := by
  unfold endLineTalk
  split
  · split <;> simp
  · rfl
end

/-! ## An endpoint's line talk -/

section
variable (x : PosId × Endpoint) (L : LineId) (c : Cause) (s : State)

@[simp] theorem endTalkOfEndpoint_gens : (endTalkOfEndpoint x.1 x.2 L c s).gens = s.gens := by
  unfold endTalkOfEndpoint
  split <;> simp

@[simp] theorem endTalkOfEndpoint_channels : (endTalkOfEndpoint x.1 x.2 L c s).channels = s.channels := by
  unfold endTalkOfEndpoint
  split <;> simp

@[simp] theorem endTalkOfEndpoint_feed (q : PosId) :
    ((endTalkOfEndpoint x.1 x.2 L c s).positions.get q).feed = (s.positions.get q).feed := by
  unfold endTalkOfEndpoint
  split <;> simp

theorem endTalkOfEndpoint_bridges {b : BridgeId} (hb : (s.lines.get L).bridge ≠ some b) :
    (endTalkOfEndpoint x.1 x.2 L c s).bridges.get b = s.bridges.get b := by
  unfold endTalkOfEndpoint
  split
  · exact endLineTalk_bridges _ _ _ _ _ _ hb
  · rfl

theorem endTalkOfEndpoint_binding (q : PosId) (f : Endpoint) : (endTalkOfEndpoint x.1 x.2 L c s).binding q f =
    if (q = x.1 ∧ f = .mic) ∧ (keyTalks s x).isSome = true then .none else s.binding q f := by
  obtain ⟨p, e⟩ := x
  cases e with
  | key k =>
    rw [endTalkOfEndpoint, endLineTalk_binding]
    congr 1
    simp only [talksOn, keyTalks, decide_eq_true_eq]
    split <;> simp_all
  | _ => simp [endTalkOfEndpoint, keyTalks]

/-- The end of a line talk is recorded and told as `talkEnded` says. -/
theorem ToldAlike.endTalk {s₀ u : State} {o : Option LinkId} (h : ToldAlike u s) (hf : s.frame = (s₀.begin o).frame)
    (ht : keyTalks s x = keyTalks s₀ x) (hb : (s.lines.get L).bridge = (s₀.lines.get L).bridge) :
    ToldAlike (talkEnded s₀ o L c x u) (endTalkOfEndpoint x.1 x.2 L c s) := by
  obtain ⟨p, e⟩ := x
  unfold talkEnded
  rw [← ht, ← hb]
  have hunbind {v t : State} (g : ToldAlike v t) : ToldAlike v (unbind p .mic .none t) :=
    g.quiet (by simp) (by unfold unbind; dsimp only; split <;> rfl) (by simp)
  cases e with
  | key k =>
    simp only [keyTalks, endTalkOfEndpoint, endLineTalk, talksOn, decide_eq_true_eq]
    by_cases hm : (s.positions.get p).mic = .talk k
    · simp only [hm, if_true]
      cases (s.lines.get L).bridge with
      | some b =>
        have hleave : ToldAlike u (leave b (micSource p) s) := h.quiet rfl rfl rfl
        refine ((hunbind hleave).submit _).post ?_ _
        exact posRoute_of_frame (by simpa using hf) [p]
      | none => exact hunbind h
    · simp only [hm, if_false]
      exact h
  | _ => exact h
end

/-! ## The channel of an endpoint (R154, R161) -/

theorem releaseChan_get (p : PosId) (e : Endpoint) (s : State) (c : ChanId) :
    (releaseChan p e s).channels.get c = if channelAt s p e = some c then none else s.channels.get c := by
  unfold releaseChan
  split
  · rename_i d hd
    by_cases h : c = d
    · simp [hd, h]
    · simp [hd, h, Ne.symm h]
  · simp [*]

theorem channelAt_some {s : State} {p : PosId} {e : Endpoint} {c : ChanId} (h : channelAt s p e = some c) :
    ∃ r, s.channels.get c = some r ∧ r.pos = p ∧ r.endpoint = e := by
  have hp := List.find?_some h
  split at hp
  · rename_i r hr
    exact ⟨r, hr, by simpa using hp⟩
  · cases hp

/-- The channels of other endpoints' bindings play no part. -/
theorem channelAt_congr {s t : State} {gone : List (PosId × Endpoint)} (h : unassigned s t gone) {x : PosId × Endpoint}
    (hx : x ∉ gone) : channelAt t x.1 x.2 = channelAt s x.1 x.2 := by
  unfold channelAt
  congr 1
  funext c
  rw [h c]
  by_cases hc : ∃ y ∈ gone, channelAt s y.1 y.2 = some c
  · obtain ⟨y, hy, hyc⟩ := hc
    obtain ⟨r, hr, hp, he⟩ := channelAt_some hyc
    have hne : ¬ (r.pos = x.1 ∧ r.endpoint = x.2) := fun ⟨hp', he'⟩ =>
      hx (Prod.ext (hp'.symm.trans hp) (he'.symm.trans he) ▸ hy)
    rw [if_pos ⟨y, hy, hyc⟩, hr]
    simpa using hne
  · rw [if_neg hc]

/-! ## A call that is ending -/

/-- What stands while the holders `done` and the monitors `mdone` of line `L` have left it: their entries and bindings
are gone and the holders' channels FREE, and nothing else has changed but the line's own bridge, the log and the links. -/
structure CallEnding (s : State) (o : Option LinkId) (L : LineId) (done mdone : List (PosId × Endpoint)) (t : State) :
    Prop where
  frame : t.frame = (s.begin o).frame
  lines : t.lines = s.lines.modify L fun r => { r with
    holders := r.holders.filter (· ∉ done)
    monitors := r.monitors.filter (· ∉ mdone) }
  gens : t.gens = s.gens
  icm : t.icm = s.icm
  calls : t.calls = s.calls
  hoots : t.hoots = s.hoots
  bridges : ∀ d, (s.lines.get L).bridge ≠ some d → t.bridges.get d = s.bridges.get d
  bindings : unbound s t (done ++ mdone)
  channels : unassigned s t done

theorem callEnding_begin (s : State) (o : Option LinkId) (L : LineId) : CallEnding s o L [] [] (s.begin o) where
  frame := rfl
  lines := (Tab.modify_eq_self (by simp)).symm
  gens := rfl
  icm := rfl
  calls := rfl
  hoots := rfl
  bridges _ _ := rfl
  bindings := ⟨fun p e => by simp, fun _ => rfl⟩
  channels c := by simp

theorem CallEnding.bridge {s t : State} {o : Option LinkId} {L : LineId} {done mdone : List (PosId × Endpoint)}
    (h : CallEnding s o L done mdone t) : (t.lines.get L).bridge = (s.lines.get L).bridge := by simp [h.lines]

/-- A record and its channels aside, nothing but the log and the links changes. -/
theorem CallEnding.submit {s t : State} {o : Option LinkId} {L : LineId} {done mdone : List (PosId × Endpoint)}
    (h : CallEnding s o L done mdone t) (r : Record) : CallEnding s o L done mdone (Machine.submit r t) where
  frame := by simpa using h.frame
  lines := by simpa using h.lines
  gens := by simpa using h.gens
  icm := by simpa using h.icm
  calls := by simpa using h.calls
  hoots := by simpa using h.hoots
  bridges d hd := by simpa using h.bridges d hd
  bindings := ⟨fun p e => (State.binding_congr (submit_positions r t) p e).trans (h.bindings.1 p e),
    fun p => by simpa using h.bindings.2 p⟩
  channels c := by simpa using h.channels c

/-- An endpoint that has not left yet talks as it did, or not. -/
theorem keyTalks_of_unbound {s t : State} {gone : List (PosId × Endpoint)} (h : unbound s t gone) {x : PosId × Endpoint}
    (hx : x ∉ gone) (hmic : ∀ y ∈ gone, y.2 ≠ .mic) : keyTalks t x = keyTalks s x := by
  obtain ⟨p, e⟩ := x
  cases e with
  | key k =>
    have hm : (t.positions.get p).mic = _ := h.1 p .mic
    have hno : (p, Endpoint.mic) ∉ gone := fun hin => hmic _ hin rfl
    simp only [hno, true_and, false_or] at hm
    by_cases hg : ∃ y ∈ gone, y.1 = p ∧ (keyTalks s y).isSome = true
    · rw [if_pos hg] at hm
      obtain ⟨⟨q, f⟩, hy, rfl, hk⟩ := hg
      have hs : (s.positions.get q).mic ≠ .talk k := fun hs => by
        cases f <;> simp [keyTalks, hs] at hk
        exact hx (hk ▸ hy)
      simp [keyTalks, hm, hs]
    · rw [if_neg hg] at hm
      have hm' : (t.positions.get p).mic = (s.positions.get p).mic := hm
      simp [keyTalks, hm']
  | _ => rfl

/-- One more of a list of endpoints is unbound. -/
theorem unbound_append {s t v : State} {gone : List (PosId × Endpoint)} (h : unbound s t gone) {x : PosId × Endpoint}
    (hb : ∀ q f, v.binding q f =
      if (q, f) = x ∨ ((q = x.1 ∧ f = .mic) ∧ (keyTalks s x).isSome = true) then .none else t.binding q f)
    (hf : ∀ q, (v.positions.get q).feed = (t.positions.get q).feed) {gone' : List (PosId × Endpoint)}
    (hmem : ∀ y, y ∈ gone' ↔ y ∈ gone ∨ y = x) : unbound s v gone' := by
  refine ⟨fun q f => ?_, fun q => (hf q).trans (h.2 q)⟩
  rw [hb, h.1 q f, ← ite_or]
  congr 1
  simp only [hmem, eq_iff_iff]
  constructor
  · rintro ((h | ⟨⟨rfl, hm⟩, hk⟩) | (h | ⟨hm, y, hy, h⟩))
    · exact .inl (.inr h)
    · exact .inr ⟨hm, x, .inr rfl, rfl, hk⟩
    · exact .inl (.inl h)
    · exact .inr ⟨hm, y, .inl hy, h⟩
  · rintro ((h | h) | ⟨hm, y, hy | rfl, hp, hk⟩)
    · exact .inr (.inl h)
    · exact .inl (.inl h)
    · exact .inr (.inr ⟨hm, y, hy, hp, hk⟩)
    · exact .inl (.inr ⟨⟨hp.symm, hm⟩, hk⟩)

end

end Sys2Proof.Machine

namespace Sys2Proof.Machine
open Sys2Proof

section

/-! # One holder, one monitor (R65, R66) -/

/-- An unbind ask is told by BINDING_LOST, unless its cause is NONE (R8). -/
theorem ToldAlike.unbind {s u t : State} {o : Option LinkId} (h : ToldAlike u t) (hf : t.frame = (s.begin o).frame)
    {p : PosId} {e : Endpoint} {w : Binding} (hw : t.binding p e = w) (hne : w ≠ .none) (c : Cause) :
    ToldAlike (if c = .none then u else Machine.post (posRoute (s.begin o) [p]) (.bindingLost p e w c) u)
      (Machine.unbind p e c t) := by
  have hclear : ToldAlike u (t.modPos p (Position.clear e)) := h.quiet rfl rfl rfl
  unfold Machine.unbind
  simp only [hw, if_neg hne]
  split
  · exact hclear
  · exact hclear.post (posRoute_of_frame (t := t.modPos p (Position.clear e)) hf [p]) _

theorem keyTalks_congr {s t : State} (h : t.positions = s.positions) (x : PosId × Endpoint) :
    keyTalks t x = keyTalks s x := by simp only [keyTalks, h]

/-- The state in which a holder's line talk is looked at: its entry is gone, and a handset's source has left. -/
def holderGone (L : LineId) (x : PosId × Endpoint) (s : State) : State :=
  let t := s.modLine L fun r => { r with holders := r.holders.filter (· ≠ x) }
  match (t.lines.get L).bridge with
  | some b => leaveEndpoint x.1 x.2 b t
  | none => t

theorem detachHolder_eq (L : LineId) (x : PosId × Endpoint) (c : Cause) (s : State) :
    detachHolder L x c s = unbind x.1 x.2 c (endTalkOfEndpoint x.1 x.2 L c (holderGone L x s)) := rfl

section
variable (L : LineId) (x : PosId × Endpoint) (s : State)

@[simp] theorem holderGone_positions : (holderGone L x s).positions = s.positions := by
  unfold holderGone; dsimp only; split <;> simp
@[simp] theorem holderGone_gens : (holderGone L x s).gens = s.gens := by unfold holderGone; dsimp only; split <;> simp
@[simp] theorem holderGone_channels : (holderGone L x s).channels = s.channels := by
  unfold holderGone; dsimp only; split <;> simp
@[simp] theorem holderGone_log : (holderGone L x s).log = s.log := by unfold holderGone; dsimp only; split <;> simp
@[simp] theorem holderGone_links : (holderGone L x s).links = s.links := by unfold holderGone; dsimp only; split <;> simp
@[simp] theorem holderGone_frame : (holderGone L x s).frame = s.frame := by
  unfold holderGone
  dsimp only
  split
  · rw [leaveEndpoint_frame]
    rfl
  · rfl
@[simp] theorem holderGone_lines : (holderGone L x s).lines =
    s.lines.modify L fun r => { r with holders := r.holders.filter (· ≠ x) } := by
  unfold holderGone; dsimp only; split <;> simp

theorem holderGone_bridges {d : BridgeId} (hd : (s.lines.get L).bridge ≠ some d) :
    (holderGone L x s).bridges.get d = s.bridges.get d := by
  unfold holderGone
  dsimp only
  split
  · rename_i b hb
    have hne : d ≠ b := fun e => hd (by simpa [e] using hb)
    unfold leaveEndpoint
    split <;> simp [leave, hne]
  · rfl
end

theorem detachHolder_gens (L : LineId) (x : PosId × Endpoint) (c : Cause) (s : State) :
    (detachHolder L x c s).gens = s.gens := by simp [detachHolder_eq]

theorem detachHolder_channels (L : LineId) (x : PosId × Endpoint) (c : Cause) (s : State) :
    (detachHolder L x c s).channels = s.channels := by simp [detachHolder_eq]

theorem detachHolder_feed (L : LineId) (x : PosId × Endpoint) (c : Cause) (s : State) (q : PosId) :
    ((detachHolder L x c s).positions.get q).feed = (s.positions.get q).feed := by simp [detachHolder_eq]

theorem detachHolder_bridges {L : LineId} {s : State} {d : BridgeId} (hd : (s.lines.get L).bridge ≠ some d)
    (x : PosId × Endpoint) (c : Cause) : (detachHolder L x c s).bridges.get d = s.bridges.get d := by
  rw [detachHolder_eq, unbind_bridges, endTalkOfEndpoint_bridges _ _ _ _ (by simpa using hd), holderGone_bridges _ _ _ hd]

/-- The holder's endpoint, and a MIC that talks on it, are unbound (R66, R132). -/
theorem detachHolder_binding (L : LineId) (x : PosId × Endpoint) (c : Cause) (s : State) (q : PosId) (f : Endpoint) :
    (detachHolder L x c s).binding q f =
      if (q, f) = x ∨ ((q = x.1 ∧ f = .mic) ∧ (keyTalks s x).isSome = true) then .none else s.binding q f := by
  rw [detachHolder_eq]
  generalize ht : holderGone L x s = t
  have hpos : t.positions = s.positions := ht ▸ holderGone_positions L x s
  have htalk := endTalkOfEndpoint_binding x L c t
  rw [keyTalks_congr hpos x] at htalk
  have hmic : ∀ k, x.2 = .key k → ((endTalkOfEndpoint x.1 x.2 L c t).positions.get x.1).mic ≠ .talk k := by
    intro k hk hm
    have hx := htalk x.1 .mic
    rw [State.binding, Position.binding, hm] at hx
    split at hx
    · cases hx
    · rename_i hno
      have hmk : (s.positions.get x.1).mic = .talk k := ((State.binding_congr hpos x.1 .mic).symm.trans hx.symm :)
      exact hno ⟨⟨rfl, rfl⟩, by simp [keyTalks, hk, hmk]⟩
  have hno : ¬ ∃ k, x.2 = .key k ∧ ((endTalkOfEndpoint x.1 x.2 L c t).positions.get x.1).mic = .talk k :=
    fun ⟨k, hk, hm⟩ => hmic k hk hm
  have hx : (q = x.1 ∧ f = x.2) ↔ (q, f) = x := by rw [Prod.ext_iff]
  rw [unbind_binding]
  simp only [hno, and_false, or_false, hx]
  rw [htalk, ← ite_or, State.binding_congr hpos]

/-- The leaving of a holder is told by the end of its line talk, and by BINDING_LOST. -/
theorem ToldAlike.detachHolder {s u t : State} {o : Option LinkId} (h : ToldAlike u t)
    (hf : t.frame = (s.begin o).frame) {L : LineId} {x : PosId × Endpoint} (ht : keyTalks t x = keyTalks s x)
    (hb : (t.lines.get L).bridge = (s.lines.get L).bridge) (hx : t.binding x.1 x.2 = .holder L) (c : Cause) :
    ToldAlike (if c = .none then talkEnded s o L c x u else
        Machine.post (posRoute (s.begin o) [x.1]) (.bindingLost x.1 x.2 (.holder L) c) (talkEnded s o L c x u))
      (Machine.detachHolder L x c t) := by
  rw [detachHolder_eq]
  generalize hv : holderGone L x t = v
  have hpos : v.positions = t.positions := hv ▸ holderGone_positions L x t
  have hframe : v.frame = (s.begin o).frame := hv ▸ (holderGone_frame L x t).trans hf
  have hvt : ToldAlike u v := hv ▸ h.quiet (holderGone_log ..) (holderGone_links ..) (holderGone_frame ..)
  have htalk : ToldAlike (talkEnded s o L c x u) (endTalkOfEndpoint x.1 x.2 L c v) :=
    hvt.endTalk x L c v hframe ((keyTalks_congr hpos x).trans ht) (hv ▸ by simpa using hb)
  refine htalk.unbind ((kept_endTalkOfEndpoint ..).frame.trans hframe) ?_ (by simp) c
  rw [endTalkOfEndpoint_binding, State.binding_congr hpos, hx, keyTalks_congr hpos]
  refine if_neg fun ⟨⟨_, hm⟩, hk⟩ => ?_
  rw [keyTalks, hm] at hk
  cases hk

/-- Holder entries that have left leave the rest of a list without duplicates. -/
theorem filter_done {α : Type} [BEq α] [LawfulBEq α] {done rest xs : List α} (h : xs = done ++ rest) (hn : xs.Nodup) :
    xs.filter (· ∉ done) = rest := by
  subst h
  have hdis := (List.nodup_append.mp hn).2.2
  rw [List.filter_append, List.filter_eq_nil_iff.mpr (by simp), List.nil_append]
  exact List.filter_eq_self.mpr fun y hy => by simpa using fun hd => hdis y hd y hy rfl

section
variable {s u t : State} {o : Option LinkId} {L : LineId} {done mdone : List (PosId × Endpoint)}

/-- The five steps of R66, of a holder whose turn has come. -/
theorem CallEnding.endHolder (h : CallEnding s o L done [] t) (hu : ToldAlike u t) {x : PosId × Endpoint}
    {rest : List (PosId × Endpoint)} (hall : (s.lines.get L).holders = done ++ x :: rest)
    (hn : (s.lines.get L).holders.Nodup)
    (hh : ∀ y ∈ (s.lines.get L).holders, y.2 ≠ .mic ∧ s.binding y.1 y.2 = .holder L) (c : Cause) :
    CallEnding s o L (done ++ [x]) [] (Machine.endHolder L x c false t) ∧
      ToldAlike (holderEnded s o L c x rest u) (Machine.endHolder L x c false t) := by
  have hx : x ∉ done := by
    have hdis := (List.nodup_append.mp (hall ▸ hn)).2.2
    exact fun hin => hdis x hin x List.mem_cons_self rfl
  obtain ⟨hxmic, hxb⟩ := hh x (by simp [hall])
  have hgone : ∀ y ∈ done, y.2 ≠ .mic := fun y hy => (hh y (by simp [hall, hy])).1
  have hunbound : unbound s t done := by simpa using h.bindings
  have htalks : keyTalks t x = keyTalks s x := keyTalks_of_unbound hunbound hx hgone
  have hbind : t.binding x.1 x.2 = .holder L := by
    rw [hunbound.1 x.1 x.2, if_neg, hxb]
    rintro (hin | ⟨hm, _⟩)
    · exact hx hin
    · exact hxmic hm
  have hchan : closingChannel (detachHolder L x c t) false x.1 x.2 = channelAt s x.1 x.2 := by
    have e : channelAt (detachHolder L x c t) x.1 x.2 = channelAt t x.1 x.2 := by
      simp only [channelAt, detachHolder_channels]
    exact e.trans (channelAt_congr h.channels hx)
  have hlines : (detachHolder L x c t).lines = s.lines.modify L fun r => { r with
      holders := r.holders.filter (· ∉ done ++ [x]), monitors := r.monitors.filter (· ∉ ([] : List _)) } := by
    rw [detachHolder_lines, h.lines, Tab.modify_modify]
    congr 1
    funext r
    simp [List.filter_filter, and_comm]
  have hrest : ((detachHolder L x c t).lines.get L).holders = rest := by
    rw [hlines, Tab.get_modify_self]
    exact filter_done (done := done ++ [x]) (rest := rest) (by simp [hall]) hn
  unfold Machine.endHolder
  simp only [hchan, hrest]
  have hdet := hu.detachHolder h.frame htalks h.bridge hbind c
  constructor
  · refine CallEnding.submit ?_ _
    unfold releaseUnless
    exact {
      frame := by
        simpa using (kept_detachHolder L x c t).frame.trans h.frame
      lines := by simpa using hlines
      gens := by simpa [detachHolder_gens] using h.gens
      icm := by simpa using (lineFrame_detachHolder L x c t).icm.trans h.icm
      calls := by simpa using (lineFrame_detachHolder L x c t).calls.trans h.calls
      hoots := by simpa using (lineFrame_detachHolder L x c t).hoots.trans h.hoots
      bridges := fun d hd => by
        have e := detachHolder_bridges (s := t) (d := d) (by rw [h.bridge]; exact hd) x c
        simpa [e] using h.bridges d hd
      bindings := by
        refine unbound_append hunbound (x := x) (fun q f => ?_) (fun q => by simp [detachHolder_feed]) (by simp)
        rw [State.binding_congr (s := detachHolder L x c t) (by simp), detachHolder_binding, htalks]
      channels := fun d => by
        rw [if_neg Bool.false_ne_true, releaseChan_get, detachHolder_channels, h.channels d]
        have e : channelAt (detachHolder L x c t) x.1 x.2 = channelAt s x.1 x.2 := hchan
        rw [e, ← ite_or]
        refine if_congr ?_ rfl rfl
        simp only [List.mem_append, List.mem_singleton, or_and_right, exists_or, exists_eq_left, or_comm] }
  · refine ToldAlike.submit ?_ _
    exact hdet.quiet (by simp [releaseUnless]) (by simp [releaseUnless]) (by simp [releaseUnless])

/-- Every holder ends, in list order (R67). -/
theorem CallEnding.holders (hn : (s.lines.get L).holders.Nodup)
    (hh : ∀ y ∈ (s.lines.get L).holders, y.2 ≠ .mic ∧ s.binding y.1 y.2 = .holder L) (c : Cause) :
    ∀ (rest done : List (PosId × Endpoint)) (u t : State), (s.lines.get L).holders = done ++ rest →
      CallEnding s o L done [] t → ToldAlike u t →
      CallEnding s o L (done ++ rest) [] (t.each rest fun x => Machine.endHolder L x c false) ∧
        ToldAlike (holdersEnded s o L c rest u) (t.each rest fun x => Machine.endHolder L x c false)
  | [], done, u, t, _, ht, hu => by simpa using ⟨ht, hu⟩
  | x :: rest, done, u, t, hall, ht, hu => by
    obtain ⟨ht', hu'⟩ := ht.endHolder hu hall hn hh c
    simpa [holdersEnded] using CallEnding.holders hn hh c rest (done ++ [x]) _ _ (by simpa using hall) ht' hu'

/-- One monitor of a line ends (R65). -/
theorem CallEnding.endMonitor (h : CallEnding s o L done mdone t) (hu : ToldAlike u t) {x : PosId × Endpoint}
    (hxm : x.2 = .ha ∨ x.2 = .hb) (hxb : s.binding x.1 x.2 = .monitor L) (hx : x ∉ done ++ mdone) (c : Cause)
    (hc : c ≠ .none) :
    CallEnding s o L done (mdone ++ [x]) (Machine.endMonitor L x c t) ∧
      ToldAlike (post (posRoute (s.begin o) [x.1]) (.bindingLost x.1 x.2 (.monitor L) c) u)
        (Machine.endMonitor L x c t) := by
  have hkey : ∀ k, x.2 ≠ .key k := fun k hk => by simp [hk] at hxm
  have hxmic : x.2 ≠ .mic := fun hk => by simp [hk] at hxm
  have hbind : t.binding x.1 x.2 = .monitor L := by
    rw [h.bindings.1 x.1 x.2, if_neg, hxb]
    rintro (hin | ⟨hm, _⟩)
    · exact hx hin
    · exact hxmic hm
  have htalks : keyTalks s x = none := by
    rcases hxm with e | e <;> simp [keyTalks, e]
  constructor
  · exact {
      frame := (unbind_frame ..).trans h.frame
      lines := by
        rw [endMonitor_lines, h.lines, Tab.modify_modify]
        congr 1
        funext r
        simp [List.filter_filter, and_comm]
      gens := by simpa [Machine.endMonitor] using h.gens
      icm := by simpa [Machine.endMonitor] using h.icm
      calls := by simpa [Machine.endMonitor] using h.calls
      hoots := by simpa [Machine.endMonitor] using h.hoots
      bridges := fun d hd => by simpa [Machine.endMonitor] using h.bridges d hd
      bindings := by
        refine unbound_append h.bindings (x := x) (fun q f => ?_) (fun q => by simp [Machine.endMonitor]) ?_
        · rw [Machine.endMonitor, unbind_binding]
          have hx' : (q = x.1 ∧ f = x.2) ↔ (q, f) = x := by rw [Prod.ext_iff]
          simp only [hkey, false_and, exists_false, and_false, or_false, hx', htalks, Option.isSome_none,
            Bool.false_eq_true]
          rfl
        · intro y
          simp [or_assoc]
      channels := fun d => by simpa [Machine.endMonitor] using h.channels d }
  · have hgone : ToldAlike u (t.modLine L fun r => { r with monitors := r.monitors.filter (· ≠ x) }) :=
      hu.quiet rfl rfl rfl
    have hend := hgone.unbind (s := s) (o := o) (p := x.1) (e := x.2) h.frame hbind (by simp) c
    rwa [if_neg hc] at hend

/-- Every monitor ends, in list order (R65). -/
theorem CallEnding.monitors {c : Cause} (hc : c ≠ .none) : ∀ (rest mdone : List (PosId × Endpoint)) (u t : State),
    (∀ x ∈ rest, (x.2 = .ha ∨ x.2 = .hb) ∧ s.binding x.1 x.2 = .monitor L ∧ x ∉ done) → (mdone ++ rest).Nodup →
    CallEnding s o L done mdone t → ToldAlike u t →
    CallEnding s o L done (mdone ++ rest) (t.each rest fun x => Machine.endMonitor L x c) ∧
      ToldAlike (rest.foldl (fun u x => post (posRoute (s.begin o) [x.1]) (.bindingLost x.1 x.2 (.monitor L) c) u) u)
        (t.each rest fun x => Machine.endMonitor L x c)
  | [], mdone, u, t, _, _, ht, hu => by simpa using ⟨ht, hu⟩
  | x :: rest, mdone, u, t, hr, hn, ht, hu => by
    obtain ⟨hxm, hxb, hxd⟩ := hr x List.mem_cons_self
    have hxmd : x ∉ mdone := fun hin => (List.nodup_append.mp hn).2.2 x hin x List.mem_cons_self rfl
    obtain ⟨ht', hu'⟩ := ht.endMonitor hu hxm hxb (by simp [hxd, hxmd]) c hc
    simpa using CallEnding.monitors hc rest (mdone ++ [x]) _ _ (fun y hy => hr y (List.mem_cons_of_mem x hy))
      (by simpa using hn) ht' hu'

end

end

end Sys2Proof.Machine

namespace Sys2Proof.Machine
open Sys2Proof

section

/-! # A line released (R67, R72, R73, R75) -/

/-! ## Conferences and the line's bridge -/

/-- A conference entry leaves one bridge; a bridge without one stands (R26). -/
theorem leaveConference_get (d : BridgeId) (L : LineId) (s : State) :
    unconferred s (leaveConference d (lineSource L) s) L d := by
  unfold unconferred leaveConference isConference
  split
  · rename_i h
    have hhas : (s.bridges.get d).has (lineSource L) = true := by
      obtain ⟨c, hc, hx⟩ := List.any_eq_true.mp h
      simp only [Bool.and_eq_true, decide_eq_true_eq] at hx
      exact List.any_eq_true.mpr ⟨c, hc, by simp [hx.1]⟩
    simp only [leave, modBridge_bridges, Tab.get_modify_self, hhas, Bool.not_true, Bool.false_eq_true, if_false]
    split <;> exact ⟨rfl, rfl⟩
  · rfl

theorem unconferred_congr {s s' t t' : State} {L : LineId} {d : BridgeId} (hs : s'.bridges.get d = s.bridges.get d)
    (ht : t'.bridges.get d = t.bridges.get d) (h : unconferred s t L d) : unconferred s' t' L d := by
  unfold unconferred at h ⊢
  rwa [hs, ht]

theorem endConferences_unconferred (L : LineId) (s : State) (d : BridgeId) :
    unconferred s (endConferences L s) L d := by
  obtain ⟨u, hu, he⟩ := each_own (fun t => t.bridges.get d) (f := fun b => leaveConference b (lineSource L)) (m := d)
    (fun b hb t => by
      unfold leaveConference leave
      split
      · simp [Ne.symm hb]
      · rfl) (ids 96) s (List.nodup_finRange 96) (by simp)
  exact unconferred_congr hu.symm he (leaveConference_get d L u)

@[simp] theorem dropLineBridge_positions (L : LineId) (s : State) : (dropLineBridge L s).positions = s.positions := by
  unfold dropLineBridge; split <;> rfl
@[simp] theorem dropLineBridge_gens (L : LineId) (s : State) : (dropLineBridge L s).gens = s.gens := by
  unfold dropLineBridge; split <;> rfl
@[simp] theorem dropLineBridge_channels (L : LineId) (s : State) : (dropLineBridge L s).channels = s.channels := by
  unfold dropLineBridge; split <;> rfl
@[simp] theorem dropLineBridge_log (L : LineId) (s : State) : (dropLineBridge L s).log = s.log := by
  unfold dropLineBridge; split <;> rfl
@[simp] theorem dropLineBridge_links (L : LineId) (s : State) : (dropLineBridge L s).links = s.links := by
  unfold dropLineBridge; split <;> rfl
@[simp] theorem dropLineBridge_frame (L : LineId) (s : State) : (dropLineBridge L s).frame = s.frame := by
  unfold dropLineBridge; split <;> rfl

theorem dropLineBridge_bridges (L : LineId) (s : State) (d : BridgeId) :
    (dropLineBridge L s).bridges.get d =
      if (s.lines.get L).bridge = some d then Bridge.reset else s.bridges.get d := by
  unfold dropLineBridge dropBridge
  split
  · rename_i b hb
    simp only [hb, modLine_bridges, modBridge_bridges, Tab.get_modify, Option.some.injEq, eq_comm]
  · rename_i hb
    simp [hb]

/-! ## Reports of the entry to CLEARING -/

theorem reportChange_eq (extra : List PosId) (L : LineId) (old : LineState) (c : Cause) (s : State) :
    reportChange extra L old c s = { s with links := (reportChange extra L old c s).links } := by
  unfold reportChange
  split <;> rfl

@[simp] theorem reportChange_frame (extra : List PosId) (L : LineId) (old : LineState) (c : Cause) (s : State) :
    (reportChange extra L old c s).frame = s.frame := by rw [reportChange_eq]; rfl

/-- What a line's record becomes when its call has ended: CLEARING under its guard, or with a guard of 0 IDLE, or OFFERED
to the head of its camp queue (R67, R73, R75). -/
def Line.cleared (r : Line) : Line := { r with
  state := if r.guardMs ≠ 0 then .clearing else if r.camp = [] then .idle else .offered
  timer := if r.guardMs ≠ 0 then some ⟨.guard, r.guardMs⟩
    else if r.camp = [] then none else some ⟨.offer, 1000 * r.offerS⟩ }

/-- The notices of the entry to CLEARING, as `lineEnded` has them. -/
def clearingEntered (s : State) (o : Option LinkId) (L : LineId) (cause : Cause) (u : State) : State :=
  let r := s.lines.get L
  let w := stateEntered s L r.state .clearing cause u
  if r.guardMs ≠ 0 then w
  else match r.camp with
    | [] => stateEntered s L .clearing .idle .guardEnd w
    | q :: _ => post (posRoute (s.begin o) [q]) (.offer L r.offerS) (stateEntered s L .clearing .offered .guardEnd w)

section
variable {s u t : State} {o : Option LinkId} {L : LineId} {cause : Cause}

/-- A line that nobody holds enters a state, as `stateEntered` tells it. -/
theorem ToldAlike.enterState (h : ToldAlike u t) (hf : t.frame = (s.begin o).frame) {old new : LineState}
    (hs : (t.lines.get L).state = old) (hne : new ≠ old) (hh : (t.lines.get L).holders = [])
    (ho : (t.lines.get L).holdOwner = none) (hc : (t.lines.get L).camp = (s.lines.get L).camp) (c : Cause) :
    ToldAlike (stateEntered s L old new c u) (Machine.enterState L new c t) := by
  have hset : ToldAlike u (t.modLine L fun r => { r with state := new }) := h.quiet rfl rfl rfl
  unfold Machine.enterState Machine.enterStateTo
  rw [hs]
  exact hset.reportChange (s := s.begin o) hf hne (by simp) (by simp [hh]) (by simp [ho]) (by simp [hc]) c

theorem enterState_lines (L : LineId) (new : LineState) (c : Cause) (s : State) :
    (enterState L new c s).lines = s.lines.modify L fun r => { r with state := new } := by
  simp [enterState, enterStateTo]

@[simp] theorem enterState_frame (L : LineId) (new : LineState) (c : Cause) (s : State) :
    (enterState L new c s).frame = s.frame := by
  unfold enterState enterStateTo
  rw [reportChange_frame]
  rfl

/-- What of a line's record its reports and offers are made of, where nobody holds it (R75, R85). -/
structure Vacant (s : State) (L : LineId) (t : State) : Prop where
  holders : (t.lines.get L).holders = []
  owner : (t.lines.get L).holdOwner = none
  camp : (t.lines.get L).camp = (s.lines.get L).camp
  offerS : (t.lines.get L).offerS = (s.lines.get L).offerS

/-- A change of the state and timer alone. -/
theorem Vacant.of_lines {v : State} (h : Vacant s L t) (st : LineState) (tm : Option LineTimer)
    (hv : v.lines.get L = { t.lines.get L with state := st, timer := tm }) : Vacant s L v := by
  obtain ⟨hh, ho, hc, hs⟩ := h
  constructor <;> rw [hv] <;> assumption

/-- The end of CLEARING: IDLE, or OFFERED to the head of the camp queue (R73, R75). -/
theorem endClearing_cleared (h : ToldAlike u t) (hf : t.frame = (s.begin o).frame) (hv : Vacant s L t)
    (hs : (t.lines.get L).state = .clearing) (hp : (t.lines.get L).pendingRing = false) :
    ToldAlike (match (s.lines.get L).camp with
      | [] => stateEntered s L .clearing .idle .guardEnd u
      | q :: _ => post (posRoute (s.begin o) [q]) (.offer L (s.lines.get L).offerS)
          (stateEntered s L .clearing .offered .guardEnd u)) (endClearing L t) ∧
      (endClearing L t).lines = t.lines.modify L fun r => { r with
        state := if r.camp = [] then .idle else .offered
        timer := if r.camp = [] then none else some ⟨.offer, 1000 * r.offerS⟩ } := by
  unfold endClearing offerOrIdle
  rw [if_neg (by simp [hp]), hv.camp]
  generalize hw : stopTimer L t = w
  have hlinew : w.lines = t.lines.modify L fun r => { r with timer := none } := hw ▸ rfl
  have hgetw : w.lines.get L = { t.lines.get L with timer := none } := by rw [hlinew, Tab.get_modify_self]
  have hvw : Vacant s L w := hv.of_lines (t.lines.get L).state none hgetw
  have htoldw : ToldAlike u w := hw ▸ h.quiet rfl rfl rfl
  have hframew : w.frame = (s.begin o).frame := hw ▸ hf
  have hnext {new : LineState} (hn : new ≠ .clearing) := htoldw.enterState hframew (old := .clearing)
    (by rw [hgetw]; exact hs) hn hvw.holders hvw.owner hvw.camp .guardEnd
  cases hq : (s.lines.get L).camp with
  | nil =>
    refine ⟨hnext (by simp), ?_⟩
    simp only [List.isEmpty_nil, if_true]
    rw [enterState_lines, hlinew, Tab.modify_modify]
    exact Tab.modify_congr (by simp [hv.camp, hq])
  | cons q qs =>
    simp only [List.isEmpty_cons, Bool.false_eq_true, if_false]
    have htoldx := hnext (new := .offered) (by simp)
    generalize hx : Machine.enterState L .offered .guardEnd w = x at htoldx
    have hlinex : x.lines = t.lines.modify L fun r => { r with timer := none, state := .offered } := by
      rw [← hx, enterState_lines, hlinew, Tab.modify_modify]
    have hframex : x.frame = (s.begin o).frame := hx ▸ (enterState_frame ..).trans hframew
    unfold makeOffer
    simp only [hlinex, Tab.get_modify_self, hv.camp, hq, hv.offerS]
    refine ⟨(htoldx.post (posRoute_of_frame hframex [q]) _).quiet rfl rfl rfl, ?_⟩
    rw [startTimer, modLine_lines, postPos_eq, post_lines, hlinex, Tab.modify_modify]
    exact Tab.modify_congr (by simp [hv.camp, hq, hv.offerS])

/-- The entry to CLEARING of a line whose call has ended changes its record, and tells it. -/
theorem enterClearing_cleared (h : ToldAlike u t) (hf : t.frame = (s.begin o).frame) (hv : Vacant s L t)
    (hs : (t.lines.get L).state = (s.lines.get L).state) (hne : (s.lines.get L).state ≠ .clearing)
    (hg : (t.lines.get L).guardMs = (s.lines.get L).guardMs)
    (hp : (s.lines.get L).guardMs = 0 → (t.lines.get L).pendingRing = false) :
    ToldAlike (clearingEntered s o L cause u) (enterClearing [] L cause t) ∧
      (enterClearing [] L cause t).lines = t.lines.modify L Line.cleared := by
  generalize hw : startTimer L .guard (t.lines.get L).guardMs t = w
  have hgetw : w.lines.get L = { t.lines.get L with timer := some ⟨.guard, (t.lines.get L).guardMs⟩ } := by
    rw [← hw, startTimer, modLine_lines, Tab.get_modify_self]
  have htoldw : ToldAlike u w := hw ▸ h.quiet rfl rfl rfl
  have hvw : Vacant s L w := hv.of_lines _ _ hgetw
  have hframew : w.frame = (s.begin o).frame := hw ▸ hf
  have htoldx := htoldw.enterState hframew (by rw [hgetw, ← hs]) hne.symm hvw.holders hvw.owner hvw.camp cause
  generalize hx : Machine.enterState L .clearing cause w = x at htoldx
  have hframex : x.frame = (s.begin o).frame := hx ▸ (enterState_frame ..).trans hframew
  have hlinex : x.lines = t.lines.modify L fun r => { r with timer := some ⟨.guard, r.guardMs⟩, state := .clearing } := by
    rw [← hx, enterState_lines, ← hw, startTimer, modLine_lines, Tab.modify_modify]
    exact Tab.modify_congr rfl
  have hgetx : x.lines.get L =
      { t.lines.get L with timer := some ⟨.guard, (t.lines.get L).guardMs⟩, state := .clearing } := by
    rw [hlinex, Tab.get_modify_self]
  have he : enterClearing [] L cause t = if (t.lines.get L).guardMs = 0 then endClearing L x else x := by
    rw [← hx, ← hw]
    rfl
  rw [he]
  unfold clearingEntered
  by_cases hz : (s.lines.get L).guardMs = 0
  · obtain ⟨htold, hlines⟩ := endClearing_cleared (o := o) htoldx hframex (hv.of_lines _ _ hgetx) (by rw [hgetx])
      (by rw [hgetx]; exact hp hz)
    rw [if_pos (hg.trans hz)]
    dsimp only
    rw [if_neg (by simpa using hz)]
    refine ⟨htold, ?_⟩
    rw [hlines, hlinex, Tab.modify_modify]
    exact Tab.modify_congr (by simp [Line.cleared, hg, hz])
  · have hz' : ¬ (t.lines.get L).guardMs = 0 := hg ▸ hz
    rw [if_neg hz']
    dsimp only
    rw [if_pos hz]
    refine ⟨htoldx, ?_⟩
    rw [hlinex]
    exact Tab.modify_congr (by simp [Line.cleared, hg, hz])

end

end

end Sys2Proof.Machine

namespace Sys2Proof.Machine
open Sys2Proof

section

/-! # A call released: `Released` -/

/-! ## Changes of line records, with what they write and tell -/

/-- Only line records, the log and the links differ. -/
def LinesOnly (s t : State) : Prop := { t with lines := s.lines, log := s.log, links := s.links } = s

theorem LinesOnly.trans {s t u : State} (h : LinesOnly s t) (g : LinesOnly t u) : LinesOnly s u := by
  have e := congrArg (fun v : State => { v with lines := s.lines, log := s.log, links := s.links }) g
  exact e.trans h

theorem LinesOnly.ite {c : Prop} [Decidable c] {s t u : State} (h : LinesOnly s t) (k : LinesOnly s u) :
    LinesOnly s (if c then t else u) := by split <;> assumption

theorem linesOnly_submit (r : Record) (s : State) : LinesOnly s (submit r s) := by
  unfold LinesOnly
  rw [submit_eq]

theorem linesOnly_reportChange (extra : List PosId) (L : LineId) (old : LineState) (c : Cause) (s : State) :
    LinesOnly s (reportChange extra L old c s) := by
  unfold LinesOnly
  rw [reportChange_eq]

theorem linesOnly_enterStateTo (extra : List PosId) (L : LineId) (new : LineState) (c : Cause) (s : State) :
    LinesOnly s (enterStateTo extra L new c s) :=
  LinesOnly.trans (t := s.modLine L fun r => { r with state := new }) rfl (linesOnly_reportChange ..)

theorem linesOnly_makeOffer (L : LineId) (s : State) : LinesOnly s (makeOffer L s) := by
  unfold makeOffer
  split <;> rfl

theorem linesOnly_enterAlerting (L : LineId) (s : State) : LinesOnly s (enterAlerting L s) := by
  unfold enterAlerting
  refine LinesOnly.trans (LinesOnly.trans ?_ (linesOnly_submit ..)) (linesOnly_reportChange ..)
  rfl

theorem linesOnly_endClearing (L : LineId) (s : State) : LinesOnly s (endClearing L s) := by
  have hstop : LinesOnly s (stopTimer L s) := rfl
  refine LinesOnly.ite (LinesOnly.trans ?_ (linesOnly_enterAlerting L _)) (LinesOnly.ite ?_ ?_)
  · rfl
  · exact hstop.trans (linesOnly_enterStateTo ..)
  · exact (hstop.trans (linesOnly_enterStateTo ..)).trans (linesOnly_makeOffer L _)

theorem linesOnly_enterClearing (extra : List PosId) (L : LineId) (c : Cause) (s : State) :
    LinesOnly s (enterClearing extra L c s) := by
  have h : LinesOnly s (startTimer L .guard (s.lines.get L).guardMs s |> enterStateTo extra L .clearing c) :=
    LinesOnly.trans (t := startTimer L .guard (s.lines.get L).guardMs s) rfl (linesOnly_enterStateTo ..)
  exact LinesOnly.ite (h.trans (linesOnly_endClearing L _)) h

/-! ## What is left of a line's call once its monitors have ended -/

/-- Steps 2 to 5 of a release (R67). -/
def callGone (L : LineId) (s : State) : State :=
  endConferences L s
    |>.modLine L (fun r => { r with holdOwner := none, timer := none })
    |> dropLineBridge L
    |>.modGen L (fun g => { g with sustained := false })
    |>.modLine L (fun r => { r with farPresent := false })

theorem vacate_eq (L : LineId) (c : Cause) (s : State) : vacate L c s = callGone L (endMonitors L c s) := rfl

section
variable (L : LineId) (s : State)

@[simp] theorem callGone_positions : (callGone L s).positions = s.positions := by simp [callGone]
@[simp] theorem callGone_channels : (callGone L s).channels = s.channels := by simp [callGone]
@[simp] theorem callGone_log : (callGone L s).log = s.log := by simp [callGone]
@[simp] theorem callGone_links : (callGone L s).links = s.links := by simp [callGone]
@[simp] theorem callGone_gens : (callGone L s).gens = s.gens.modify L fun g => { g with sustained := false } := by
  simp [callGone]

theorem callGone_freed {d : BridgeId} (hd : (s.lines.get L).bridge = some d) :
    (callGone L s).bridges.get d = Bridge.reset := by
  simp [callGone, dropLineBridge_bridges, hd]

theorem callGone_unconferred {d : BridgeId} (hd : (s.lines.get L).bridge ≠ some d) :
    unconferred s (callGone L s) L d := by
  refine unconferred_congr rfl ?_ (endConferences_unconferred L s d)
  simp [callGone, dropLineBridge_bridges, hd]
end

/-- The record of a hold that is released, as `lineEnded` has it (R72). -/
def holdEnded (s : State) (L : LineId) (cause : Cause) : State :=
  match (s.lines.get L).holdOwner with
  | some p => if (s.lines.get L).state = .held then
      submit { kind := .disconnect, line := some L, pos := some p, cause := some cause, parties := some [] } s else s
  | none => s

theorem lineEnded_eq (s : State) (o : Option LinkId) (L : LineId) (cause monCause : Cause) :
    lineEnded s o L cause monCause = clearingEntered s o L cause (monitorsEnded s o L monCause
      (holdersEnded s o L cause (s.lines.get L).holders (holdEnded s L cause))) := rfl

/-- A line in a call, as `InCall` has it, of which a pending ring matters only under a guard of 0 (R73). -/
structure OnCall (s : State) (L : LineId) : Prop where
  state : (s.lines.get L).state = .connected ∨
    (s.lines.get L).state = .held ∧ (s.lines.get L).holders = [] ∧ (s.lines.get L).holdOwner.isSome
  holders : ∀ x ∈ (s.lines.get L).holders, x.2 ≠ .mic ∧ s.binding x.1 x.2 = .holder L
  monitors : ∀ x ∈ (s.lines.get L).monitors, (x.2 = .ha ∨ x.2 = .hb) ∧ s.binding x.1 x.2 = .monitor L
  once : (s.lines.get L).holders.Nodup ∧ (s.lines.get L).monitors.Nodup
  pending : (s.lines.get L).guardMs = 0 → (s.lines.get L).pendingRing = false

theorem InCall.onCall {s : State} {L : LineId} (h : InCall s L) : OnCall s L :=
  ⟨h.state, h.holders, h.monitors, h.once, fun _ => h.pending⟩

/-- A line whose holders have left is released as `Released` says: its monitors end, its bridge is freed and it enters
CLEARING (R67). -/
theorem released_of_callEnding {s t : State} {o : Option LinkId} {L : LineId} {cause monCause : Cause} (hs : OnCall s L)
    (hmon : monCause ≠ .none) (h : CallEnding s o L (s.lines.get L).holders [] t) (hk : Kept (s.begin o) t)
    (hu : ToldAlike (holdersEnded s o L cause (s.lines.get L).holders (holdEnded s L cause)) t) :
    Released s (releaseLine [] L cause monCause t) o L cause monCause := by
  have hmonitors : (t.lines.get L).monitors = (s.lines.get L).monitors := by simp [h.lines]
  have hdisjoint : ∀ x ∈ (s.lines.get L).monitors,
      (x.2 = .ha ∨ x.2 = .hb) ∧ s.binding x.1 x.2 = .monitor L ∧ x ∉ (s.lines.get L).holders := fun x hx => by
    obtain ⟨hxm, hxb⟩ := hs.monitors x hx
    exact ⟨hxm, hxb, fun hin => by simpa [hxb] using (hs.holders x hin).2⟩
  obtain ⟨hm, hmu⟩ := CallEnding.monitors hmon (s.lines.get L).monitors [] _ t hdisjoint hs.once.2 h hu
  have hend : endMonitors L monCause t = t.each (s.lines.get L).monitors fun x => endMonitor L x monCause := by
    rw [endMonitors, hmonitors]
  rw [← hend] at hm hmu
  have hframe : (vacate L monCause t).frame = (s.begin o).frame := (kept_vacate L monCause t).frame.trans h.frame
  have hlines : (vacate L monCause t).lines = s.lines.modify L fun r => { r with
      holders := [], monitors := [], holdOwner := none, timer := none, bridge := none, farPresent := false } := by
    rw [vacate_lines, h.lines, Tab.modify_modify]
    exact Tab.modify_congr (by simp)
  have hkept : Kept (s.begin o) (releaseLine [] L cause monCause t) := hk.trans (kept_releaseLine ..)
  have hframed := lineFrame_releaseLine [] L cause monCause t
  unfold releaseLine at hkept hframed ⊢
  rw [vacate_eq] at hframe hlines hkept hframed ⊢
  generalize endMonitors L monCause t = m at hm hmu hframe hlines hkept hframed
  have hget : (callGone L m).lines.get L = { s.lines.get L with
      holders := [], monitors := [], holdOwner := none, timer := none, bridge := none, farPresent := false } := by
    rw [hlines, Tab.get_modify_self]
  have htold := hmu.quiet (v := callGone L m) (by simp) (by simp) (hframe.trans hm.frame.symm)
  have hvacant : Vacant s L (callGone L m) := by constructor <;> rw [hget]
  obtain ⟨hcu, hcl⟩ := enterClearing_cleared (o := o) (cause := cause) htold hframe hvacant (by rw [hget])
    (fun hc => by rcases hs.state with e | ⟨e, _⟩ <;> simp [e] at hc) (by rw [hget]) fun hz => by
      rw [hget]
      exact hs.pending hz
  have honly := linesOnly_enterClearing [] L cause (callGone L m)
  generalize hv : enterClearing [] L cause (callGone L m) = v at hcu hcl honly hkept hframed
  have hpos : v.positions = m.positions := (congrArg State.positions honly :).trans (callGone_positions L m)
  have hbridges : v.bridges = (callGone L m).bridges := (congrArg State.bridges honly :)
  exact {
    line := by
      rw [hcl, hlines, Tab.modify_modify]
      exact Tab.modify_congr rfl
    presence := by
      have e : v.gens = (callGone L m).gens := (congrArg State.gens honly :)
      rw [e, callGone_gens, hm.gens]
    bindings := ⟨fun p e => (State.binding_congr hpos p e).trans (by simpa using hm.bindings.1 p e),
      fun p => by rw [hpos, hm.bindings.2 p]⟩
    channels := fun c => by
      have e : v.channels = (callGone L m).channels := (congrArg State.channels honly :)
      rw [e, callGone_channels, hm.channels c]
    freed := fun b hb => by
      rw [hbridges]
      exact callGone_freed L m (hm.bridge.trans hb)
    bridges := fun d hd => unconferred_congr (hm.bridges d hd).symm (by rw [hbridges])
      (callGone_unconferred L m (by rwa [hm.bridge]))
    log := by rw [lineEnded_eq]; exact hcu.log
    notices := by rw [lineEnded_eq]; exact hcu.notices
    calls := ⟨hframed.calls.trans h.calls, hframed.icm.trans h.icm, hframed.hoots.trans h.hoots⟩
    rest := onlyCalls_of (frame_of_begin hkept.frame) hkept.posSet hkept.lineSet }

/-- A CONNECTED line whose holders are all ended, and which is then released (R67). -/
theorem released_endHolders {s : State} {o : Option LinkId} {L : LineId} {cause monCause : Cause} (hs : OnCall s L)
    (hc : (s.lines.get L).state = .connected) (hmon : monCause ≠ .none) :
    Released s (releaseLine [] L cause monCause (endHolders L cause (s.begin o))) o L cause monCause := by
  obtain ⟨h, hu⟩ := CallEnding.holders (o := o) hs.once.1 hs.holders cause (s.lines.get L).holders [] s (s.begin o) rfl
    (callEnding_begin s o L) (toldAlike_begin s o)
  have hu' : holdEnded s L cause = s := by
    unfold holdEnded
    split
    · rw [if_neg (by simp [hc])]
    · rfl
  exact released_of_callEnding hs hmon h (kept_endHolders L cause (s.begin o)) (hu'.symm ▸ hu)

end

end Sys2Proof.Machine

namespace Sys2Proof.Machine
open Sys2Proof

section

/-! # POS_CLOSE (R14) -/

/-! ## Steps of a teardown that find nothing to end -/

theorem each_id {α : Type} {f : α → State → State} {s : State} : ∀ (xs : List α), (∀ x ∈ xs, f x s = s) → s.each xs f = s
  | [], _ => rfl
  | x :: xs, h => by
    rw [each_cons, h x List.mem_cons_self]
    exact each_id xs fun y hy => h y (List.mem_cons_of_mem x hy)

/-- Only one step of a fold finds something to do, before it and after it. -/
theorem each_single {α : Type} {f : α → State → State} {m : α} {P : State → Prop} (hm : ∀ s, P s → P (f m s))
    (hid : ∀ x, x ≠ m → ∀ s, P s → f x s = s) :
    ∀ (xs : List α) (s : State), xs.Nodup → m ∈ xs → P s → s.each xs f = f m s
  | [], _, _, h, _ => absurd h List.not_mem_nil
  | x :: xs, s, hn, hx, hs => by
    obtain ⟨hxs, hn⟩ := List.nodup_cons.mp hn
    rw [each_cons]
    by_cases hxm : x = m
    · subst hxm
      exact each_id xs fun y hy => hid y (fun e => hxs (e ▸ hy)) _ (hm s hs)
    · rw [hid x hxm s hs]
      exact each_single hm hid xs s hn (List.mem_of_ne_of_mem (Ne.symm hxm) hx) hs

section
variable {p : PosId} {s : State} (c : Cause)

theorem icmTeardown_id (hf : (s.positions.get p).feed = none) (hi : s.icmState p = .idle) (hw : s.waiting p = none)
    (hb : ∀ e d, s.binding p e ≠ .icm d) : icmTeardown p c s = s := by
  have hslot : emptySlot p c s = s := by simp [emptySlot, hw]
  have hcall : leaveCall p (.teardown c) false s = s := by simp [leaveCall, hi]
  have hends : s.each [.ha, .hb, .mic] (clearIcmAt p c) = s := each_id _ fun e _ => by
    unfold clearIcmAt
    split
    · rename_i d hd
      exact absurd hd (hb e d)
    · rfl
  have hicm : s.modIcm p (fun _ => ⟨.idle, none⟩) = s := by
    have e : s.icm.modify p (fun _ => ⟨.idle, none⟩) = s.icm := Tab.modify_eq_self (by rw [← hi, ← hw]; rfl)
    rw [State.modIcm, e]
  have hfeed : setFeed p none s = s := by
    have e : s.positions.modify p (fun r => { r with feed := none }) = s.positions :=
      Tab.modify_eq_self (by rw [← hf])
    rw [setFeed_eq, State.modPos, e]
  rw [icmTeardown, hslot, hcall, clearIcm_eq, hends, hicm, hfeed]

theorem endAllTalk_id (w : ClashEval) (ht : ∀ b, ¬ s.talksAt b p) (hm : (s.positions.get p).mic = .none) :
    endAllTalk w p c s = s := by
  rw [endAllTalk, each_id _ fun b _ => endTalk_of_not_talksAt (ht b) w c]
  simp [endLineTalkOf, hm]

theorem leaveCamps_id (h : ∀ L, p ∉ (s.lines.get L).camp) : leaveCamps p c s = s := each_id _ fun L _ => by
  simp [campRemove, h L]

theorem dropMonitors_id (h : ∀ e L, s.binding p e ≠ .monitor L) : s.each [.ha, .hb] (dropMonitorAt p c) = s :=
  each_id _ fun e _ => by
    unfold dropMonitorAt
    split
    · rename_i L hL
      exact absurd hL (h e L)
    · rfl

theorem releaseHolds_id (h : ∀ L, (s.lines.get L).holdOwner ≠ some p) : releaseHolds p c s = s :=
  each_id _ fun L _ => if_neg (h L)

/-- One endpoint that holds a line drops it, where no other one does. -/
theorem dropHolders_single {e : Endpoint} {L : LineId} (he : s.binding p e = .holder L) (hm : e ≠ .mic)
    (h : ∀ f, f ≠ e → ∀ M, s.binding p f ≠ .holder M) :
    s.each lineEndpoints (dropHolderAt p c) = dropHolder L (p, e) c false s := by
  have hself : dropHolderAt p c e s = dropHolder L (p, e) c false s := by simp [dropHolderAt, he]
  rw [← hself]
  refine each_single (P := fun t => ∀ f, f ≠ e → ∀ M, t.binding p f ≠ .holder M)
    (fun t ht f hf M => (wanes_dropHolderAt p c e t).ne (by simp) (by simp) (ht f hf M)) (fun f hf t ht => ?_)
    lineEndpoints s (by decide) ?_ h
  · unfold dropHolderAt
    split
    · rename_i M hM
      exact absurd hM (ht f hf M)
    · rfl
  · cases e <;> simp_all [lineEndpoints]
end

/-! ## The line that a closing position holds alone -/

/-- A holder that holds a CONNECTED line alone releases it (R67). -/
theorem dropHolder_alone {L : LineId} {x : PosId × Endpoint} {s : State} (hc : (s.lines.get L).state = .connected)
    (hh : (s.lines.get L).holders = [x]) (c : Cause) :
    dropHolder L x c false s = releaseLine [] L c .monitorEnd (endHolders L c s) := by
  have hend : endHolders L c s = endHolder L x c false s := by simp [endHolders, hh]
  have hlines := endHolders_lines L c s
  rw [hend] at hlines ⊢
  unfold dropHolder
  dsimp only
  rw [hlines, Tab.get_modify_self, if_neg (by simp [hc]), if_pos List.isEmpty_nil]

/-- What only the links differ in, without a notice, is released alike. -/
theorem Released.congr {s t v : State} {o : Option LinkId} {L : LineId} {c m : Cause} (h : Released s t o L c m)
    (hv : { v with links := t.links } = t) (hn : noNotice t v) : Released s v o L c m where
  line := (congrArg State.lines hv :).trans h.line
  presence := (congrArg State.gens hv :).trans h.presence
  bindings := by
    have e : v.positions = t.positions := (congrArg State.positions hv :)
    exact ⟨fun p f => (State.binding_congr e p f).trans (h.bindings.1 p f), fun p => by rw [e]; exact h.bindings.2 p⟩
  channels d := by
    have e : v.channels = t.channels := (congrArg State.channels hv :)
    rw [e]
    exact h.channels d
  freed b hb := by
    have e : v.bridges = t.bridges := (congrArg State.bridges hv :)
    rw [e]
    exact h.freed b hb
  bridges d hd := by
    have e : v.bridges = t.bridges := (congrArg State.bridges hv :)
    exact unconferred_congr rfl (by rw [e]) (h.bridges d hd)
  log := (congrArg State.log hv :).trans h.log
  notices := h.notices.trans hn
  calls := ⟨(congrArg State.calls hv :).trans h.calls.1, (congrArg State.icm hv :).trans h.calls.2.1,
    (congrArg State.hoots hv :).trans h.calls.2.2⟩
  rest := by
    have e : onlyCalls s { v with links := t.links } := by rw [hv]; exact h.rest
    exact e

/-- A position that holds one line, alone, and has nothing else that ends: all that POS_CLOSE ends of its call state is
that line's call. -/
theorem endCallState_alone {p : PosId} {e : Endpoint} {L : LineId} {s : State} {o : Option LinkId} (hs : InCall s L)
    (hh : (s.lines.get L).holders = [(p, e)]) (hm : (s.positions.get p).mic = .none)
    (hf : (s.positions.get p).feed = none)
    (hb : ∀ f, f ≠ e → (∀ M, s.binding p f ≠ .holder M ∧ s.binding p f ≠ .monitor M) ∧ ∀ d, s.binding p f ≠ .icm d)
    (hi : s.icmState p = .idle) (hw : s.waiting p = none) (hc : ∀ M, p ∉ (s.lines.get M).camp)
    (ht : ∀ b, ¬ s.talksAt b p) (c : Cause) :
    endCallState .atOnce p c (s.begin o) = releaseLine [] L c .monitorEnd (endHolders L c (s.begin o)) := by
  have hx : (p, e) ∈ (s.lines.get L).holders := by simp [hh]
  obtain ⟨hemic, hel⟩ := hs.holders (p, e) hx
  have hconn : (s.lines.get L).state = .connected := hs.state.resolve_right fun ⟨_, hn, _⟩ => by simp [hh] at hn
  have hmon (f : Endpoint) (M : LineId) : s.binding p f ≠ .monitor M := by
    by_cases hfe : f = e
    · simp [hfe, hel]
    · exact ((hb f hfe).1 M).2
  have hicm (f : Endpoint) (d : BridgeId) : s.binding p f ≠ .icm d := by
    by_cases hfe : f = e
    · simp [hfe, hel]
    · exact (hb f hfe).2 d
  unfold endCallState
  rw [icmTeardown_id (s := s.begin o) c hf hi hw hicm, endAllTalk_id (s := s.begin o) c .atOnce ht hm,
    leaveCamps_id (s := s.begin o) c hc, dropMonitors_id (s := s.begin o) c hmon,
    dropHolders_single (s := s.begin o) c hel hemic fun f hf M => ((hb f hf).1 M).1,
    dropHolder_alone (s := s.begin o) hconn hh]

/-- What a closing position held has ended, and only call state has changed (R14). -/
theorem closeCalls_taken (p : PosId) (c : Cause) (s : State) (hk : HootsOk s) :
    HoldsNothing (releaseHolds p c (endCallState .atOnce p c s)) p ∧
      (∀ L, ((releaseHolds p c (endCallState .atOnce p c s)).lines.get L).holdOwner ≠ some p) ∧
      Kept s (releaseHolds p c (endCallState .atOnce p c s)) := by
  have hend := endCallState_holdsNothing .atOnce p c s hk
  have hkept := kept_endCallState .atOnce p c s
  generalize endCallState .atOnce p c s = t at hend hkept
  have hk' := kept_releaseHolds p c t
  exact ⟨hend.of_wanes (wanes_releaseHolds p c t) hk'.camps, releaseHolds_owner p c t, hkept.trans hk'⟩

theorem modOpen_binding (p : PosId) (v : Bool) (s : State) (q : PosId) (f : Endpoint) :
    (s.modPos p fun r => { r with isOpen := v }).binding q f = s.binding q f := by
  rw [State.binding, modPos_positions, Tab.get_modify]
  split
  · rename_i h
    rw [State.binding, h]
    cases f <;> rfl
  · rfl

theorem modOpen_feed (p : PosId) (v : Bool) (s : State) (q : PosId) :
    ((s.modPos p fun r => { r with isOpen := v }).positions.get q).feed = (s.positions.get q).feed := by
  rw [modPos_positions, Tab.get_modify]
  split
  · rename_i h
    rw [h]
  · rfl

/-- The service state is no part of what a position holds. -/
theorem HoldsNothing.modOpen {s : State} {p : PosId} (h : HoldsNothing s p) (q : PosId) (v : Bool) :
    HoldsNothing (s.modPos q fun r => { r with isOpen := v }) p where
  holder e L he := by
    rw [modOpen_binding]
    exact h.holder e L he
  monitor L := by
    rw [modOpen_binding, modOpen_binding]
    exact h.monitor L
  camp := h.camp
  talk := h.talk
  icm c := by
    rw [modOpen_binding, modOpen_binding]
    exact h.icm c
  mic := (modOpen_binding q v s p .mic).trans h.mic
  idle := h.idle
  waiting := h.waiting
  feed := (modOpen_feed q v s p).trans h.feed

/-- A position whose service state stood while its call state ended is as it was once it is OPEN again. -/
theorem reopened {p : PosId} {s u : State} (ho : (s.positions.get p).isOpen = true)
    (hp : (u.positions.get p).settings = (s.positions.get p).settings) :
    (u.positions.modify p fun r => { r with isOpen := false }).modify p (fun r => { r with isOpen := true }) =
      u.positions := by
  have hopen : (u.positions.get p).isOpen = true := (congrArg Position.isOpen hp :).trans ho
  rw [Tab.modify_modify]
  exact Tab.modify_eq_self (by rw [← hopen])

end

/-- Settles O21: the teardown ends every part of the call state (`endCallState_holdsNothing`) and every hold
(`releaseHolds_owner`) and keeps the settings; of a position that holds one line alone it is that line's release
(`endCallState_alone`, `released_endHolders`). -/
theorem posCloseTaken : Obligations.PosCloseTaken := by
  intro l p s hk hmay hopen
  obtain ⟨hholds, howner, hkept⟩ := closeCalls_taken p .closed (s.begin (some l)) hk
  have hclose : closePosition p (s.begin (some l)) =
      (releaseHolds p .closed (endCallState .atOnce p .closed (s.begin (some l)))).modPos p
        fun r => { r with isOpen := false } := rfl
  refine ⟨_, congrArg Host.Outcome.next (positionRequest_owner hmay _ (fun _ => hopen) (by simp) _ _), ?_⟩
  dsimp only
  rw [hclose]
  have halone {e : Endpoint} {L : LineId} := endCallState_alone (p := p) (e := e) (L := L) (s := s) (o := some l) (c := .closed)
  generalize hv : endCallState .atOnce p .closed (s.begin (some l)) = v at hholds howner hkept halone
  generalize hu : releaseHolds p .closed v = u at hholds howner hkept
  have hpos := reopened hopen (hkept.posSet p)
  have honly : onlyCalls s u := onlyCalls_of (frame_of_begin hkept.frame) hkept.posSet hkept.lineSet
  have hopened := hholds.modOpen p false
  refine ⟨answered_respond .., by simp [done, respond], ?_, howner, ?_, ?_⟩
  · exact ⟨hopened.holder, hopened.monitor, hopened.camp, hopened.talk, hopened.icm, hopened.mic, hopened.idle,
      hopened.waiting, hopened.feed⟩
  · have hwith {x : Tab Position 48} (h : x = u.positions) : onlyCalls s { u with positions := x } := h ▸ honly
    exact hwith hpos
  · intro e L hs hh hmon hmic hfeed hb hi hw hc ht
    have hline := halone hs hh hmic hfeed hb hi hw (fun M => (hc M).1) (holdsNothing_talk_iff.mp ht)
    have hv' : u = v := by
      rw [← hu]
      refine releaseHolds_id _ fun M => ?_
      have hw := wanes_endCallState .atOnce p .closed (s.begin (some l))
      rw [hv] at hw
      rcases hw.owner M with e | e <;> rw [e]
      · exact (hc M).2
      · simp
    have hconn : (s.lines.get L).state = .connected := hs.state.resolve_right fun ⟨_, hn, _⟩ => by simp [hh] at hn
    have hrel := released_endHolders (o := some l) (cause := .closed) hs.onCall hconn (monCause := .monitorEnd) (by simp)
    rw [← hline, ← hv'] at hrel
    refine hrel.congr ?_ ?_
    · exact congrArg (fun x => ({ u with positions := x } : State)) hpos
    · exact noNotice.respond (x := done (endedCounts p s (u.modPos p fun r => { r with isOpen := false }))
        (u.modPos p fun r => { r with isOpen := false })) (noNotice.refl u) l _

end Sys2Proof.Machine

namespace Sys2Proof.Machine
open Sys2Proof

section

/-! # LINE_TAKE (R59)

How the request reaches its course, and what its parts make of a bridge and of a channel. -/

/-- A holder take passes steps 1 to 4 of R59. -/
theorem exec_lineTake {l : LinkId} {p : PosId} {e : Endpoint} {L : LineId} {fl : Byte} {s : State}
    (hmay : mayTake s l .lineTake (some p)) (ho : (s.positions.get p).isOpen = true) (hu : s.posUp p = true)
    (ha : s.appears p L = true) (he : e ≠ .mic) (hfl : fl.getLsbD 2 = false)
    (ht : (s.lines.get L).ltype = .mr ∨ (s.lines.get L).ltype = .ar) :
    exec (.lineTake l (idByte p) (endByte e) (idByte L) fl) s = .next (respond l (BitVec.ofNat 8 ReqKind.lineTake.code)
      (decideTake L p e ⟨fl.getLsbD 0, fl.getLsbD 1, false⟩ (s.begin (some l)))) := by
  refine congrArg Host.Outcome.next ((positionRequest_owner hmay _ (fun _ => ho) (fun _ => hu) _ _).trans ?_)
  have hflags : takeFlagsOf fl = ⟨fl.getLsbD 0, fl.getLsbD 1, false⟩ := by rw [takeFlagsOf, hfl]
  have hcan : canTake false e = true := by cases e <;> simp_all [canTake]
  have htake : (s.lines.get L).ltype.takeable = true := by rcases ht with h | h <;> rw [h] <;> rfl
  have happ : takePermitted (s.begin (some l)) p L false = true := ha
  simp [lineTake, hflags, hcan, htake, happ]

/-! ## Sources that leave and join -/

theorem join_contributors {b : BridgeId} {x : SourceId} {s : State} (hhas : (s.bridges.get b).has x = false)
    (hroom : (s.bridges.get b).contributors.length < 12) (gain shift : Nat) (o : Origin) :
    ((join b x gain shift o s).bridges.get b).contributors =
      (s.bridges.get b).contributors ++ [⟨x, min gain 4095, min shift 12, o⟩] := by
  have hans : joinAnswer s b x = none := by simp [joinAnswer, hhas, Config.maxContributors, Nat.not_le.mpr hroom]
  simp [join, hans, Bridge.rearm, Bridge.reflag]

/-- A source that joins or leaves keeps the bridge's kind and owner (R19). -/
theorem join_use (b d : BridgeId) (x : SourceId) (gain shift : Nat) (o : Origin) (s : State) :
    ((join b x gain shift o s).bridges.get d).use = (s.bridges.get d).use := by
  unfold join
  split
  · rfl
  · rw [modBridge_bridges, Tab.get_modify]
    split
    · rename_i h
      rw [h]
      rfl
    · rfl

section
variable (p : PosId) (e : Endpoint) (b : BridgeId) (s : State)

theorem leaveEndpoint_contributors : ((leaveEndpoint p e b s).bridges.get b).contributors =
    (s.bridges.get b).contributors.filter fun c => some c.source ≠ endpointSource p e := by
  unfold leaveEndpoint
  split
  · rename_i x hx
    rw [leave_contributors, hx]
    simp
  · rename_i hx
    rw [hx]
    simp

theorem leaveEndpoint_bridges {d : BridgeId} (hd : d ≠ b) :
    (leaveEndpoint p e b s).bridges.get d = s.bridges.get d := by
  unfold leaveEndpoint
  split
  · simp [leave, hd]
  · rfl

theorem joinEndpoint_bridges {d : BridgeId} (hd : d ≠ b) (n : Nat) :
    (joinEndpoint p e b n s).bridges.get d = s.bridges.get d := (talkFrame_joinEndpoint p e b n s).bridges d hd

theorem joinEndpoint_use (d : BridgeId) (n : Nat) :
    ((joinEndpoint p e b n s).bridges.get d).use = (s.bridges.get d).use := by
  unfold joinEndpoint
  split
  · exact join_use ..
  · rfl

/-- The entry with which a handset joins, and none for a key (R5, R22). -/
def endpointEntry (r : Position) : List Contrib :=
  (endpointSource p e).toList.map fun x => ⟨x, min (r.gain e) 4095, 0, .owner⟩

variable {p e b s} in
theorem joinEndpoint_contributors (hfree : ∀ x, endpointSource p e = some x → (s.bridges.get b).has x = false)
    (hroom : (s.bridges.get b).contributors.length < 12) : ((joinEndpoint p e b 0 s).bridges.get b).contributors =
      (s.bridges.get b).contributors ++ endpointEntry p e (s.positions.get p) := by
  unfold joinEndpoint endpointEntry
  split
  · rename_i x hx
    rw [join_contributors (hfree x hx) hroom, hx]
    simp
  · rename_i hx
    rw [hx]
    simp
end

@[simp] theorem Position.gain_setBinding (r : Position) (e f : Endpoint) (v : Binding) :
    (r.setBinding f v).gain e = r.gain e := by cases e <;> cases f <;> rfl

/-! ## The bytes of the answer (R62, R191) -/

theorem takeBody_eq {s : State} {L : LineId} {p : PosId} {e : Endpoint} {r : Line} {b : BridgeId} {ch : Option ChanId}
    (hr : s.lines.get L = r) (hb : r.bridge = some b) (hch : channelAt s p e = ch) (was : Binding) :
    takeBody s L p e was = b1 r.state.code ++ b2 r.holders.length ++
      [idByte b, (ch.map idByte).getD 0xFF#8] ++ bBinding was := by
  subst hr hch
  simp only [takeBody, hb, Option.map_some, bOpt, b1, idByte]
  cases channelAt s p e <;> simp [idByte]

/-! ## Channels -/

theorem channelAt_eq_none {s : State} {p : PosId} {e : Endpoint} : channelAt s p e = none ↔
    ∀ c r, s.channels.get c = some r → ¬ (r.pos = p ∧ r.endpoint = e) := by
  simp only [channelAt, List.find?_eq_none, ids, List.mem_finRange, forall_true_left]
  refine forall_congr' fun c => ?_
  cases s.channels.get c <;> simp

/-- An endpoint that held no channel holds the one that is given to it. -/
theorem channelAt_of_set {s t : State} {p : PosId} {e : Endpoint} {c : ChanId} {r : Channel}
    (h : channelAt s p e = none) (ht : t.channels = s.channels.set c (some r)) (hp : r.pos = p) (he : r.endpoint = e) :
    channelAt t p e = some c := by
  cases hc : channelAt t p e with
  | none => exact absurd ⟨hp, he⟩ (channelAt_eq_none.mp hc c r (by simp [ht]))
  | some d =>
    obtain ⟨y, hy, hyp⟩ := channelAt_some hc
    by_cases hd : d = c
    · rw [hd]
    · rw [ht, Tab.get_set_ne _ _ hd] at hy
      exact absurd hyp (channelAt_eq_none.mp h d y hy)

theorem channelAt_of_channels {s t : State} (h : t.channels = s.channels) (p : PosId) (e : Endpoint) :
    channelAt t p e = channelAt s p e := by simp only [channelAt, h]

end

end Sys2Proof.Machine

namespace Sys2Proof.Machine
open Sys2Proof

section

/-! # Moves (R9) -/

/-- Steps 3 to 5 of R9: the old endpoint is unbound and its source leaves, the new one's source joins and it is bound. -/
def rebind (p : PosId) (old new : Endpoint) (L : LineId) (b : BridgeId) (s : State) : State :=
  bind p old .none s |> leaveEndpoint p old b |> joinEndpoint p new b 0 |> bind p new (.holder L)

/-- The new endpoint in the holder entry's place. -/
def Line.moved (p : PosId) (old new : Endpoint) (r : Line) : Line :=
  { r with holders := r.holders.map fun x => if x = (p, old) then (p, new) else x }

theorem commitMove_eq {s : State} {p : PosId} {new : Endpoint} (hfree : s.binding p new = .none) (L : LineId)
    (old : Endpoint) (park : Bool) (b : BridgeId) :
    commitMove L p old new park b s = moveChannel L p new b (channelAt s p old)
      (rebind p old new L b (endTalkOfEndpoint p old L .none (s.modLine L (Line.moved p old new)))) := by
  have hd : displace p new park false s = s := by simp [displace, hfree]
  unfold commitMove
  rw [hd]
  rfl

section
variable (p : PosId) (old new : Endpoint) (L : LineId) (b : BridgeId) (s : State)

@[simp] theorem rebind_lines : (rebind p old new L b s).lines = s.lines := by simp [rebind]
@[simp] theorem rebind_gens : (rebind p old new L b s).gens = s.gens := by simp [rebind]
@[simp] theorem rebind_icm : (rebind p old new L b s).icm = s.icm := by simp [rebind]
@[simp] theorem rebind_calls : (rebind p old new L b s).calls = s.calls := by simp [rebind]
@[simp] theorem rebind_hoots : (rebind p old new L b s).hoots = s.hoots := by simp [rebind]
@[simp] theorem rebind_channels : (rebind p old new L b s).channels = s.channels := by simp [rebind]
@[simp] theorem rebind_log : (rebind p old new L b s).log = s.log := by simp [rebind]
@[simp] theorem rebind_links : (rebind p old new L b s).links = s.links := by simp [rebind]

theorem rebind_positions : (rebind p old new L b s).positions =
    s.positions.modify p fun x => (x.setBinding old .none).setBinding new (.holder L) := by
  simp [rebind, Tab.modify_modify]

theorem rebind_bridges {d : BridgeId} (hd : d ≠ b) : (rebind p old new L b s).bridges.get d = s.bridges.get d := by
  simp only [rebind, bind_eq, modPos_bridges]
  rw [joinEndpoint_bridges _ _ _ _ hd, leaveEndpoint_bridges _ _ _ _ hd, modPos_bridges]

variable {p old new L b s} in
/-- The old endpoint's entry goes and the new one's comes (R9). -/
theorem rebind_contributors (hfree : ∀ x, endpointSource p new = some x → (s.bridges.get b).has x = false)
    (hroom : (s.bridges.get b).contributors.length < 12) : ((rebind p old new L b s).bridges.get b).contributors =
      ((s.bridges.get b).contributors.filter fun y => some y.source ≠ endpointSource p old) ++
        endpointEntry p new (s.positions.get p) := by
  generalize hu : leaveEndpoint p old b (bind p old .none s) = u
  have hcs : (u.bridges.get b).contributors =
      (s.bridges.get b).contributors.filter fun y => some y.source ≠ endpointSource p old := by
    rw [← hu, leaveEndpoint_contributors]
    rfl
  have hgain : endpointEntry p new (u.positions.get p) = endpointEntry p new (s.positions.get p) := by
    have e : (u.positions.get p) = (s.positions.get p).setBinding old .none := by simp [← hu]
    simp only [endpointEntry, e, Position.gain_setBinding]
  have hjoin := joinEndpoint_contributors (p := p) (e := new) (b := b) (s := u) (fun x hx => ?_) ?_
  · rw [hcs, hgain] at hjoin
    rw [← hjoin, ← hu]
    rfl
  · have h := hfree x hx
    simp only [Bridge.has, List.any_eq_false] at h ⊢
    rw [hcs]
    exact fun c hc => h c (List.mem_of_mem_filter hc)
  · rw [hcs]
    exact lt_of_le_of_lt (List.length_filter_le _ _) hroom
end

/-- A carried channel keeps its number and since; SEGMENT is recorded (R158). -/
theorem carry_eq {c : ChanId} {y : Channel} {s : State} (h : s.channels.get c = some y) (p : PosId) (e : Endpoint)
    (b : BridgeId) (L : LineId) : carry c p e b L s =
      submit { kind := .segment, channel := some c, pos := some p, endpoint := some e, bridge := some b,
               line := some L, cause := some (if y.bridge = b then .move else .retarget) }
        (s.setChan c (some { y with pos := p, endpoint := e, key := none, bridge := b })) := by
  rw [carry, h]

/-- A move whose checks pass, by an endpoint that is bound to nothing (R9). -/
theorem decideTake_move {s : State} {L : LineId} {p : PosId} {old new : Endpoint} {b : BridgeId} {f : TakeFlags}
    (hm : f.monitor = false) (hold : holderEntry s L p = some old) (hne : old ≠ new) (hfree : s.binding p new = .none)
    (hchecks : moveChecks s L p old new = none) (hb : (s.lines.get L).bridge = some b) :
    decideTake L p new f s = (commitMove L p old new f.park b s,
      ⟨.done, takeBody (commitMove L p old new f.park b s) L p new .none⟩) := by
  unfold decideTake moveTake
  simp [hm, hold, hne, hchecks, hb, hfree]

/-- A move that needs no room, or has it, of a line that needs no channel, or has one (R9, R61). -/
theorem moveChecks_pass {s : State} {L : LineId} {p : PosId} {old new : Endpoint}
    (hroom : moveNeedsRoom s p old new = true → lineFull s L = false)
    (hrec : (s.lines.get L).policy = .required → channelAt s p old ≠ none) : moveChecks s L p old new = none := by
  have hfull : (moveNeedsRoom s p old new && lineFull s L) = false := by
    cases h : moveNeedsRoom s p old new with
    | false => rfl
    | true => simpa [h] using hroom h
  have hcheck : recordingCheck s L p old = none := by
    unfold recordingCheck
    split
    · rfl
    · rename_i hp
      rw [if_pos (Option.isSome_iff_ne_none.mpr (hrec (not_not.mp hp)))]
  rw [moveChecks, hfull, hcheck]
  rfl

/-- Only positions, lines, bridges, channels, the log and the links differ, and the model's own record of the request. -/
theorem takeRest {s t : State} {l : LinkId} (hf : t.frame = (s.begin (some l)).frame) (hg : t.gens = s.gens)
    (hi : t.icm = s.icm) (hc : t.calls = s.calls) (hh : t.hoots = s.hoots) :
    { t with lines := s.lines, positions := s.positions, bridges := s.bridges, channels := s.channels,
             log := s.log, links := s.links, origin := s.origin, released := s.released } = s :=
  state_eq (frame_of_begin hf) rfl rfl rfl hg hi hc hh rfl rfl rfl rfl

end

end Sys2Proof.Machine

namespace Sys2Proof.Machine
open Sys2Proof

section

/-! ## What a committed move leaves (R9, R158) -/

section
variable (L : LineId) (p : PosId) (e : Endpoint) (b : BridgeId) (c : Option ChanId) (s : State)

/-- A channel is moved in the channel table, with its record in the log. -/
theorem moveChannel_eq : moveChannel L p e b c s = { s with
    channels := (moveChannel L p e b c s).channels
    log := (moveChannel L p e b c s).log
    links := (moveChannel L p e b c s).links } := by
  unfold moveChannel carry
  split
  · split
    · rw [submit_eq]
      rfl
    · rfl
  · rfl

@[simp] theorem moveChannel_positions : (moveChannel L p e b c s).positions = s.positions := by rw [moveChannel_eq]
@[simp] theorem moveChannel_bridges : (moveChannel L p e b c s).bridges = s.bridges := by rw [moveChannel_eq]
@[simp] theorem moveChannel_lines : (moveChannel L p e b c s).lines = s.lines := by rw [moveChannel_eq]
@[simp] theorem moveChannel_gens : (moveChannel L p e b c s).gens = s.gens := by rw [moveChannel_eq]
@[simp] theorem moveChannel_icm : (moveChannel L p e b c s).icm = s.icm := by rw [moveChannel_eq]
@[simp] theorem moveChannel_calls : (moveChannel L p e b c s).calls = s.calls := by rw [moveChannel_eq]
@[simp] theorem moveChannel_hoots : (moveChannel L p e b c s).hoots = s.hoots := by rw [moveChannel_eq]
end

theorem rebind_told {u s : State} (h : ToldAlike u s) (p : PosId) (old new : Endpoint) (L : LineId) (b : BridgeId) :
    ToldAlike u (rebind p old new L b s) :=
  h.quiet (by simp) (by simp) ((joinEndpoint_frame ..).trans (leaveEndpoint_frame ..))

/-- The channel of the old endpoint goes with the binding, with SEGMENT. -/
theorem carry_told {u s : State} (h : ToldAlike u s) {c : ChanId} {y : Channel} (hy : s.channels.get c = some y)
    (p : PosId) (e : Endpoint) (b : BridgeId) (L : LineId) :
    ToldAlike (submit { kind := .segment, channel := some c, pos := some p, endpoint := some e, bridge := some b,
                        line := some L, cause := some (if y.bridge = b then .move else .retarget) } u)
        (carry c p e b L s) ∧
      (carry c p e b L s).channels =
        s.channels.set c (some { y with pos := p, endpoint := e, key := none, bridge := b }) := by
  have hset : ToldAlike u (s.setChan c (some { y with pos := p, endpoint := e, key := none, bridge := b })) :=
    h.quiet rfl rfl rfl
  rw [carry_eq hy]
  exact ⟨hset.submit _, by simp⟩

theorem endTalkOfEndpoint_id {s : State} {x : PosId × Endpoint} (h : keyTalks s x = none) (L : LineId) (c : Cause) :
    endTalkOfEndpoint x.1 x.2 L c s = s := by
  obtain ⟨p, e⟩ := x
  cases e with
  | key k =>
    have hm : (s.positions.get p).mic ≠ .talk k := fun hm => by simp [keyTalks, hm] at h
    simp [endTalkOfEndpoint, endLineTalk, talksOn, hm]
  | _ => rfl

section
variable {s : State} {p : PosId} {old new : Endpoint} {L : LineId} {b : BridgeId}

/-- What a move leaves, whatever it ended of line talk: `v` is the state in which the old endpoint is unbound. -/
theorem commitMove_fields (hnew : s.binding p new = .none) (park : Bool) {v : State}
    (hv : endTalkOfEndpoint p old L .none (s.modLine L (Line.moved p old new)) = v) :
    (commitMove L p old new park b s).lines = s.lines.modify L (Line.moved p old new) ∧
      (commitMove L p old new park b s).positions =
        v.positions.modify p (fun x => (x.setBinding old .none).setBinding new (.holder L)) ∧
      (∀ d, d ≠ b → (commitMove L p old new park b s).bridges.get d = v.bridges.get d) ∧
      ((commitMove L p old new park b s).bridges.get b).contributors =
        ((rebind p old new L b v).bridges.get b).contributors ∧
      (commitMove L p old new park b s).gens = s.gens ∧ (commitMove L p old new park b s).icm = s.icm ∧
      (commitMove L p old new park b s).calls = s.calls ∧ (commitMove L p old new park b s).hoots = s.hoots := by
  rw [commitMove_eq hnew, hv]
  have hframe := hv ▸ lineFrame_endTalkOfEndpoint p old L .none (s.modLine L (Line.moved p old new))
  refine ⟨?_, by simp [rebind_positions], fun d hd => by simp [rebind_bridges _ _ _ _ _ _ hd], by simp, ?_, ?_, ?_, ?_⟩
  · simp [← hv]
  · rw [moveChannel_gens, rebind_gens, ← hv]
    exact endTalkOfEndpoint_gens (p, old) L .none _
  · rw [moveChannel_icm, rebind_icm, hframe.icm]
    rfl
  · rw [moveChannel_calls, rebind_calls, hframe.calls]
    rfl
  · rw [moveChannel_hoots, rebind_hoots, hframe.hoots]
    rfl

/-- The line talk that a move ends: the MIC is NONE and its source has left (R132). -/
theorem endLineTalk_fields {p : PosId} {k : KeyId} {v : State} (ht : (v.positions.get p).mic = .talk k)
    (hb : (v.lines.get L).bridge = some b) (c : Cause) :
    (endLineTalk p k L c .none v).positions = v.positions.modify p (fun r => { r with mic := .none }) ∧
      (endLineTalk p k L c .none v).bridges = (leave b (micSource p) v).bridges := by
  have hmic : (leave b (micSource p) v).binding p .mic = .talk k := ht
  have hunbind : unbind p .mic .none (leave b (micSource p) v) =
      (leave b (micSource p) v).modPos p (Position.clear .mic) := by
    unfold unbind
    simp [hmic]
  unfold endLineTalk
  rw [if_pos (by simpa [talksOn] using ht), hb]
  dsimp only
  rw [hunbind]
  exact ⟨by rw [postPos_eq, post_positions, submit_positions]; rfl, by simp⟩
end

end

end Sys2Proof.Machine

namespace Sys2Proof.Machine
open Sys2Proof

section

/-! ## The two moves of O32 -/

section
variable {l : LinkId} {p : PosId} {e : Endpoint} {L : LineId} {fl : Byte} {s : State} {old : Endpoint} {b : BridgeId}

/-- A LINE_TAKE that is a move is committed, and answered with the body of R62. -/
theorem exec_move
    (hx : exec (.lineTake l (idByte p) (endByte e) (idByte L) fl) s =
      .next (respond l (BitVec.ofNat 8 ReqKind.lineTake.code)
        (decideTake L p e ⟨fl.getLsbD 0, fl.getLsbD 1, false⟩ (s.begin (some l)))))
    (hold : holderEntry s L p = some old) (hne : old ≠ e) (hfree : s.binding p e = .none)
    (hb : (s.lines.get L).bridge = some b) (hroom : moveNeedsRoom s p old e = true → lineFull s L = false)
    (hrec : (s.lines.get L).policy = .required → channelAt s p old ≠ none) :
    exec (.lineTake l (idByte p) (endByte e) (idByte L) fl) s =
      .next (respond l (BitVec.ofNat 8 ReqKind.lineTake.code)
        (commitMove L p old e (fl.getLsbD 1) b (s.begin (some l)),
          ⟨.done, takeBody (commitMove L p old e (fl.getLsbD 1) b (s.begin (some l))) L p e .none⟩)) := by
  have hchecks : moveChecks (s.begin (some l)) L p old e = none := moveChecks_pass hroom hrec
  rw [hx, decideTake_move (s := s.begin (some l)) rfl hold hne hfree hchecks hb]

/-- The body of a move's answer: the channel is the one that the new endpoint holds now. -/
theorem moveBody {t : State} {ch : Option ChanId}
    (ht : t.lines = s.lines.modify L (Line.moved p old e)) (hb : (s.lines.get L).bridge = some b)
    (hch : channelAt t p e = ch) : takeBody t L p e .none =
      b1 (s.lines.get L).state.code ++ b2 (s.lines.get L).holders.length ++
        [idByte b, (ch.map idByte).getD 0xFF#8, 0#8, 0xFF#8] := by
  have hr : t.lines.get L = Line.moved p old e (s.lines.get L) := by rw [ht, Tab.get_modify_self]
  rw [takeBody_eq hr (by exact hb) hch]
  simp [Line.moved, bBinding]

/-- What a move leaves where it ends no line talk (R9, R158). -/
theorem commitMove_quiet (hfree : s.binding p e = .none) (htalk : keyTalks s (p, old) = none)
    (hroom : (s.bridges.get b).contributors.length < 12)
    (hnew : ∀ x, endpointSource p e = some x → (s.bridges.get b).has x = false) (park : Bool) :
    (commitMove L p old e park b s).positions =
        s.positions.modify p (fun x => (x.setBinding old .none).setBinding e (.holder L)) ∧
      (∀ d, d ≠ b → (commitMove L p old e park b s).bridges.get d = s.bridges.get d) ∧
      ((commitMove L p old e park b s).bridges.get b).contributors =
        ((s.bridges.get b).contributors.filter fun y => some y.source ≠ endpointSource p old) ++
          endpointEntry p e (s.positions.get p) ∧
      (channelAt s p old = none → ToldAlike s (commitMove L p old e park b s) ∧
        (commitMove L p old e park b s).channels = s.channels) ∧
      ∀ x y, channelAt s p old = some x → s.channels.get x = some y →
        ToldAlike (submit { kind := .segment, channel := some x, pos := some p, endpoint := some e, bridge := some b,
                            line := some L, cause := some (if y.bridge = b then .move else .retarget) } s)
          (commitMove L p old e park b s) ∧
        (commitMove L p old e park b s).channels =
          s.channels.set x (some { y with pos := p, endpoint := e, key := none, bridge := b }) := by
  have hv : endTalkOfEndpoint p old L .none (s.modLine L (Line.moved p old e)) = s.modLine L (Line.moved p old e) :=
    endTalkOfEndpoint_id (s := s.modLine L (Line.moved p old e)) (x := (p, old)) htalk L .none
  obtain ⟨-, hpos, hbr, hcs, -⟩ := commitMove_fields (b := b) hfree park hv
  have hquiet : ToldAlike s (s.modLine L (Line.moved p old e)) := (ToldAlike.refl s).quiet rfl rfl rfl
  have htold := rebind_told hquiet p old e L b
  refine ⟨hpos, hbr, hcs.trans (rebind_contributors (s := s.modLine L (Line.moved p old e)) hnew hroom), ?_⟩
  rw [commitMove_eq hfree, hv]
  refine ⟨fun h => ?_, fun x y h hy => ?_⟩
  · rw [h]
    exact ⟨htold, rebind_channels ..⟩
  · rw [h]
    obtain ⟨ht, hc⟩ := carry_told htold (c := x) (y := y) (by simpa using hy) p e b L
    exact ⟨ht, hc.trans (by simp)⟩

/-- What a move to a handset leaves where the MIC talked on the key, which holds no channel (R9, R132). -/
theorem commitMove_talking {k : KeyId} {o : Option LinkId} (he : e = .ha ∨ e = .hb) (hfree : s.binding p e = .none)
    (hmic : (s.positions.get p).mic = .talk k) (hb : (s.lines.get L).bridge = some b)
    (hch : channelAt s p (.key k) = none)
    (hroom : ((s.bridges.get b).contributors.filter fun y => y.source ≠ micSource p).length < 12)
    (hnew : ∀ x, endpointSource p e = some x → (s.bridges.get b).has x = false) (park : Bool) :
    (commitMove L p (.key k) e park b (s.begin o)).positions = s.positions.modify p (fun x =>
        { (x.setBinding (.key k) .none).setBinding e (.holder L) with mic := .none }) ∧
      (∀ d, d ≠ b → (commitMove L p (.key k) e park b (s.begin o)).bridges.get d = s.bridges.get d) ∧
      ((commitMove L p (.key k) e park b (s.begin o)).bridges.get b).contributors =
        ((s.bridges.get b).contributors.filter fun y => y.source ≠ micSource p) ++
          endpointEntry p e (s.positions.get p) ∧
      ToldAlike (post (posRoute (s.begin o) [p]) (.talkState none k .none false .none)
          (submit { kind := .talkEnd, line := some L, bridge := some b, pos := some p, endpoint := some .mic,
                    key := some k, cause := some .none } s)) (commitMove L p (.key k) e park b (s.begin o)) ∧
      (commitMove L p (.key k) e park b (s.begin o)).channels = s.channels := by
  generalize hv : endTalkOfEndpoint p (.key k) L .none ((s.begin o).modLine L (Line.moved p (.key k) e)) = v
  obtain ⟨-, hpos, hbr, hcs, -⟩ := commitMove_fields (s := s.begin o) (b := b) hfree park hv
  obtain ⟨hvpos, hvbr⟩ := endLineTalk_fields (L := L) (b := b) (p := p) (k := k)
    (v := (s.begin o).modLine L (Line.moved p (.key k) e)) hmic (by simpa [Line.moved] using hb) .none
  have hvtold := ((toldAlike_begin s o).quiet (v := (s.begin o).modLine L (Line.moved p (.key k) e)) rfl rfl rfl).endTalk
    (p, .key k) L .none _ (s₀ := s) (o := o) rfl rfl (by simp [Line.moved])
  have htalks : keyTalks s (p, .key k) = some k := by simp [keyTalks, hmic]
  have hvchan : v.channels = s.channels := hv ▸ endTalkOfEndpoint_channels (p, .key k) L .none _
  rw [show endLineTalk p k L .none .none ((s.begin o).modLine L (Line.moved p (.key k) e)) = v from hv] at hvpos hvbr
  simp only [talkEnded, htalks, hb] at hvtold
  rw [hv] at hvtold
  have hstay : (v.bridges.get b).contributors =
      (s.bridges.get b).contributors.filter fun y => y.source ≠ micSource p := by
    rw [hvbr, leave_contributors]
    rfl
  refine ⟨?_, fun d hd => ?_, ?_, ?_⟩
  · rw [hpos, hvpos]
    refine (Tab.modify_modify ..).trans ?_
    congr 1
    funext r
    rcases he with rfl | rfl <;> rfl
  · rw [hbr d hd, hvbr]
    simp [leave, hd]
  · have hgain : endpointEntry p e (v.positions.get p) = endpointEntry p e (s.positions.get p) := by
      rw [hvpos]
      rcases he with rfl | rfl <;> simp [endpointEntry, endpointSource, Position.gain]
    rw [hcs, rebind_contributors (fun x hx => ?_) (by rw [hstay]; exact hroom), hstay, hgain]
    · simp [endpointSource]
    · have h := hnew x hx
      simp only [Bridge.has, List.any_eq_false] at h ⊢
      rw [hstay]
      exact fun c hc => h c (List.mem_of_mem_filter hc)
  · have hch' : channelAt (s.begin o) p (.key k) = none := hch
    rw [commitMove_eq (s := s.begin o) hfree, hv, hch']
    exact ⟨rebind_told hvtold .., (rebind_channels ..).trans hvchan⟩

end

end

end Sys2Proof.Machine

namespace Sys2Proof.Machine
open Sys2Proof

section

/-! # A fresh take of an IDLE line (R60 to R62) -/

theorem endpointSource_ne_lineSource {p : PosId} {e : Endpoint} {x : SourceId} (h : endpointSource p e = some x)
    (L : LineId) : x ≠ lineSource L := by
  have hval : x.val < 144 := by
    have hp := p.isLt
    cases e <;> simp only [endpointSource, Option.some.injEq, reduceCtorEq] at h <;> subst h <;> simp only [posSource] <;> omega
  intro e
  rw [e] at hval
  simp [lineSource] at hval

/-- The lowest FREE bridge answers an allocation ask (R20). -/
theorem freeBridge_eq {s : State} {b : BridgeId} (hb : (s.bridges.get b).use = .free)
    (hlow : ∀ d, d < b → (s.bridges.get d).use ≠ .free) : freeBridge s = some b := by
  unfold freeBridge ids
  rw [List.find?_eq_some_iff_getElem]
  refine ⟨by simpa using hb, b.val, by simp, by simp, fun j hj => ?_⟩
  simpa using hlow ⟨j, by omega⟩ hj

section
variable (L : LineId) (p : PosId) (e : Endpoint) (b : BridgeId) (s : State)

@[simp] theorem takeBridge_positions : (takeBridge L b s).positions = s.positions := by simp [takeBridge, claimBridge]
@[simp] theorem takeBridge_gens : (takeBridge L b s).gens = s.gens := by simp [takeBridge, claimBridge]
@[simp] theorem takeBridge_icm : (takeBridge L b s).icm = s.icm := by simp [takeBridge, claimBridge]
@[simp] theorem takeBridge_calls : (takeBridge L b s).calls = s.calls := by simp [takeBridge, claimBridge]
@[simp] theorem takeBridge_hoots : (takeBridge L b s).hoots = s.hoots := by simp [takeBridge, claimBridge]
@[simp] theorem takeBridge_channels : (takeBridge L b s).channels = s.channels := by simp [takeBridge, claimBridge]
@[simp] theorem takeBridge_log : (takeBridge L b s).log = s.log := by simp [takeBridge, claimBridge]
@[simp] theorem takeBridge_links : (takeBridge L b s).links = s.links := by simp [takeBridge, claimBridge]
@[simp] theorem takeBridge_lines : (takeBridge L b s).lines = s.lines.modify L fun r => { r with bridge := some b } := by
  simp [takeBridge, claimBridge]

/-- The bridge of a new call has the line's source alone (R62). -/
theorem takeBridge_bridges : ((takeBridge L b s).bridges.get b).use = .line L ∧
    ((takeBridge L b s).bridges.get b).contributors = [⟨lineSource L, 1024, 0, .owner⟩] ∧
    ∀ d, d ≠ b → (takeBridge L b s).bridges.get d = s.bridges.get d := by
  generalize hu : claimBridge b (.line L) (1000 * (s.lines.get L).autoReleaseS) (s.lines.get L).reload s = u
  have hub : u.bridges.get b = { Bridge.reset with
      use := .line L, period := 1000 * (s.lines.get L).autoReleaseS, mask := (s.lines.get L).reload } := by
    simp [← hu, claimBridge]
  have he : (takeBridge L b s).bridges = (join b (lineSource L) 1024 0 .owner u).bridges := by rw [← hu]; rfl
  rw [he]
  refine ⟨?_, ?_, fun d hd => ?_⟩
  · rw [join_use, hub]
  · rw [join_contributors (by rw [hub]; rfl) (by simp [hub, Bridge.reset]), hub]
    rfl
  · rw [(talkFrame_join b (lineSource L) 1024 0 .owner u).bridges d hd, ← hu]
    simp [claimBridge, hd]

variable {L} in
/-- The holder of a line that seizes no presence: its entry, its binding and its source (R62). -/
theorem takeHolder_eq (ht : (s.lines.get L).ltype = .mr) : takeHolder L p e b s =
    (joinEndpoint p e b 0 (bind p e (.holder L) (s.modLine L fun r => { r with
      holders := r.holders ++ [(p, e)]
      holdOwner := none
      timer := none
      camp := r.camp.filter (· ≠ p)
      farPresent := r.farPresent || (r.ltype = .ar && r.state = .alerting) }))).modLine L
        fun r => { r with state := .connected } := by
  have hseize : (decide ((s.lines.get L).ltype = .ar) && (s.lines.get L).holders.isEmpty) = false := by simp [ht]
  unfold takeHolder
  simp only [hseize]
  rfl

/-- The record of a line that a position has just taken with one endpoint (R62). -/
def Line.takenBy (p : PosId) (e : Endpoint) (b : BridgeId) (r : Line) : Line := { r with
  state := .connected
  holders := [(p, e)]
  holdOwner := none
  timer := none
  camp := r.camp.filter (· ≠ p)
  bridge := some b }

/-- A line of type MR without holders, taken on a new bridge. -/
theorem takeFresh_fields {r : Line} (hr : s.lines.get L = r) (ht : r.ltype = .mr) (hh : r.holders = []) {t : State}
    (hv : takeHolder L p e b (takeBridge L b s) = t) :
    t.lines = s.lines.modify L (Line.takenBy p e b) ∧
      t.positions = s.positions.modify p (fun x => x.setBinding e (.holder L)) ∧
      (t.bridges.get b).use = .line L ∧
      (t.bridges.get b).contributors = ⟨lineSource L, 1024, 0, .owner⟩ :: endpointEntry p e (s.positions.get p) ∧
      (∀ d, d ≠ b → t.bridges.get d = s.bridges.get d) ∧
      t.gens = s.gens ∧ t.icm = s.icm ∧ t.calls = s.calls ∧ t.hoots = s.hoots ∧ t.channels = s.channels ∧
      t.log = s.log ∧ t.links = s.links := by
  subst hr
  rw [takeHolder_eq p e b _ (by simpa using ht)] at hv
  obtain ⟨huse, hcs, hne⟩ := takeBridge_bridges L b s
  subst hv
  refine ⟨?_, by simp, ?_, ?_, fun d hd => ?_, by simp, by simp, by simp, by simp, by simp, by simp, by simp⟩
  · simp only [modLine_lines, joinEndpoint_lines, bind_eq, modPos_lines, takeBridge_lines, Tab.modify_modify]
    exact Tab.modify_congr (by simp [Line.takenBy, hh, ht])
  · rw [modLine_bridges, joinEndpoint_use]
    exact huse
  · rw [modLine_bridges, joinEndpoint_contributors (fun x hx => ?_) ?_]
    · rw [bind_eq, modPos_bridges, modLine_bridges, hcs]
      simp [endpointEntry]
    · rw [bind_eq, modPos_bridges, modLine_bridges, hcs]
      simp
    · rw [bind_eq, modPos_bridges, modLine_bridges]
      simp [Bridge.has, hcs, (endpointSource_ne_lineSource hx L).symm]
  · rw [modLine_bridges, joinEndpoint_bridges _ _ _ _ hd, bind_eq, modPos_bridges, modLine_bridges, hne d hd]
end

end

end Sys2Proof.Machine

namespace Sys2Proof.Machine
open Sys2Proof

section

/-! ## The take committed, once the endpoint is displaced (R62) -/

/-- CONNECT, for a take without a channel, in the log. -/
def connectRecorded (L : LineId) (p : PosId) (e : Endpoint) (b : BridgeId) (u : State) : State :=
  submit { kind := .connect, line := some L, bridge := some b, pos := some p, endpoint := some e,
           parties := some [(p, e)] } u

/-- CONNECT, then LINE_STATE and WATCH of a line that leaves IDLE (R62, R85, R153). -/
def takeTold (s : State) (L : LineId) (p : PosId) (e : Endpoint) (b : BridgeId) (u : State) : State :=
  post (watchRoute (s.routes.get L)) (.watch L .idle .connected .take)
    (post (lineRoute s L) (.lineState L .connected 1 none ((s.lines.get L).camp.filter (· ≠ p)).length)
      (connectRecorded L p e b u))

/-- An endpoint has given up what it was bound to: what was written and told of that is as in `u`, and the line to be
taken, the channels, the intercom and the hoots stand. -/
structure Displaced (s : State) (o : Option LinkId) (L : LineId) (u t : State) : Prop where
  kept : Kept (s.begin o) t
  told : ToldAlike u t
  line : t.lines.get L = s.lines.get L
  channels : t.channels = s.channels
  icm : t.icm = s.icm
  calls : t.calls = s.calls
  hoots : t.hoots = s.hoots

section
variable {s u t : State} {o : Option LinkId} {L : LineId} {p : PosId} {e : Endpoint} {b : BridgeId}

theorem Position.gain_of_settings {r r' : Position} (h : r'.settings = r.settings) (e : Endpoint) :
    r'.gain e = r.gain e := by
  cases e
  · exact (congrArg Position.gainHA h :)
  · exact (congrArg Position.gainHB h :)
  · exact (congrArg Position.gainMIC h :)
  · rfl

/-- A record and a report change the log and the links alone. -/
theorem takeReport_submit_eq (r : Record) (s : State) :
    { (submit r s |> takeReport L .idle) with log := s.log, links := s.links } = s := by
  have e : takeReport L .idle (submit r s) = reportChange [] L .idle .take (submit r s) := rfl
  rw [e, reportChange_eq, submit_eq]

/-- CONNECT is recorded and the line's new state told, once the line is CONNECTED with its one holder (R62). -/
theorem connect_told {v : State} (h : ToldAlike u v) (hf : v.frame = (s.begin o).frame)
    (hl : v.lines.get L = Line.takenBy p e b (s.lines.get L)) (hch : channelAt v p e = none) :
    ToldAlike (takeTold s L p e b u) (submit (takeRecord v L p e b .connect) v |> takeReport L .idle) := by
  have hrec : takeRecord v L p e b .connect =
      { kind := .connect, line := some L, bridge := some b, pos := some p, endpoint := some e,
        parties := some [(p, e)] } := by
    rw [takeRecord, hch, hl]
    rfl
  rw [hrec]
  have hget : ∀ r, (submit r v).lines.get L = Line.takenBy p e b (s.lines.get L) := fun r => by
    rw [submit_lines, hl]
  exact (h.submit _).reportChange (s := s.begin o) ((submit_frame _ v).trans hf) (by simp) (by rw [hget]; rfl)
    (by rw [hget]; rfl) (by rw [hget]; rfl) (by rw [hget]; rfl) .take

/-- A fresh take of an IDLE line of type MR and policy NONE, after the displacement. -/
theorem commitTake_fresh (h : Displaced s o L u t) (ht : (s.lines.get L).ltype = .mr)
    (hh : (s.lines.get L).holders = []) (hch : channelAt s p e = none) {v w : State}
    (hv : takeHolder L p e b (takeBridge L b t) = v)
    (hw : (submit (takeRecord v L p e b .connect) v |> takeReport L .idle) = w) :
    w.lines = t.lines.modify L (Line.takenBy p e b) ∧ w.binding p e = .holder L ∧ (w.bridges.get b).use = .line L ∧
      (w.bridges.get b).contributors = ⟨lineSource L, 1024, 0, .owner⟩ :: endpointEntry p e (s.positions.get p) ∧
      (∀ d, d ≠ b → w.bridges.get d = t.bridges.get d) ∧ w.channels = s.channels ∧
      ToldAlike (takeTold s L p e b u) w ∧
      { w with lines := s.lines, bridges := s.bridges, positions := s.positions, gens := s.gens, log := s.log,
               links := s.links, origin := s.origin, released := s.released } = s := by
  have hkept : Kept (s.begin o) v :=
    hv ▸ (h.kept.trans (kept_takeBridge L b t)).trans (kept_takeHolder L p e b _)
  obtain ⟨hlines, hpos, huse, hcs, hne, hg, hi, hc, hho, hchan, hlog, hlinks⟩ :=
    takeFresh_fields L p e b t h.line ht hh hv
  have hget : v.lines.get L = Line.takenBy p e b (s.lines.get L) := by rw [hlines, Tab.get_modify_self, h.line]
  have hnone : channelAt v p e = none := by rw [channelAt_of_channels (hchan.trans h.channels), hch]
  have htold := connect_told (h.told.quiet hlog hlinks (hkept.frame.trans h.kept.frame.symm)) hkept.frame hget hnone
  have hwv := takeReport_submit_eq (L := L) (takeRecord v L p e b .connect) v
  rw [hw] at htold hwv
  have hwpos : w.positions = v.positions := (congrArg State.positions hwv :)
  have hwbr : w.bridges = v.bridges := (congrArg State.bridges hwv :)
  have hwchan : w.channels = s.channels := ((congrArg State.channels hwv :).trans hchan).trans h.channels
  have hwframe : w.frame = (s.begin o).frame := (congrArg State.frame hwv :).trans hkept.frame
  refine ⟨(congrArg State.lines hwv :).trans hlines, ?_, by rw [hwbr, huse], ?_, fun d hd => by rw [hwbr, hne d hd],
    hwchan, htold, ?_⟩
  · have hbind : w.positions = (bind p e (.holder L) t).positions := hwpos.trans hpos
    rw [State.binding_congr hbind, bind_binding, if_pos ⟨rfl, rfl⟩]
  · rw [hwbr, hcs]
    simp only [endpointEntry, Position.gain_of_settings (h.kept.posSet p) e]
    rfl
  · exact state_eq (frame_of_begin hwframe) rfl rfl rfl rfl (((congrArg State.icm hwv :).trans hi).trans h.icm)
      (((congrArg State.calls hwv :).trans hc).trans h.calls) (((congrArg State.hoots hwv :).trans hho).trans h.hoots)
      hwchan rfl rfl rfl
end

end

end Sys2Proof.Machine

namespace Sys2Proof.Machine
open Sys2Proof

section

/-! ## What a displaced endpoint gives up (R7) -/

section
variable {s : State} {o : Option LinkId} {L : LineId} {p : PosId} {e : Endpoint}

theorem Displaced.mk_of_frame {M : LineId} {u t : State} (hL : L ≠ M) (hf : LineFrame M (s.begin o) t)
    (hk : Kept (s.begin o) t) (hu : ToldAlike u t) (hc : t.channels = s.channels) : Displaced s o L u t where
  kept := hk
  told := hu
  line := hf.lines L hL
  channels := hc
  icm := hf.icm
  calls := hf.calls
  hoots := hf.hoots

/-- The records and notices of a release by its only holder, under a guard (R66, R67). -/
theorem lineEnded_alone {M : LineId} (hh : (s.lines.get M).holders = [(p, e)]) (hm : (s.lines.get M).monitors = [])
    (hs : (s.lines.get M).state = .connected) (hg : (s.lines.get M).guardMs ≠ 0) (ht : keyTalks s (p, e) = none)
    (hch : channelAt s p e = none) : lineEnded s o M .none .monitorEnd =
      post (watchRoute (s.routes.get M)) (.watch M .connected .clearing .none)
        (post (lineRoute s M) (.lineState M .clearing 0 none (s.lines.get M).camp.length)
          (submit { kind := .disconnect, line := some M, pos := some p, endpoint := some e, cause := some .none,
                    parties := some [] } s)) := by
  have hhold : holdEnded s M .none = s := by
    unfold holdEnded
    split
    · rw [if_neg (by simp [hs])]
    · rfl
  have htalk : talkEnded s o M .none (p, e) s = s := by simp [talkEnded, ht]
  rw [lineEnded_eq, hhold, hh]
  simp only [holdersEnded, holderEnded, htalk, hch, if_true, monitorsEnded, hm, List.foldl_nil, clearingEntered,
    stateEntered, hs]
  rw [if_pos hg]

/-- An endpoint that holds another line alone releases it (R7, R67). -/
theorem displaced_release {M : LineId} {a : BridgeId} (hL : L ≠ M) (he : e ≠ .mic) (hb : s.binding p e = .holder M)
    (hs : (s.lines.get M).state = .connected) (hh : (s.lines.get M).holders = [(p, e)])
    (hm : (s.lines.get M).monitors = []) (ha : (s.lines.get M).bridge = some a) (hg : (s.lines.get M).guardMs ≠ 0)
    (ht : keyTalks s (p, e) = none) (hch : channelAt s p e = none) :
    Displaced s o L (lineEnded s o M .none .monitorEnd) (displace p e false false (s.begin o)) ∧
      (displace p e false false (s.begin o)).lines.get M = { s.lines.get M with
        state := .clearing
        holders := []
        holdOwner := none
        bridge := none
        farPresent := false
        timer := some ⟨.guard, (s.lines.get M).guardMs⟩ } ∧
      (displace p e false false (s.begin o)).bridges.get a = Bridge.reset := by
  have hd : displace p e false false (s.begin o) = dropHolder M (p, e) .none false (s.begin o) := by
    simp [displace, hb]
  have hon : OnCall s M := {
    state := .inl hs
    holders := fun x hx => by
      rw [hh, List.mem_singleton] at hx
      subst hx
      exact ⟨he, hb⟩
    monitors := by simp [hm]
    once := by simp [hh, hm]
    pending := fun hz => absurd hz hg }
  have hrel := released_endHolders (o := o) (cause := .none) hon hs (monCause := .monitorEnd) (by simp)
  have hframe := lineFrame_dropHolder M (p, e) .none false (s.begin o)
  have hkept := kept_dropHolder M (p, e) .none false (s.begin o)
  rw [dropHolder_alone (s := s.begin o) hs hh] at hd hframe hkept
  rw [hd]
  generalize releaseLine [] M .none .monitorEnd (endHolders M .none (s.begin o)) = t at hrel hframe hkept
  refine ⟨.mk_of_frame hL hframe hkept ⟨hrel.log, ?_, hrel.notices⟩ ?_, ?_, hrel.freed a ha⟩
  · rw [lineEnded_alone hh hm hs hg ht hch]
    have htime : t.timeValid = s.timeValid := (congrArg Frame.timeValid hkept.frame :)
    exact htime.trans (congrArg Frame.timeValid (submit_frame _ s)).symm
  · apply Tab.ext_get
    intro c
    rw [hrel.channels c, hh]
    simp [hch]
  · rw [hrel.line, Tab.get_modify_self]
    simp [hg, hm]

/-- A source that has left is no conference entry, nor is one that stays an owner's. -/
theorem isConference_of_sublist {t : State} {d : BridgeId} {x : SourceId}
    (h : (t.bridges.get d).contributors.Sublist (s.bridges.get d).contributors) (hx : isConference s d x = false) :
    isConference t d x = false := by
  simp only [isConference, List.any_eq_false] at hx ⊢
  exact fun c hc => hx c (h.subset hc)

theorem leaveConference_id {d : BridgeId} {x : SourceId} (h : isConference s d x = false) :
    leaveConference d x s = s := by simp [leaveConference, h]

/-- A handset that leaves takes its source off the line's bridge (R66). -/
theorem detachHolder_contributors {M : LineId} {a : BridgeId} (ha : (s.lines.get M).bridge = some a)
    (ht : keyTalks s (p, e) = none) (c : Cause) : ((detachHolder M (p, e) c s).bridges.get a).contributors =
      (s.bridges.get a).contributors.filter fun y => some y.source ≠ endpointSource p e := by
  have hgone : holderGone M (p, e) s =
      leaveEndpoint p e a (s.modLine M fun r => { r with holders := r.holders.filter (· ≠ (p, e)) }) := by
    simp [holderGone, ha]
  have htalk := endTalkOfEndpoint_id (x := (p, e)) ((keyTalks_congr (holderGone_positions M (p, e) s) _).trans ht) M c
  rw [detachHolder_eq, htalk, unbind_bridges, hgone, leaveEndpoint_contributors]
  rfl

/-- The state in which a line is held: its last holder has left (R69). -/
theorem holdLine_eq {M : LineId} {a : BridgeId} {t : State} (ht : detachHolder M (p, e) .none s = t)
    (hch : channelAt t p e = none) (hm : (t.lines.get M).monitors = []) (ha : (t.lines.get M).bridge = some a)
    (hconf : ∀ d, isConference t d (lineSource M) = false) (ho : ∀ x, isConference t a x = false) :
    holdLine M (p, e) false s = (t.modLine M (fun r => { r with
        holdOwner := some p
        state := .held
        timer := if r.recallS = 0 then none else some ⟨.recall, 1000 * r.recallS⟩ })
      |> submit { kind := .hold, line := some M, bridge := some a, pos := some p }
      |> reportChange [] M .connected .park) := by
  have hrel : releaseChan p e t = t := by simp [releaseChan, hch]
  have hmon : endMonitors M .monitorEnd t = t := by simp [endMonitors, hm]
  have hconf' : endConferences M t = t := each_id _ fun d _ => leaveConference_id (hconf d)
  have hclear : clearConference a t = t := each_id _ fun x _ => leaveConference_id (ho x)
  unfold holdLine
  simp only [ht, closingChannel, releaseUnless, Bool.false_eq_true, if_false, hch, ha, hrel, hmon, hconf', hclear]

/-- The record and the notices of a park by the only holder (R69). -/
def parkTold (s : State) (M : LineId) (p : PosId) (a : BridgeId) : State :=
  post (watchRoute (s.routes.get M)) (.watch M .connected .held .park)
    (post (lineRoute s M) (.lineState M .held 0 (some p) (s.lines.get M).camp.length)
      (submit { kind := .hold, line := some M, bridge := some a, pos := some p } s))

/-- An endpoint that holds another line alone, and parks it (R7, R69). -/
theorem displaced_park {M : LineId} {a : BridgeId} (hL : L ≠ M) (hb : s.binding p e = .holder M)
    (hh : (s.lines.get M).holders = [(p, e)])
    (hm : (s.lines.get M).monitors = []) (ha : (s.lines.get M).bridge = some a) (ht : keyTalks s (p, e) = none)
    (hch : channelAt s p e = none) (hconf : ∀ d, isConference s d (lineSource M) = false)
    (ho : ∀ y ∈ (s.bridges.get a).contributors, y.origin = .owner) :
    Displaced s o L (parkTold s M p a) (displace p e true false (s.begin o)) ∧
      (displace p e true false (s.begin o)).lines.get M = { s.lines.get M with
        state := .held
        holders := []
        holdOwner := some p
        timer := if (s.lines.get M).recallS = 0 then none else some ⟨.recall, 1000 * (s.lines.get M).recallS⟩ } ∧
      ((displace p e true false (s.begin o)).bridges.get a).contributors =
        (s.bridges.get a).contributors.filter fun y => some y.source ≠ endpointSource p e := by
  generalize hd : detachHolder M (p, e) .none (s.begin o) = d
  have hpark : displace p e true false (s.begin o) = holdLine M (p, e) false (s.begin o) := by
    simp [displace, hb, parkHolder, hh]
  have hget : d.lines.get M = { s.lines.get M with holders := [] } := by
    rw [← hd, detachHolder_lines, Tab.get_modify_self]
    simp [hh]
  have hchan : d.channels = s.channels := hd ▸ detachHolder_channels M (p, e) .none (s.begin o)
  have hcs : (d.bridges.get a).contributors =
      (s.bridges.get a).contributors.filter fun y => some y.source ≠ endpointSource p e :=
    hd ▸ detachHolder_contributors (s := s.begin o) ha ht .none
  have hsub (c : BridgeId) : (d.bridges.get c).contributors.Sublist (s.bridges.get c).contributors := by
    by_cases hc : c = a
    · rw [hc, hcs]
      exact List.filter_sublist
    · have hne : ((s.begin o).lines.get M).bridge ≠ some c := fun h => hc (by simpa using h.symm.trans ha)
      rw [← hd, detachHolder_bridges hne]
      exact List.Sublist.refl _
  have hown : ∀ x, isConference s a x = false := fun x => List.any_eq_false.mpr fun y hy => by simp [ho y hy]
  have heq := holdLine_eq (p := p) (e := e) hd ((channelAt_of_channels hchan p e).trans hch) (by rw [hget]; exact hm)
    (by rw [hget]; exact ha) (fun c => isConference_of_sublist (hsub c) (hconf c))
    fun x => isConference_of_sublist (hsub a) (hown x)
  have htold : ToldAlike s d := by
    have h := (toldAlike_begin s o).detachHolder (s := s) (o := o) (L := M) (x := (p, e)) rfl rfl rfl hb .none
    simpa [talkEnded, ht, hd] using h
  have hdframe : d.frame = (s.begin o).frame := hd ▸ (kept_detachHolder M (p, e) .none (s.begin o)).frame
  generalize hv : d.modLine M (fun r => { r with
    holdOwner := some p
    state := .held
    timer := if r.recallS = 0 then none else some ⟨.recall, 1000 * r.recallS⟩ }) = v at heq
  have hvget : v.lines.get M = { s.lines.get M with
      holders := []
      holdOwner := some p
      state := .held
      timer := if (s.lines.get M).recallS = 0 then none else some ⟨.recall, 1000 * (s.lines.get M).recallS⟩ } := by
    rw [← hv, modLine_lines, Tab.get_modify_self, hget]
  have hvtold : ToldAlike s v := hv ▸ htold.quiet rfl rfl rfl
  have hvframe : v.frame = (s.begin o).frame := hv ▸ hdframe
  have hkept := kept_displace p e true false (s.begin o)
  have hframe : LineFrame M (s.begin o) d := hd ▸ lineFrame_detachHolder M (p, e) .none (s.begin o)
  have htoldw := (hvtold.submit { kind := .hold, line := some M, bridge := some a, pos := some p }).reportChange
    (s := s.begin o) ((submit_frame _ v).trans hvframe) (L := M) (old := .connected) (new := .held) (by simp)
    (by rw [submit_lines, hvget]) (by rw [submit_lines, hvget]) (by rw [submit_lines, hvget])
    (by rw [submit_lines, hvget]) .park
  rw [hpark, heq] at hkept ⊢
  refine ⟨⟨hkept, htoldw, ?_, ?_, ?_, ?_, ?_⟩, ?_, ?_⟩
  · rw [reportChange_lines, submit_lines, ← hv, modLine_lines, Tab.get_modify_ne _ _ hL]
    exact hframe.lines L hL
  · rw [reportChange_eq, submit_eq, ← hv]
    exact hchan
  · rw [reportChange_eq, submit_eq, ← hv]
    exact hframe.icm
  · rw [reportChange_eq, submit_eq, ← hv]
    exact hframe.calls
  · rw [reportChange_eq, submit_eq, ← hv]
    exact hframe.hoots
  · rw [reportChange_lines, submit_lines, hvget]
  · rw [reportChange_eq, submit_eq, ← hv]
    exact hcs

/-- An endpoint that monitors another line gives that up (R7, R65). -/
theorem displaced_monitor {M : LineId} (hL : L ≠ M) (hb : s.binding p e = .monitor M) (park : Bool) :
    Displaced s o L s (displace p e park false (s.begin o)) ∧
      ((displace p e park false (s.begin o)).lines.get M).monitors =
        (s.lines.get M).monitors.filter (· ≠ (p, e)) := by
  have hd : displace p e park false (s.begin o) = endMonitor M (p, e) .none (s.begin o) := by simp [displace, hb]
  have hkept := kept_displace p e park false (s.begin o)
  rw [hd] at hkept ⊢
  have hgone : ToldAlike s ((s.begin o).modLine M fun r => { r with monitors := r.monitors.filter (· ≠ (p, e)) }) :=
    (toldAlike_begin s o).quiet rfl rfl rfl
  have htold := hgone.unbind (s := s) (o := o) (p := p) (e := e) rfl hb (by simp) .none
  refine ⟨.mk_of_frame hL (lineFrame_endMonitor M (p, e) .none _) hkept htold (unbind_channels ..), ?_⟩
  rw [endMonitor_lines, Tab.get_modify_self]
  rfl

/-- A key that listens to a hoot on which its position does not talk gives that up (R7). -/
theorem displaced_listener {k : KeyId} {d : BridgeId} (hb : s.binding p (.key k) = .listen d) (ht : ¬ s.talksAt d p)
    (park : Bool) : Displaced s o L s (displace p (.key k) park false (s.begin o)) := by
  have hend : endTalkOn d p .keyChanged (s.begin o) = s.begin o :=
    endTalk_of_not_talksAt (s := s.begin o) ht .atOnce .keyChanged
  have hd : displace p (.key k) park false (s.begin o) = bind p (.key k) .none (s.begin o) := by
    simp [displace, keyLeaves, hb, hend]
  have hkept := kept_displace p (.key k) park false (s.begin o)
  rw [hd] at hkept ⊢
  exact ⟨hkept, (toldAlike_begin s o).quiet rfl rfl rfl, rfl, rfl, rfl, rfl, rfl⟩

end

end

end Sys2Proof.Machine

namespace Sys2Proof.Machine
open Sys2Proof

section

/-! # The takes of O32, answered -/

section
variable {s u t : State} {l : LinkId} {L : LineId} {p : PosId} {e : Endpoint} {b : BridgeId} {fl : Byte}

/-- A fresh take of a line of policy NONE is committed on the lowest FREE bridge (R60 to R62). -/
theorem decideTake_fresh {f : TakeFlags} (hm : f.monitor = false) (hh : (s.lines.get L).holders = [])
    (hs : (s.lines.get L).state = .idle) (hp : (s.lines.get L).policy = .none) (hb : freeBridge s = some b)
    (ht : displace p e f.park false s = t) (hl : t.lines.get L = s.lines.get L) (hmon : (s.lines.get L).monitors = [])
    {v w : State} (hv : takeHolder L p e b (takeBridge L b t) = v)
    (hvp : (v.lines.get L).policy = .none)
    (hw : (submit (takeRecord v L p e b .connect) v |> takeReport L .idle) = w) :
    decideTake L p e f s = (w, ⟨.done, takeBody w L p e (s.binding p e)⟩) := by
  have hnone : holderEntry s L p = none := by simp [holderEntry, hh]
  have hcourse : takeCourse (s.lines.get L) p = .fresh := by simp [takeCourse, hs]
  have hchecks : takeChecks s L p e .fresh = none := by simp [takeChecks, hb, recordingCheck, hp]
  have hdis : takeDisplace L p e f.park s = t := by
    simp [takeDisplace, hp, ht, hl, hmon]
  have hrec : takeRecording L p e b v = v := by simp [takeRecording, hvp]
  have hcommit : commitTake L p e f.park .fresh b s = w := by
    simp only [commitTake, hdis, if_true, hv, hrec, hs]
    exact hw
  simp [decideTake, hm, hnone, holderTake, hcourse, hchecks, takeBridgeOf, hb, hcommit]

/-- What O32 says of every take that displaces: the new call of `L` stands, and only that. -/
structure TookFresh (s : State) (l : LinkId) (L : LineId) (p : PosId) (e : Endpoint) (b : BridgeId) (u t w : State) :
    Prop where
  answered : answered w l .lineTake .done ([5#8, 0#8, 1#8, idByte b, 0xFF#8] ++ bBinding (s.binding p e))
  binding : w.binding p e = .holder L
  line : w.lines.get L = Line.takenBy p e b (s.lines.get L)
  use : (w.bridges.get b).use = .line L
  contributors : (w.bridges.get b).contributors =
    ⟨lineSource L, 1024, 0, .owner⟩ :: endpointEntry p e (s.positions.get p)
  channels : w.channels = s.channels
  rest : { w with lines := s.lines, bridges := s.bridges, positions := s.positions, gens := s.gens, log := s.log,
                  links := s.links, origin := s.origin, released := s.released } = s
  lines : ∀ M, M ≠ L → w.lines.get M = t.lines.get M
  bridges : ∀ d, d ≠ b → w.bridges.get d = t.bridges.get d
  log : w.log = (connectRecorded L p e b u).log
  notices : noNotice (takeTold s L p e b u) w

theorem exec_fresh
    (hx : exec (.lineTake l (idByte p) (endByte e) (idByte L) fl) s =
      .next (respond l (BitVec.ofNat 8 ReqKind.lineTake.code)
        (decideTake L p e ⟨fl.getLsbD 0, fl.getLsbD 1, false⟩ (s.begin (some l)))))
    (hp : (s.lines.get L).policy = .none) (hch : channelAt s p e = none) (hh : (s.lines.get L).holders = [])
    (hmon : (s.lines.get L).monitors = []) (hs : (s.lines.get L).state = .idle) (hlt : (s.lines.get L).ltype = .mr)
    (hfree : (s.bridges.get b).use = .free) (hlow : ∀ d, d < b → (s.bridges.get d).use ≠ .free)
    (ht : displace p e (fl.getLsbD 1) false (s.begin (some l)) = t) (hd : Displaced s (some l) L u t) :
    ∃ w, exec (.lineTake l (idByte p) (endByte e) (idByte L) fl) s = .next w ∧ TookFresh s l L p e b u t w := by
  generalize hv : takeHolder L p e b (takeBridge L b t) = v
  generalize hw : (submit (takeRecord v L p e b .connect) v |> takeReport L .idle) = w
  obtain ⟨hvlines, -⟩ := takeFresh_fields L p e b t hd.line hlt hh hv
  obtain ⟨hlines, hbind, huse, hcs, hbr, hchan, htold, hrest⟩ := commitTake_fresh hd hlt hh hch hv hw
  have hget : w.lines.get L = Line.takenBy p e b (s.lines.get L) := by rw [hlines, Tab.get_modify_self, hd.line]
  have hvp : (v.lines.get L).policy = .none := by
    rw [hvlines, Tab.get_modify_self, hd.line]
    exact hp
  have hdecide := decideTake_fresh (s := s.begin (some l)) (f := ⟨fl.getLsbD 0, fl.getLsbD 1, false⟩) rfl hh hs hp
    (freeBridge_eq (s := s.begin (some l)) hfree hlow) ht hd.line hmon hv hvp hw
  have hbody : takeBody w L p e (s.binding p e) = [5#8, 0#8, 1#8, idByte b, 0xFF#8] ++ bBinding (s.binding p e) := by
    have hhead : b1 LineState.connected.code ++ b2 1 = [5#8, 0#8, 1#8] := by decide
    rw [takeBody_eq hget rfl ((channelAt_of_channels hchan p e).trans hch)]
    exact congrArg (· ++ [idByte b, 0xFF#8] ++ bBinding (s.binding p e)) hhead
  refine ⟨_, hx.trans (congrArg (fun x => Host.Outcome.next (respond l _ x)) hdecide), ?_⟩
  exact {
    answered := by
      rw [← hbody]
      exact answered_respond ..
    binding := hbind
    line := hget
    use := huse
    contributors := hcs
    channels := hchan
    rest := hrest
    lines := fun M hM => by
      have e : w.lines.get M = t.lines.get M := by rw [hlines, Tab.get_modify_ne _ _ hM]
      exact e
    bridges := hbr
    log := htold.log
    notices := noNotice.respond (x := (w, _)) htold.notices l _ }
end

end

end Sys2Proof.Machine

namespace Sys2Proof.Machine
open Sys2Proof

section

theorem lineFull_eq_false {s : State} {L : LineId} {b : BridgeId} (hb : (s.lines.get L).bridge = some b)
    (hroom : (s.bridges.get b).contributors.length < 12) : lineFull s L = false := by
  rw [lineFull, hb]
  exact decide_eq_false (Nat.not_le.mpr hroom)

theorem keyTalks_eq_none {s : State} {p : PosId} {e : Endpoint}
    (h : ∀ k, e = .key k → (s.positions.get p).mic ≠ .talk k) : keyTalks s (p, e) = none := by
  cases e with
  | key k => simp [keyTalks, h k rfl]
  | _ => rfl

end

/-- Settles O32: a move is committed in the holder entry's place (`commitMove_quiet`, and `commitMove_talking` where a
line talk ends with it); a take that displaces is a fresh take (`exec_fresh`) after what the endpoint held is released
(`displaced_release`), parked (`displaced_park`) or given up (`displaced_monitor`, `displaced_listener`). -/
theorem lineTakeMoves : Obligations.LineTakeMoves := by
  intro l p e L fl s hmay hopen hup happ hmic hfl r c htype
  have hx := exec_lineTake hmay hopen hup happ hmic hfl htype
  refine ⟨?_, ?_, ?_⟩
  · intro old b hold hne hold' hfree htalk hb hrec hroom hnew entry
    have hkeys := keyTalks_eq_none htalk
    have hv := endTalkOfEndpoint_id (s := (s.begin (some l)).modLine L (Line.moved p old e)) (x := (p, old)) hkeys L .none
    obtain ⟨hlines, -, -, -, hg, hi, hc, hh⟩ := commitMove_fields (s := s.begin (some l)) (b := b) hfree (fl.getLsbD 1) hv
    obtain ⟨hpos, hbr, hcs, hnone, hsome⟩ := commitMove_quiet (s := s.begin (some l)) (L := L) hfree hkeys hroom hnew
      (fl.getLsbD 1)
    have hframe := (kept_commitMove L p old e (fl.getLsbD 1) b (s.begin (some l))).frame
    have hexec := exec_move hx hold hne hfree hb (fun _ => lineFull_eq_false hb hroom) hrec
    generalize commitMove L p old e (fl.getLsbD 1) b (s.begin (some l)) = t at *
    have hans {ch : Option ChanId} (hch : channelAt t p e = ch) := moveBody hlines hb hch
    refine ⟨_, hexec, hlines, hpos, hbr, hcs, fun hn => ?_, fun x hxc y hy => ?_, takeRest hframe hg hi hc hh⟩
    · obtain ⟨ht, hchan⟩ := hnone hn
      refine ⟨noNotice.respond (x := (t, _)) ht.notices l _, ht.log, hchan, fun hnew => ?_⟩
      rw [hans ((channelAt_of_channels hchan p e).trans hnew)]
      exact answered_respond ..
    · obtain ⟨ht, hchan⟩ := hsome x y hxc hy
      have ht' := ((toldAlike_begin s (some l)).submit (entry x y)).trans ht
      refine ⟨noNotice.respond (x := (t, _)) ht'.notices l _, ht'.log, hchan, fun hnew => ?_⟩
      rw [hans (channelAt_of_set hnew hchan rfl rfl)]
      exact answered_respond ..
  · intro k b hold he hfree htalk hb hpol hch hche hnew stay hroom u
    have hv : endTalkOfEndpoint p (.key k) L .none ((s.begin (some l)).modLine L (Line.moved p (.key k) e)) = _ := rfl
    obtain ⟨hlines, -, -, -, hg, hi, hc, hh⟩ := commitMove_fields (s := s.begin (some l)) (b := b) hfree (fl.getLsbD 1) hv
    obtain ⟨hpos, hbr, hcs, htold, hchan⟩ := commitMove_talking (o := some l) he hfree htalk hb hch hroom hnew (fl.getLsbD 1)
    have hframe := (kept_commitMove L p (.key k) e (fl.getLsbD 1) b (s.begin (some l))).frame
    have hneeds : moveNeedsRoom s p (.key k) e = false := by simp [moveNeedsRoom, talksOn, htalk]
    have hexec := exec_move hx hold (by rcases he with rfl | rfl <;> simp) hfree hb (fun h => by simp [hneeds] at h)
      fun h => absurd h hpol
    generalize commitMove L p (.key k) e (fl.getLsbD 1) b (s.begin (some l)) = t at *
    refine ⟨_, hexec, ?_, hlines, hpos, hbr, hcs, htold.log, noNotice.respond (x := (t, _)) htold.notices l _, ?_⟩
    · rw [moveBody hlines hb ((channelAt_of_channels hchan p e).trans hche)]
      exact answered_respond ..
    · exact state_eq (frame_of_begin hframe) rfl rfl rfl hg hi hc hh hchan rfl rfl rfl
  · intro b hpol hch hh hmon hst hlt hfree hlow new cs took told body base
    have hbase {u t w : State} (h : TookFresh s l L p e b u t w) : base w :=
      ⟨h.binding, h.line, h.use, h.contributors, h.channels, h.rest⟩
    have htake {u t : State} (ht : displace p e (fl.getLsbD 1) false (s.begin (some l)) = t)
        (hd : Displaced s (some l) L u t) := exec_fresh hx hpol hch hh hmon hst hlt hfree hlow ht hd
    refine ⟨?_, ?_⟩
    · intro M a hb hML htalk m hms hmh hmm hma hab hconf reported
      have hkeys := keyTalks_eq_none htalk
      refine ⟨fun hpark hg => ?_, fun hpark hown => ?_⟩
      · obtain ⟨hd, hline, hfreed⟩ := displaced_release (o := some l) hML.symm hmic hb hms hmh hmm hma hg hkeys hch
        rw [lineEnded_alone hmh hmm hms hg hkeys hch] at hd
        obtain ⟨w, hw, h⟩ := htake (by rw [hpark]) hd
        refine ⟨w, hw, ?_, hbase h, (h.lines M hML).trans hline, (h.bridges a hab).trans hfreed, h.log, h.notices⟩
        rw [← hb]
        exact h.answered
      · have hown' : ∀ y ∈ (s.bridges.get a).contributors, y.origin = .owner := fun y hy => by
          simpa using List.all_eq_true.mp hown y hy
        obtain ⟨hd, hline, hcs⟩ := displaced_park (o := some l) hML.symm hb hmh hmm hma hkeys hch hconf hown'
        obtain ⟨w, hw, h⟩ := htake (by rw [hpark]) hd
        refine ⟨w, hw, ?_, hbase h, (h.lines M hML).trans hline, ?_, h.log, h.notices⟩
        · rw [← hb]
          exact h.answered
        · rw [h.bridges a hab]
          exact hcs
    · rintro (⟨M, hb, hML⟩ | ⟨k, d, h, rfl, hb, hd, ht⟩)
      · obtain ⟨hd, hmonitors⟩ := displaced_monitor (o := some l) hML.symm hb (fl.getLsbD 1)
        obtain ⟨w, hw, h⟩ := htake rfl hd
        refine ⟨w, hw, h.answered, hbase h, fun N hN => ?_, h.log, h.notices⟩
        rw [hb] at hN
        cases hN
        rw [h.lines M hML, hmonitors]
      · have htalks : ¬ s.talksAt d p := fun ⟨g, hg, hp⟩ => by
          rw [hd] at hg
          cases hg
          exact ht hp
        obtain ⟨w, hw, h⟩ := htake rfl (displaced_listener hb htalks (fl.getLsbD 1))
        exact ⟨w, hw, h.answered, hbase h, fun N hN => by simp [hb] at hN, h.log, h.notices⟩

end Sys2Proof.Machine

namespace Sys2Proof.Machine
open Sys2Proof

section

/-! # Every step keeps the bridge records (R22, R24, R37, R39) -/

/-- From `s` to `t` the bridge records stay as their rules say. -/
def PoolStep (s t : State) : Prop := PoolOk s → PoolOk t

theorem PoolStep.refl (s : State) : PoolStep s s := id

theorem PoolStep.trans {s t u : State} (h : PoolStep s t) (g : PoolStep t u) : PoolStep s u := g ∘ h

theorem PoolStep.each {α : Type} {f : α → State → State} (h : ∀ x s, PoolStep s (f x s)) (xs : List α) (s : State) :
    PoolStep s (s.each xs f) := each_rel PoolStep.refl PoolStep.trans h xs s

theorem PoolStep.ite {c : Prop} [Decidable c] {s t u : State} (h : PoolStep s t) (g : PoolStep s u) :
    PoolStep s (if c then t else u) := by split <;> assumption

/-- The records of the bridges and of the detectors stand. -/
theorem PoolStep.of_eq {s t : State} (hd : t.detectors = s.detectors) (hb : t.bridges = s.bridges) : PoolStep s t :=
  PoolOk.congr hd hb

/-- A step from a state with the same bridges and detectors. -/
theorem PoolStep.of_start {s s' t : State} (h : PoolStep s' t) (hd : s'.detectors = s.detectors)
    (hb : s'.bridges = s.bridges) : PoolStep s t := (PoolStep.of_eq hd hb).trans h

theorem Kept.poolStep {s t : State} (h : Kept s t) : PoolStep s t := h.pool

/-- A bridge record reads the activity of its own contributors alone. -/
theorem BridgeOk.of_active {s t : State} {r : Bridge} (h : BridgeOk s r)
    (ha : ∀ c ∈ r.contributors, t.active c.source = s.active c.source) : BridgeOk t r where
  capacity := h.capacity
  noneTwice := h.noneTwice
  ranges := h.ranges
  flag := by
    rw [h.flag, Bool.eq_iff_iff]
    simp only [anyActive, List.any_eq_true]
    exact exists_congr fun c => and_congr_right fun hc => by rw [ha c hc]
  idle hs := by
    refine h.idle ?_
    simp only [selectedActive, List.any_eq_true] at hs ⊢
    obtain ⟨c, hc, hsel⟩ := hs
    exact ⟨c, hc, by rwa [← ha c hc]⟩
  off := h.off

theorem PoolStep.inFreeOrder {α : Type} {f : α → State → State} (h : ∀ x s, PoolStep s (f x s)) (xs : List α)
    (s : State) : PoolStep s (s.inFreeOrder xs f) :=
  PoolStep.of_start (.each h _ _) rfl rfl

theorem pool_modPos (p : PosId) (f : Position → Position) (s : State) : PoolStep s (s.modPos p f) :=
  .of_eq rfl rfl

theorem pool_modHoot (b : BridgeId) (f : Hoot → Hoot) (s : State) : PoolStep s (s.modHoot b f) := .of_eq rfl rfl

theorem pool_setHoot (b : BridgeId) (v : Option Hoot) (s : State) : PoolStep s (s.setHoot b v) := .of_eq rfl rfl

theorem pool_modLink (l : LinkId) (f : Link → Link) (s : State) : PoolStep s (s.modLink l f) := .of_eq rfl rfl

theorem pool_links (s : State) (v : Tab Link 6) : PoolStep s { s with links := v } := .of_eq rfl rfl

theorem pool_begin (o : Option LinkId) (s : State) : PoolStep s (s.begin o) := .of_eq rfl rfl

/-! ## Requests (R3, R149, R181) -/

theorem pool_respond {s : State} {x : State × Response} (h : PoolStep s x.1) (l : LinkId) (kind : Byte) :
    PoolStep s (respond l kind x) := h.trans (PoolStep.of_eq rfl rfl)

theorem pool_done {s t : State} (h : PoolStep s t) (body : List Byte) : PoolStep s (done body t).1 := h

theorem pool_violate (l : LinkId) (kind : ReqKind) (r : Result) (n : Named) (s : State) :
    PoolStep s (violate l kind r n s) := by
  refine PoolStep.trans ?_ (kept_submit _ _).poolStep
  exact PoolStep.ite (.of_eq rfl rfl) (.refl s)

/-- A request keeps the bridge records when its owner does: the tests of R181 change none of them. -/
theorem pool_takeRequest {owner : State → State × Response} (h : ∀ s, PoolStep s (owner s).1) (l : LinkId)
    (kind : ReqKind) (wf : Bool) (n : Named) (s : State) : PoolStep s (takeRequest l kind wf n owner s) := by
  have hb : PoolStep s (s.begin (some l)) := PoolStep.of_eq rfl rfl
  refine pool_respond ?_ l _
  unfold decideRequest
  split
  · split
    · exact hb
    · split
      · exact hb.trans (pool_violate _ _ _ _ _)
      · split
        · exact hb.trans (pool_violate _ _ _ _ _)
        · exact hb.trans (h _)
  · exact hb

theorem pool_positionRequest {f : PosId → State → State × Response} (h : ∀ p s, PoolStep s (f p s).1) (l : LinkId)
    (kind : ReqKind) (wf : Bool) (t : PosTests) (p : Byte) (n : Named) (s : State) :
    PoolStep s (positionRequest l kind wf t p n f s) := by
  refine pool_takeRequest (fun s => ?_) l kind wf _ s
  unfold posTests
  split
  · exact .refl s
  · split
    · exact .refl s
    · split
      · exact .refl s
      · exact h _ s

/-! ## The owners of position requests -/

theorem pool_closePosition (p : PosId) (s : State) : PoolStep s (closePosition p s) :=
  ((kept_endCallState .atOnce p .closed s).trans (kept_releaseHolds p .closed _)).poolStep.trans (pool_modPos p _ _)

theorem pool_campTake (L : LineId) (p : PosId) (s : State) : PoolStep s (campTake L p s).1 := by
  unfold campTake
  dsimp only
  split
  · exact .refl s
  · split
    · exact .refl s
    · exact PoolStep.of_eq rfl rfl

theorem pool_holderTake (L : LineId) (p : PosId) (e : Endpoint) (f : TakeFlags) (s : State) :
    PoolStep s (holderTake L p e f s).1 := by
  unfold holderTake
  split
  · split
    · exact pool_campTake L p s
    · exact .refl s
  · split
    · exact .refl s
    · split
      · exact (kept_commitTake _ _ _ _ _ _ _).poolStep
      · exact .refl s

theorem pool_decideTake (L : LineId) (p : PosId) (e : Endpoint) (f : TakeFlags) (s : State) :
    PoolStep s (decideTake L p e f s).1 := by
  unfold decideTake
  split
  · exact (kept_monitorTake L p e f.park s).poolStep
  · split
    · split
      · exact .refl s
      · exact (kept_moveTake _ _ _ _ _ _).poolStep
    · exact pool_holderTake L p e f s

theorem pool_lineTake (l : LinkId) (ep line flags : Byte) (p : PosId) (s : State) :
    PoolStep s (lineTake l ep line flags p s).1 := by
  unfold lineTake
  dsimp only
  split
  · split
    · exact .refl s
    · split
      · exact .refl s
      · split
        · exact pool_violate _ _ _ _ s
        · exact pool_decideTake _ _ _ _ s
  · exact .refl s

theorem pool_lineDrop (ep : Byte) (p : PosId) (s : State) : PoolStep s (lineDrop ep p s).1 := by
  unfold lineDrop
  split
  · exact .refl s
  · exact .refl s
  · split
    · exact .refl s
    · exact (kept_endMonitor _ _ _ s).poolStep
    · exact (kept_dropHolder _ _ _ _ s).poolStep
    all_goals exact .refl s

theorem pool_linePark (ep : Byte) (p : PosId) (s : State) : PoolStep s (linePark ep p s).1 := by
  unfold linePark
  split
  · exact .refl s
  · exact .refl s
  · split
    · exact (kept_parkHolder _ _ _ s).poolStep
    · exact .refl s

theorem pool_lineSignal (line : Byte) (p : PosId) (s : State) : PoolStep s (lineSignal line p s).1 := by
  unfold lineSignal
  split
  · exact .refl s
  · split
    · exact .refl s
    · split
      · exact .refl s
      · exact ((kept_modGen _ _ _).trans (kept_submit _ _)).poolStep

theorem pool_campCancel (line : Byte) (p : PosId) (s : State) : PoolStep s (campCancel line p s).1 := by
  unfold campCancel
  split
  · exact .refl s
  · dsimp only
    split
    · exact .refl s
    · split
      · exact (kept_campRemove _ _ _ s).poolStep
      · exact (kept_removeCamp _ _ s).poolStep

theorem pool_setKey (p : PosId) (k : KeyId) (arg : KeyArg) (n : Nat) (sd : Side) (pr : Bool) (s : State) :
    PoolStep s (setKey p k arg n sd pr s) := by
  rw [setKey_eq]
  exact (kept_keyReady p k arg s).poolStep.trans (PoolStep.of_eq rfl rfl)

theorem pool_hootKeyCheck {l : LinkId} {p : PosId} {b : BridgeId} {s : State} {x : State × Response}
    (h : hootKeyCheck l p b s = some x) : PoolStep s x.1 := by
  unfold hootKeyCheck at h
  split at h
  · cases h
    exact .refl s
  · split at h <;> cases h
    exact pool_violate _ _ _ _ s

theorem pool_keyCheck {l : LinkId} {p : PosId} {k : KeyId} {arg : KeyArg} {s : State} {x : State × Response}
    (h : keyCheck l p k arg s = some x) : PoolStep s x.1 := by
  unfold keyCheck at h
  dsimp only at h
  split at h
  · cases h
  · split at h <;> cases h
    exact .refl s
  · split at h
    · cases h
      exact pool_hootKeyCheck ‹_›
    · split at h
      · cases h
        exact .refl s
      · split at h <;> cases h
        exact .refl s

theorem pool_keySet (l : LinkId) (key code bridge : Byte) (level : Half) (side priority : Byte) (p : PosId)
    (s : State) : PoolStep s (keySet l key code bridge level side priority p s).1 := by
  unfold keySet
  split
  · split
    · exact .refl s
    · split
      · exact pool_keyCheck ‹_›
      · exact pool_setKey _ _ _ _ _ _ s
  · exact .refl s

theorem pool_applyGain (x : SourceId) (gain : Nat) (v : Option Half) (s : State) :
    PoolStep s (applyGain x gain v s) := (kept_setGain x gain s).poolStep.ite (.refl s)

theorem pool_levelSet (f : LevelFields) (p : PosId) (s : State) : PoolStep s (levelSet f p s).1 := by
  unfold levelSet
  split
  · exact .refl s
  · refine PoolStep.trans ?_ (pool_applyGain _ _ _ _)
    refine PoolStep.trans ?_ (pool_applyGain _ _ _ _)
    exact (pool_modPos _ _ _).trans (pool_applyGain _ _ _ _)

theorem pool_grantTalk (b : BridgeId) (p : PosId) (k : KeyId) (s : State) : PoolStep s (grantTalk b p k s) := by
  unfold grantTalk
  split
  · refine PoolStep.trans ?_ ((kept_submit _ _).trans (kept_postPos _ _ _)).poolStep
    refine PoolStep.trans ?_ (kept_recordGrant _ _ _ _ _).poolStep
    refine PoolStep.trans ?_ (pool_setHoot _ _ _)
    exact ((kept_bind _ _ _ _).trans (kept_joinEndpoint _ _ _ _ _)).poolStep
  · exact .refl s

theorem pool_hootTalk {l : LinkId} {b : BridgeId} {p : PosId} {k : KeyId} {h : Hoot} {s : State} :
    PoolStep s (hootTalk l b p k h s).1 := by
  unfold hootTalk
  split
  · exact pool_violate _ _ _ _ s
  · split
    · exact .refl s
    · split
      · exact .refl s
      · split
        · exact (pool_grantTalk _ _ _ s).trans (kept_evalClash _ _).poolStep
        · split
          · exact PoolStep.of_eq rfl rfl
          · exact .refl s

theorem pool_lineTalk (p : PosId) (k : KeyId) (L : LineId) (s : State) : PoolStep s (lineTalk p k L s).1 := by
  unfold lineTalk
  split
  · exact .refl s
  · split
    · exact .refl s
    · split
      · exact .refl s
      · split
        · exact (kept_startLineTalk _ _ _ _ s).poolStep
        · exact .refl s

theorem pool_talkOn (l : LinkId) (key : Byte) (p : PosId) (s : State) : PoolStep s (talkOn l key p s).1 := by
  unfold talkOn
  split
  · exact .refl s
  · split
    · exact pool_lineTalk _ _ _ s
    · split
      · exact pool_hootTalk
      · exact .refl s
    · exact .refl s

theorem kept_stopTalk (p : PosId) (k : KeyId) (s : State) : Kept s (stopTalk p k s) := by
  unfold stopTalk
  split
  · exact kept_endTalkOn _ _ _ s
  · exact kept_endLineTalk _ _ _ _ _ s
  · exact Kept.refl s

theorem pool_talkOff (key : Byte) (p : PosId) (s : State) : PoolStep s (talkOff key p s).1 := by
  unfold talkOff
  split
  · exact .refl s
  · exact (kept_stopTalk _ _ s).poolStep

/-! ## The owners of intercom requests -/

theorem kept_commitDial (c : BridgeId) (p : PosId) (e : Endpoint) (q : PosId) (mode : CallMode) (waits : Bool)
    (s : State) : Kept s (commitDial c p e q mode waits s) := by
  have h := kept_openCall c p e mode none [⟨q, waits⟩] s
  refine Kept.trans ?_ (kept_startRecord _ _ _ _ _)
  split
  · exact (h.trans (kept_setWaiting _ _ _)).trans (kept_postPos _ _ _)
  · split
    · exact h.trans (kept_present _ _ _ _ _)
    · exact h

theorem kept_commitGroup (c : BridgeId) (p : PosId) (e : Endpoint) (g : GroupId) (mode : CallMode)
    (members : List PosId) (s : State) : Kept s (commitGroup c p e g mode members s) := by
  have h := kept_openCall c p e mode (some g) (members.map fun q => ⟨q, false⟩) s
  refine Kept.trans ?_ (kept_startRecord _ _ _ _ _)
  split
  · exact h.trans (Kept.each (fun q t => kept_present _ _ _ q t) _ _)
  · exact h

theorem pool_dial (p : PosId) (e : Endpoint) (q : PosId) (mode : CallMode) (s : State) :
    PoolStep s (dial p e q mode s).1 := by
  unfold dial
  split
  · exact .refl s
  · split
    · exact .refl s
    · split
      · exact .refl s
      · exact (kept_commitDial _ _ _ _ _ _ s).poolStep

theorem pool_dialCheck {l : LinkId} {p : PosId} {e : Endpoint} {q : PosId} {s : State} {x : State × Response}
    (h : dialCheck l p e q s = some x) : PoolStep s x.1 := by
  unfold dialCheck at h
  split at h
  · cases h
    exact pool_violate _ _ _ _ s
  · split at h
    · cases h
      exact .refl s
    · split at h
      · cases h
        exact .refl s
      · split at h
        · cases h
          exact .refl s
        · split at h <;> cases h
          exact .refl s

theorem pool_icmDial (l : LinkId) (ep target mode : Byte) (p : PosId) (s : State) :
    PoolStep s (icmDial l ep target mode p s).1 := by
  unfold icmDial
  split
  · exact .refl s
  · split
    · split
      · exact pool_dialCheck ‹_›
      · exact pool_dial _ _ _ _ s
    · exact .refl s

theorem pool_groupCall (l : LinkId) (p : PosId) (e : Endpoint) (g : GroupId) (mode : CallMode) (s : State) :
    PoolStep s (groupCall l p e g mode s).1 := by
  unfold groupCall
  split
  · exact pool_violate _ _ _ _ s
  · split
    · exact .refl s
    · split
      · exact .refl s
      · dsimp only
        split
        · exact .refl s
        · exact (kept_commitGroup _ _ _ _ _ _ s).poolStep

theorem pool_icmGroup (l : LinkId) (ep group mode : Byte) (p : PosId) (s : State) :
    PoolStep s (icmGroup l ep group mode p s).1 := by
  unfold icmGroup
  split
  · exact .refl s
  · split
    · exact pool_groupCall _ _ _ _ _ s
    · exact .refl s

theorem kept_pickupWaiting (q : PosId) (e : Endpoint) (c : BridgeId) (s : State) : Kept s (pickupWaiting q e c s) :=
  ((kept_setWaiting q none s).trans (kept_leaveCall _ _ _ _)).trans (kept_answer _ _ _ _)

theorem pool_icmPickup (ep choice : Byte) (q : PosId) (s : State) : PoolStep s (icmPickup ep choice q s).1 := by
  unfold icmPickup
  split
  · exact .refl s
  · split
    · exact .refl s
    · split
      · exact .refl s
      · split
        · exact .refl s
        · split
          · exact .refl s
          · exact ((kept_pickupWaiting _ _ _ s).ite (kept_answer _ _ _ s)).poolStep

theorem pool_icmHangup (p : PosId) (s : State) : PoolStep s (icmHangup p s).1 :=
  (kept_leaveCall p .own false s).poolStep

/-! ## Permissions (R143 to R146) -/

theorem pool_commitPermits (p : PosId) (kind : ReqKind) (f : PermParts) (s : State) :
    PoolStep s (commitPermits p kind f s) :=
  (Kept.each (kept_permitPart p kind _ _) _ _).poolStep.of_start rfl rfl

theorem pool_narrow (l : LinkId) (f : PermParts) (p : PosId) (s : State) : PoolStep s (narrow l f p s).1 := by
  unfold narrow
  split
  · exact .refl s
  · split
    · exact pool_violate _ _ _ _ s
    · exact pool_commitPermits _ _ _ s

theorem pool_grant (p : Byte) (f : PermParts) (s : State) : PoolStep s (grant p f s).1 := by
  unfold grant
  split
  · exact .refl s
  · split
    · exact .refl s
    · exact pool_commitPermits _ _ _ s

/-! ## The owners of requests of class ADMIN -/

theorem pool_restartDetector (L : LineId) (s : State) : PoolStep s (restartDetector L s) := .of_eq rfl rfl

theorem pool_defineLine (L : LineId) (f : LineFields) (c : LineCodes) (s : State) :
    PoolStep s (defineLine L f c s) := by
  refine PoolStep.trans ?_ (kept_enterState _ _ _ _).poolStep
  refine PoolStep.trans ?_ (pool_restartDetector _ _)
  exact PoolStep.of_eq rfl rfl

theorem pool_lineDefine (line : Byte) (f : LineFields) (s : State) : PoolStep s (lineDefine line f s).1 := by
  unfold lineDefine
  split
  · split
    · exact .refl s
    · split
      · exact .refl s
      · exact pool_defineLine _ _ _ s
  · exact .refl s

theorem pool_dropLeg (b : BridgeId) (x : Leg) (s : State) : PoolStep s (dropLeg b x s) :=
  PoolStep.trans ((kept_leave b (lineSource x.line) s).poolStep.ite (.refl s)) (pool_modHoot _ _ _)

theorem pool_regainLeg (b : BridgeId) (x : LineId × Nat) (s : State) : PoolStep s (regainLeg b x s) :=
  ((kept_setLeg _ _ _ _).trans (kept_setGainOn _ _ _ _)).poolStep

theorem pool_addLeg (b : BridgeId) (x : LineId × Nat) (s : State) : PoolStep s (addLeg b x s) :=
  PoolStep.ite ((pool_modHoot _ _ _).trans (kept_joinLeg _ _ _).poolStep) (pool_modHoot _ _ _)

theorem pool_replaceLegs (b : BridgeId) (old : List Leg) (new : List (LineId × Nat)) (s : State) :
    PoolStep s (replaceLegs b old new s) :=
  ((PoolStep.each (pool_dropLeg b) _ s).trans (.each (pool_regainLeg b) _ _)).trans (.each (pool_addLeg b) _ _)

theorem pool_openHoot (b : BridgeId) (s : State) : PoolStep s (openHoot b s) := by
  unfold openHoot
  split
  · exact .refl s
  · exact (kept_claimBridge _ _ _ _ _).poolStep.trans (pool_setHoot _ _ _)

theorem pool_defineHoot (b : BridgeId) (f : HootFields) (a : HootArgs) (s : State) :
    PoolStep s (defineHoot b f a s) := by
  have h : PoolStep s ((openHoot b s).modHoot b (storeHoot f a)) := (pool_openHoot b s).trans (pool_modHoot _ _ _)
  refine PoolStep.trans ?_ (kept_timerAsk _ _ _ _).poolStep
  split
  · exact h.trans (pool_replaceLegs _ _ _ _)
  · exact h

theorem pool_hootDefine (bridge : Byte) (f : HootFields) (s : State) : PoolStep s (hootDefine bridge f s).1 := by
  unfold hootDefine
  split
  · split
    · exact .refl s
    · exact pool_defineHoot _ _ _ s
  · exact .refl s

theorem kept_clearKey (b : BridgeId) (x : PosId × KeyId) (s : State) : Kept s (clearKey b x s) :=
  (kept_unbind _ _ _ _).trans (kept_postPos _ _ _)

theorem pool_removeHoot (b : BridgeId) (s : State) : PoolStep s (removeHoot b s) := by
  refine PoolStep.trans ?_ (kept_dropBridge _ _).poolStep
  refine PoolStep.trans ?_ (pool_setHoot _ _ _)
  exact (Kept.each (kept_clearKey b) _ s).poolStep.trans (.each (pool_dropLeg b) _ _)

theorem pool_hootRemove (bridge : Byte) (s : State) : PoolStep s (hootRemove bridge s).1 := by
  unfold hootRemove
  split
  · exact .refl s
  · split
    · exact .refl s
    · split
      · exact .refl s
      · exact pool_removeHoot _ s

theorem pool_groupDefine (group : Byte) (members : List Byte) (s : State) :
    PoolStep s (groupDefine group members s).1 := by
  unfold groupDefine
  split
  · split
    · exact .refl s
    · exact .of_eq rfl rfl
  · exact .refl s

theorem pool_watchSet (m : BitVec 192) (route : Byte) (s : State) : PoolStep s (watchSet m route s).1 := by
  unfold watchSet
  split
  · exact .refl s
  · exact .of_eq rfl rfl

theorem pool_vadSet (cls : Byte) (f : VadFields) (s : State) : PoolStep s (vadSet cls f s).1 := by
  unfold vadSet
  split
  · exact .of_eq rfl rfl
  · exact .of_eq rfl rfl
  · exact .refl s

theorem pool_icmPolicy (policy : Option Byte) (alertS : Option Half) (s : State) :
    PoolStep s (icmPolicy policy alertS s).1 := by
  unfold icmPolicy
  split
  · exact .refl s
  · exact .of_eq rfl rfl

theorem pool_forceDrop (line : Byte) (s : State) : PoolStep s (forceDrop line s).1 := by
  unfold forceDrop
  split
  · exact .refl s
  · split
    · exact .refl s
    · exact (kept_teardownLine _ _ s).poolStep

theorem kept_conferenceJoin (b : BridgeId) (M : LineId) (gain : Nat) (s : State) :
    Kept s (conferenceJoin b M gain s).1 := by
  unfold conferenceJoin
  split
  · exact kept_setGainOn _ _ _ s
  · split
    · exact Kept.refl s
    · exact kept_join _ _ _ _ _ s

theorem pool_bridgeJoin (bridge line : Byte) (gain : Half) (s : State) :
    PoolStep s (bridgeJoin bridge line gain s).1 := by
  unfold bridgeJoin
  split
  · split
    · split
      · exact .refl s
      · split
        · exact .refl s
        · split
          · exact .refl s
          · split
            · exact .refl s
            · exact (kept_conferenceJoin _ _ _ s).poolStep
    · exact .refl s
  · exact .refl s

theorem pool_bridgeLeave (bridge line : Byte) (s : State) : PoolStep s (bridgeLeave bridge line s).1 := by
  unfold bridgeLeave
  split
  · split
    · exact (kept_leaveConference _ _ s).poolStep
    · exact .refl s
  · exact .refl s

/-! ## PART_CLEAR (R189) -/

theorem kept_clearTalk (b : BridgeId) (s : State) : Kept s (clearTalk b s) := by
  unfold clearTalk
  split
  · refine Kept.trans ?_ (kept_evalClash _ _)
    exact (Kept.each (fun p t => kept_endQueued b p .admin t) _ s).trans
      (Kept.each (fun p t => kept_stopGrant b p .admin t) _ _)
  · exact Kept.refl s

theorem kept_clearLine (L : LineId) (s : State) : Kept s (clearLine L s) := by
  have h : Kept s ((stripLine L .admin s).modGen L fun g => { g with sustained := false }) :=
    (kept_stripLine _ _ _).trans (kept_modGen _ _ _)
  refine Kept.ite (Kept.trans (h.trans ?_) (kept_reportChange _ _ _ _ _)) h
  exact kept_callLine _ L _ (fun _ => rfl) fun _ => rfl

theorem pool_clearAll (s : State) : PoolStep s (clearAll s) := by
  have calls : Kept s (clearCalls s) := Kept.each (fun c t => kept_endCall c adminEnding t) _ s
  have talks : Kept s (clearHoots (clearCalls s)) := calls.trans (Kept.each kept_clearTalk _ _)
  have lines := talks.trans (Kept.each kept_clearLine (ids 192) _)
  refine PoolStep.trans ?_ (pool_links _ _)
  exact ((lines.trans (kept_clearRest _)).trans (kept_submit _ _)).poolStep

/-! ## The detail log and the links -/

theorem throttle_bridges (s : State) : (throttle s).bridges = s.bridges := by rw [throttle_eq]
theorem throttle_detectors (s : State) : (throttle s).detectors = s.detectors := by rw [throttle_eq]

theorem pool_throttle (s : State) : PoolStep s (throttle s) := .of_eq (throttle_detectors s) (throttle_bridges s)

theorem pool_setLevel (v : LogLevel) (s : State) : PoolStep s (setLevel v s) := .of_eq rfl rfl

theorem pool_leaveLost (s : State) : PoolStep s (leaveLost s) := by
  refine PoolStep.trans ?_ (pool_throttle _)
  refine PoolStep.trans ?_ (pool_setLevel _ _)
  exact .of_eq rfl rfl

theorem pool_reevaluate (s : State) : PoolStep s (reevaluate s) := by
  unfold reevaluate
  split
  · exact pool_throttle s
  · exact PoolStep.ite (pool_setLevel _ s) (.refl s)
  · exact PoolStep.ite (pool_leaveLost s) (.refl s)

theorem pool_logLimits (hw lw : Option Half) (s : State) : PoolStep s (logLimits hw lw s).1 :=
  (pool_reevaluate (s.modLog (storeLimits hw lw))).of_start rfl rfl

theorem pool_logRead (n : Half) (s : State) : PoolStep s (logRead n s).1 :=
  (pool_reevaluate (s.modLog (takeBatch (min (readCountOf n) s.log.fill)))).of_start rfl rfl

theorem pool_clearLatch (m : LinkId) (s : State) : PoolStep s (clearLatch m s) :=
  PoolStep.ite ((kept_submit _ _).poolStep.of_start rfl rfl) (.refl s)

theorem pool_latchClear (l : LinkId) (target : Byte) (s : State) : PoolStep s (latchClear l target s).1 := by
  unfold latchClear
  split
  · exact .refl s
  · exact .refl s
  · exact pool_clearLatch _ s
  · split
    · exact pool_violate _ _ _ _ s
    · exact pool_clearLatch _ s

theorem pool_readObject (target id option : Byte) (s : State) : PoolStep s (readObject target id option s).1 := by
  unfold readObject
  split
  · exact .refl s
  · exact PoolStep.ite (.of_eq rfl rfl) (.refl s)

/-! ## Highways (R15, R83, R84, R194, R195) -/

theorem pool_resetSignalling (L : LineId) (s : State) : PoolStep s (resetSignalling L s) := .of_eq rfl rfl

theorem pool_endLines (n : HwId) (s : State) : PoolStep s (endLines n s) := by
  refine PoolStep.trans ?_ (Kept.each kept_legDown _ _).poolStep
  exact (Kept.each kept_lineDown _ s).poolStep.trans (.each pool_resetSignalling _ _)

theorem pool_posHighwayDown (n : HwId) (s : State) : PoolStep s (posHighwayDown n s) := by
  refine PoolStep.trans ?_ (kept_settleClash s _).poolStep
  exact (kept_endPositions n _).poolStep.of_start rfl rfl

theorem pool_posHighwayUp (n : HwId) (s : State) : PoolStep s (posHighwayUp n s) := .of_eq rfl rfl

theorem pool_lineHighwayDown (n : HwId) (s : State) : PoolStep s (lineHighwayDown n s) := by
  refine PoolStep.trans ?_ (kept_settleClash s _).poolStep
  exact (pool_endLines n _).of_start rfl rfl

theorem pool_lineHighwayUp (n : HwId) (s : State) : PoolStep s (lineHighwayUp n s) := by
  refine PoolStep.trans ?_ (kept_settleClash s _).poolStep
  refine PoolStep.trans ?_ (Kept.each kept_legUp _ _).poolStep
  refine PoolStep.trans ?_ (PoolStep.each pool_restartDetector _ _)
  exact (Kept.each kept_lineUp _ _).poolStep.of_start rfl rfl

theorem pool_syncLost (s : State) : PoolStep s (syncLost s) := by
  rw [syncLost_eq]
  refine PoolStep.trans ?_ (kept_settleClash s _).poolStep
  refine PoolStep.trans ?_ (Kept.each kept_endPositions _ _).poolStep
  exact (PoolStep.each pool_endLines _ (syncGone s)).of_start rfl rfl

/-! ## Activity (R37, R39, R51) -/

theorem recordActivity_bridges (x : SourceId) (started : Bool) (s : State) :
    (recordActivity x started s).bridges = s.bridges := by
  unfold recordActivity
  split
  · exact submit_bridges _ s
  · rfl

theorem active_raised (x : SourceId) (started : Bool) (s : State) (y : SourceId) :
    (s.modDet x fun d => { d with active := started, onset := 0, hang := 0 }).active y =
      if y = x then started else s.active y := by
  simp only [State.active, modDet_detectors, Tab.get_modify]
  split <;> rfl

/-- A bridge takes the event of a source once the source's detector stands in its new state; one without the source
has nothing to take. -/
theorem poolActivity_ok {s t : State} {x : SourceId} {started : Bool} (h : PoolOk s) (hb : t.bridges = s.bridges)
    (ha : ∀ y, t.active y = if y = x then started else s.active y) : PoolOk (poolActivity x started t) := fun b => by
  have hd : (poolActivity x started t).detectors = t.detectors := rfl
  have hs : BridgeOk s (t.bridges.get b) := hb ▸ h b
  simp only [poolActivity, Tab.get_map]
  refine BridgeOk.congr (s := t) hd ?_
  split
  · exact hs.takeActivity (by rw [ha, if_pos rfl]) fun y hy => by rw [ha, if_neg hy]
  · rename_i hx
    refine hs.of_active fun c hc => ?_
    rw [ha, if_neg]
    rintro rfl
    exact hx (by simpa [Bridge.has] using ⟨c, hc, rfl⟩)

theorem pool_raiseActivity (x : SourceId) (started : Bool) (s : State) : PoolStep s (raiseActivity x started s) := by
  refine PoolStep.trans (fun h => ?_) (Kept.each (kept_hootActivity x started) _ _).poolStep
  generalize hu : s.modDet x (fun d => { d with active := started, onset := 0, hang := 0 }) = u
  have hk := kept_recordActivity x started u
  have hd : (recordActivity x started u).detectors = u.detectors := congrArg Frame.detectors hk.frame
  refine poolActivity_ok h ?_ fun y => ?_
  · rw [recordActivity_bridges, ← hu]
    rfl
  · rw [State.active, hd, ← hu]
    exact active_raised x started s y

/-! ## Ring events (R88 to R95) -/

theorem pool_signallingSample (heard : HwId → Bool) (bits : BitVec 192) (s : State) :
    PoolStep s (signallingSample heard bits s) :=
  PoolStep.of_start (.inFreeOrder (fun (x : LineId × Bool) t => (kept_deliverRing x.1 x.2 t).poolStep) _ _) rfl rfl

theorem pool_armDetector (L : LineId) (s : State) : PoolStep s (armDetector L s) := .ite (.of_eq rfl rfl) (.refl s)

theorem pool_endBurst (L : LineId) (s : State) : PoolStep s (endBurst L s) := .ite (.of_eq rfl rfl) (.refl s)

theorem pool_raiseRing (L : LineId) (s : State) : PoolStep s (raiseRing L s) :=
  .ite ((kept_deliverRing L true _).poolStep.of_start rfl rfl) (.refl s)

theorem pool_endRing (L : LineId) (s : State) : PoolStep s (endRing L s) :=
  .ite ((kept_deliverRing L false _).poolStep.of_start rfl rfl) (.refl s)

/-! ## Frames (R192) -/

theorem quietFrame_active {v : VadParams} {a : Nat} {d d' : Detector} (h : quietFrame v a d = (d', none)) :
    d'.active = d.active := by
  unfold quietFrame at h
  dsimp only at h
  generalize (if v.ton ≤ nextEnergy d.energy a then d.onset + 1 else 0) = n at h
  split at h <;> cases h
  rfl

theorem activeFrame_active {v : VadParams} {a : Nat} {d d' : Detector} (h : activeFrame v a d = (d', none)) :
    d'.active = d.active := by
  unfold activeFrame at h
  dsimp only at h
  generalize (if nextEnergy d.energy a < v.toff then d.hang + 1 else 0) = n at h
  split at h <;> cases h
  rfl

/-- A frame that raises no event leaves the activity state of a detector (R46, R47). -/
theorem detectFrame_active {v : VadParams} {a : Nat} {d d' : Detector} (h : detectFrame v a d = (d', none)) :
    d'.active = d.active := by
  unfold detectFrame at h
  split at h
  · exact activeFrame_active h
  · exact quietFrame_active h

/-- Every detector keeps its activity state until its event is taken (R51). -/
theorem detect_active (x : Tab Half 336) (s : State) (y : SourceId) : (detect x s).active y = s.active y := by
  simp only [State.active, detect, Tab.get_mapIdx]
  split
  · exact detectFrame_active ‹_›
  · rfl

theorem pool_detect (x : Tab Half 336) (s : State) : PoolStep s (detect x s) :=
  fun h b => (h b).of_active fun c _ => detect_active x s c.source

theorem pool_mixFrame (x : Tab Half 336) (s : State) : PoolStep s (mixFrame x s) := .of_eq rfl rfl

theorem pool_advanceCount (s : State) : PoolStep s (advanceCount s) := .of_eq rfl rfl

theorem pool_checkSlots (f : InFrame) (s : State) : PoolStep s (checkSlots f s) := .of_eq rfl rfl

theorem pool_takeFrameEvent (heard : HwId → Bool) (bits : BitVec 192) (e : FrameEvent) (s : State) :
    PoolStep s (takeFrameEvent heard bits e s) := by
  refine (pool_begin none s).trans ?_
  cases e with
  | activity x started => exact pool_raiseActivity _ _ _
  | sample => exact pool_signallingSample _ _ _
  | position n up => exact PoolStep.ite (pool_posHighwayUp _ _) (pool_posHighwayDown _ _)
  | line n up => exact PoolStep.ite (pool_lineHighwayUp _ _) (pool_lineHighwayDown _ _)

theorem pool_framePulse (f : InFrame) (s : State) : PoolStep s (framePulse f s) := by
  refine PoolStep.trans ?_ (PoolStep.inFreeOrder (pool_takeFrameEvent _ _) _ _)
  refine PoolStep.trans ?_ (pool_checkSlots _ _)
  refine PoolStep.trans ?_ (pool_advanceCount _)
  refine PoolStep.trans ?_ (pool_detect _ _)
  exact (pool_mixFrame _ _).of_start rfl rfl

/-! ## Timers (R40, R71 to R79, R114, R134, R162) -/

theorem kept_guardExpires (L : LineId) (s : State) : Kept s (guardExpires L s) :=
  (kept_endClearing L s).ite (Kept.refl s)

theorem kept_offerExpires (L : LineId) (s : State) : Kept s (offerExpires L s) := by
  unfold offerExpires
  split
  · split
    · exact kept_campRemove _ _ _ s
    · exact Kept.refl s
  · exact Kept.refl s

theorem kept_alertExpires (L : LineId) (s : State) : Kept s (alertExpires L s) := (kept_abandon L s).ite (Kept.refl s)

theorem kept_recallExpires (L : LineId) (s : State) : Kept s (recallExpires L s) := by
  unfold recallExpires
  split
  · refine Kept.trans ?_ (kept_startTimer _ _ _ _)
    split
    · exact kept_postPos _ _ s
    · exact Kept.refl s
  · exact Kept.refl s

theorem kept_lineExpires (L : LineId) (s : State) : Kept s (lineExpires L s) := by
  unfold lineExpires
  split
  · exact kept_guardExpires L s
  · exact kept_offerExpires L s
  · exact kept_alertExpires L s
  · exact kept_recallExpires L s
  · exact Kept.refl s

theorem kept_hootQuiet (b : BridgeId) (s : State) : Kept s (hootQuiet b s) := by
  unfold hootQuiet
  split
  · split
    · refine Kept.trans ?_ (kept_postListeners _ _ _)
      exact kept_modHoot s b _ fun _ k => ⟨k.slots, k.queue, k.noneTwice⟩
    · exact Kept.refl s
  · exact Kept.refl s

theorem kept_deliverIdle (b : BridgeId) (s : State) : Kept s (deliverIdle b s) := by
  unfold deliverIdle
  split
  · exact kept_teardownLine _ _ s
  · exact kept_hootQuiet b s
  · exact Kept.refl s
  · exact Kept.refl s

theorem kept_idleExpires (b : BridgeId) (s : State) : Kept s (idleExpires b s) :=
  ((kept_stopIdle b s).trans (kept_deliverIdle b _)).ite (Kept.refl s)

theorem kept_talkExpires (b : BridgeId) (p : PosId) (s : State) : Kept s (talkExpires b p s) :=
  (kept_endGrant b p _ s).ite (Kept.refl s)

theorem kept_callExpires (c : BridgeId) (s : State) : Kept s (callExpires c s) := by
  unfold callExpires
  split
  · split
    · exact Kept.refl s
    · split
      · exact kept_endCall _ _ s
      · exact ((kept_modCall _ _ _).trans (kept_withdrawAll _ _ _)).trans (kept_postIcmState _ _ _)
  · exact Kept.refl s

theorem pool_takeExpiry (e : Expiry) (s : State) : PoolStep s (takeExpiry e s) := by
  refine PoolStep.ite ((pool_begin none s).trans ?_) (.refl s)
  cases e with
  | line L => exact (kept_lineExpires _ _).poolStep
  | bridge b => exact (kept_idleExpires _ _).poolStep
  | talk b p => exact (kept_talkExpires _ _ _).poolStep
  | call c => exact (kept_callExpires _ _).poolStep
  | sync => exact pool_syncLost _

/-- A timer that counts down neither starts nor stops. -/
theorem countDown_eq_none {n : Option Nat} (h : n = none) : countDown n = none := by
  rw [h]
  rfl

theorem pool_countAll (s : State) : PoolStep s (countAll s) := fun h b => by
  have hb : (countAll s).bridges.get b = { s.bridges.get b with idle := countDown (s.bridges.get b).idle } := by
    simp [countAll]
  rw [hb]
  obtain ⟨hcap, honce, hranges, hflag, hidle, hoff⟩ := h b
  refine BridgeOk.congr (s := s) (t := countAll s) rfl ?_
  exact ⟨hcap, honce, hranges, hflag, fun e => countDown_eq_none (hidle e), fun e => countDown_eq_none (hoff e)⟩

theorem pool_tick (s : State) : PoolStep s (tick s) :=
  PoolStep.trans (pool_countAll s) (PoolStep.of_start (.inFreeOrder pool_takeExpiry _ _) rfl rfl)

/-! ## Commands -/

theorem powerOnState_pool (s : State) : PoolOk (powerOnState s) := fun b => by
  have hb : (powerOnState s).bridges.get b = Bridge.reset := by simp [powerOnState, State.reset]
  rw [hb]
  exact BridgeOk.empty _ .free 0 .both

/-- An outcome that is a next state keeps the bridge records. -/
def KeepsPool (s : State) (o : Outcome) : Prop := ∀ t, o = .next t → PoolStep s t

theorem PoolStep.next {s t : State} (h : PoolStep s t) : KeepsPool s (.next t) := fun u hu => by
  cases hu
  exact h

theorem pool_execNoticeRead (l : LinkId) (n : Half) (s : State) : KeepsPool s (execNoticeRead l n s) :=
  PoolStep.next (PoolStep.trans (pool_takeRequest (fun s => pool_modLink l _ s) _ _ _ _ _) (pool_modLink l _ _))

/-- Every request keeps the bridge records, taken whole. -/
theorem pool_request {i : Instr} (h : (kindOf i).isSome) (s : State) : KeepsPool s (exec i s) := by
  cases i with
  | noticeRead l n => exact pool_execNoticeRead l n s
  | noticeMask l m => exact (pool_takeRequest (fun s => pool_modLink l _ s) _ _ _ _ s).next
  | query l t i o => exact (pool_takeRequest (pool_readObject t i o) _ _ _ _ s).next
  | linkReset l => exact (pool_takeRequest (fun s => pool_modLink l _ s) _ _ _ _ s).next
  | latchClear l t => exact (pool_takeRequest (pool_latchClear l t) _ _ _ _ s).next
  | posOpen l p => exact (pool_positionRequest (fun p s => pool_modPos p _ s) _ _ _ _ _ _ s).next
  | posClose l p => exact (pool_positionRequest (fun p s => pool_done (pool_closePosition p s) _) _ _ _ _ _ _ s).next
  | lineTake l p e n f => exact (pool_positionRequest (pool_lineTake l e n f) _ _ _ _ _ _ s).next
  | lineDrop l p e => exact (pool_positionRequest (pool_lineDrop e) _ _ _ _ _ _ s).next
  | linePark l p e => exact (pool_positionRequest (pool_linePark e) _ _ _ _ _ _ s).next
  | lineSignal l p n => exact (pool_positionRequest (pool_lineSignal n) _ _ _ _ _ _ s).next
  | campCancel l p n => exact (pool_positionRequest (pool_campCancel n) _ _ _ _ _ _ s).next
  | keySet l p k c b v d r => exact (pool_positionRequest (pool_keySet l k c b v d r) _ _ _ _ _ _ s).next
  | levelSet l p f => exact (pool_positionRequest (pool_levelSet f) _ _ _ _ _ _ s).next
  | talkOn l p k => exact (pool_positionRequest (pool_talkOn l k) _ _ _ _ _ _ s).next
  | talkOff l p k => exact (pool_positionRequest (pool_talkOff k) _ _ _ _ _ _ s).next
  | icmDial l p e t m => exact (pool_positionRequest (pool_icmDial l e t m) _ _ _ _ _ _ s).next
  | icmGroup l p e g m => exact (pool_positionRequest (pool_icmGroup l e g m) _ _ _ _ _ _ s).next
  | icmPickup l p e c => exact (pool_positionRequest (pool_icmPickup e c) _ _ _ _ _ _ s).next
  | icmHangup l p => exact (pool_positionRequest pool_icmHangup _ _ _ _ _ _ s).next
  | narrow l p f => exact (pool_positionRequest (pool_narrow l f) _ _ _ _ _ _ s).next
  | lineDefine l n f => exact (pool_takeRequest (pool_lineDefine n f) _ _ _ _ s).next
  | hootDefine l b f => exact (pool_takeRequest (pool_hootDefine b f) _ _ _ _ s).next
  | hootRemove l b => exact (pool_takeRequest (pool_hootRemove b) _ _ _ _ s).next
  | groupDefine l g ps => exact (pool_takeRequest (pool_groupDefine g ps) _ _ _ _ s).next
  | grant l p f => exact (pool_takeRequest (pool_grant p f) _ _ _ _ s).next
  | watchSet l m r => exact (pool_takeRequest (pool_watchSet m r) _ _ _ _ s).next
  | vadSet l c f => exact (pool_takeRequest (pool_vadSet c f) _ _ _ _ s).next
  | logLimits l hw lw => exact (pool_takeRequest (pool_logLimits hw lw) _ _ _ _ s).next
  | icmPolicy l p a => exact (pool_takeRequest (pool_icmPolicy p a) _ _ _ _ s).next
  | timeSet l v => exact (pool_takeRequest (fun s => .of_eq rfl rfl) _ _ _ _ s).next
  | forceDrop l n => exact (pool_takeRequest (pool_forceDrop n) _ _ _ _ s).next
  | partClear l => exact (pool_takeRequest (fun s => pool_done (pool_clearAll s) _) _ _ _ _ s).next
  | bridgeJoin l b n g => exact (pool_takeRequest (pool_bridgeJoin b n g) _ _ _ _ s).next
  | bridgeLeave l b n => exact (pool_takeRequest (pool_bridgeLeave b n) _ _ _ _ s).next
  | logRead l n => exact (pool_takeRequest (pool_logRead n) _ _ _ _ s).next
  | logReadAgain l n => exact (pool_takeRequest PoolStep.refl _ _ _ _ s).next
  | logStatus l => exact (pool_takeRequest PoolStep.refl _ _ _ _ s).next
  | gapClear l => exact (pool_takeRequest (fun s => .of_eq rfl rfl) _ _ _ _ s).next
  | _ => cases h

theorem runRequest_eq_exec {i : Instr} (h : (kindOf i).isSome) (s : State) : runRequest i s = exec i s := by
  cases i <;> simp only [kindOf, Option.isSome_none, Bool.false_eq_true] at h <;> rfl

theorem runRequest_eq_next {i : Instr} (h : (kindOf i).isSome = false) (s : State) : runRequest i s = .next s := by
  cases i <;> simp only [kindOf, Option.isSome_some, Bool.true_eq_false] at h <;> rfl

theorem pool_runRequest (i : Instr) (s : State) : KeepsPool s (runRequest i s) := by
  cases h : (kindOf i).isSome with
  | true =>
    rw [runRequest_eq_exec h]
    exact pool_request h s
  | false =>
    rw [runRequest_eq_next h]
    exact (PoolStep.refl s).next

theorem pool_takeFrame (l : LinkId) (frame : List Byte) (s : State) : KeepsPool s (takeFrame l frame s) := by
  unfold takeFrame
  split
  · exact pool_runRequest _ s
  · exact (pool_respond (x := (s.begin (some l), .bare .malformed)) (pool_begin _ s) _ _).next

theorem KeepsPool.of_start {s s' : State} {o : Outcome} (h : KeepsPool s' o) (hs : PoolStep s s') : KeepsPool s o :=
  fun t ht => hs.trans (h t ht)

theorem pool_receiveByte (l : LinkId) (byte : Byte) (s : State) : KeepsPool s (receiveByte l byte s) := by
  unfold receiveByte
  dsimp only
  split
  · exact (pool_takeFrame _ _ _).of_start (pool_modLink _ _ s)
  · exact (pool_modLink _ _ s).next

theorem pool_execByteClocked (l : LinkId) (byte : Byte) (s : State) : KeepsPool s (execByteClocked l byte s) := by
  have hb : PoolStep s (s.begin none) := pool_begin none s
  refine KeepsPool.of_start ?_ hb
  unfold execByteClocked
  dsimp only
  split
  · exact (PoolStep.refl _).next
  · exact pool_receiveByte _ _ _
  · exact (pool_modLink _ _ _).next
  · exact (pool_modLink _ _ _).next
  · exact (pool_modLink _ _ _).next

/-- An event keeps the bridge records when its effect does. -/
theorem pool_event {f : State → State} (h : ∀ s, PoolStep s (f s)) (s : State) :
    KeepsPool s (.next (f (s.begin none))) := ((pool_begin none s).trans (h _)).next

/-- Every command keeps the bridge records: a request by its owner, a byte by the request that it completes, an event by
its effect. -/
theorem pool_exec (i : Instr) (s : State) : KeepsPool s (exec i s) := by
  cases i with
  | powerOn => exact PoolStep.next fun _ => powerOnState_pool s
  | reset => exact PoolStep.next fun _ => powerOnState_pool s
  | chipSelectAsserted l => exact pool_event (pool_modLink l _) s
  | chipSelectDeasserted l => exact pool_event (pool_modLink l _) s
  | malformed l kind => exact (pool_respond (x := (s.begin (some l), .bare .malformed)) (pool_begin _ s) _ _).next
  | frameSyncPulse f => exact pool_event (pool_framePulse f) s
  | frameSyncAbsent => exact pool_event pool_syncLost s
  | activityStart x => exact pool_event (fun t => (PoolStep.refl t).ite (pool_raiseActivity x true t)) s
  | activityEnd x => exact pool_event (fun t => (pool_raiseActivity x false t).ite (.refl t)) s
  | positionHighwayDown n => exact pool_event (fun t => (pool_posHighwayDown n t).ite (.refl t)) s
  | positionHighwayUp n => exact pool_event (fun t => (PoolStep.refl t).ite (pool_posHighwayUp n t)) s
  | lineHighwayDown n => exact pool_event (fun t => (pool_lineHighwayDown n t).ite (.refl t)) s
  | lineHighwayUp n => exact pool_event (fun t => (PoolStep.refl t).ite (pool_lineHighwayUp n t)) s
  | signallingSample bits => exact pool_event (pool_signallingSample _ bits) s
  | detectorArmed L => exact pool_event (pool_armDetector L) s
  | inboundBurstEnd L => exact pool_event (pool_endBurst L) s
  | ringStart L => exact pool_event (pool_raiseRing L) s
  | ringEnd L => exact pool_event (pool_endRing L) s
  | guardExpiry L => exact pool_event (fun t => (kept_guardExpires L t).poolStep) s
  | offerExpiry L => exact pool_event (fun t => (kept_offerExpires L t).poolStep) s
  | alertExpiry L => exact pool_event (fun t => (kept_alertExpires L t).poolStep) s
  | recallExpiry L => exact pool_event (fun t => (kept_recallExpires L t).poolStep) s
  | bridgeIdle b => exact pool_event (fun t => (kept_idleExpires b t).poolStep) s
  | talkIdleExpiry b p => exact pool_event (fun t => (kept_talkExpires b p t).poolStep) s
  | icmAlertExpiry c => exact pool_event (fun t => (kept_callExpires c t).poolStep) s
  | outboundBurstEnd L => exact pool_event (fun t => (kept_modGen t L _).poolStep) s
  | byteClocked l byte => exact pool_execByteClocked l byte s
  | millisecondTick => exact pool_event pool_tick s
  | _ => exact pool_request rfl s

end

/-- Settles O16: every operation keeps the bridge records (`Kept.pool`), and `pool_exec` reads it off for each command;
the activity events, the only ones that change what a record reads of the detectors, are `pool_raiseActivity`. -/
theorem poolKept : Obligations.PoolKept := by
  intro s t hs ht
  unfold step at ht
  split at ht
  · cases ht
    exact hs
  · rename_i c rest _
    have hq : PoolStep s { s with pending := rest } := .of_eq rfl rfl
    exact (pool_exec c _).of_start hq t ht hs

end Sys2Proof.Machine

namespace Sys2Proof.Machine
open Sys2Proof

section

/-! # Bounds of the arithmetic of a frame (R29, R30, R44, R45) -/

theorem effGain_le {c : Contrib} (h : c.gain ≤ 4095) : c.effGain ≤ 4095 := (Nat.div_le_self _ _).trans h

/-- A sample has 16 bits and an effective gain is at most 4095 (R29). -/
theorem product_bounds (x : Tab Half 336) {c : Contrib} (h : c.gain ≤ 4095) :
    -134184960 ≤ product x c ∧ product x c ≤ 134180865 := by
  have hg := effGain_le h
  have hlo : -32768 ≤ (x.get c.source).toInt := BitVec.le_toInt (x.get c.source)
  have hhi : (x.get c.source).toInt ≤ 32767 := by
    have := BitVec.toInt_lt (x := x.get c.source)
    omega
  unfold product
  constructor <;> nlinarith

/-- A sum of at most `n` numbers, each between `lo` and `hi`, which lie on either side of 0. -/
theorem sum_bounds {lo hi : Int} (hlo : lo ≤ 0) (hhi : 0 ≤ hi) {n : Nat} {xs : List Int} (hn : xs.length ≤ n)
    (h : ∀ x ∈ xs, lo ≤ x ∧ x ≤ hi) : n * lo ≤ xs.sum ∧ xs.sum ≤ n * hi := by
  have hl := List.card_nsmul_le_sum xs lo fun x hx => (h x hx).1
  have hu := List.sum_le_card_nsmul xs hi fun x hx => (h x hx).2
  simp only [nsmul_eq_mul] at hl hu
  constructor <;> nlinarith

/-- A bridge sum of at most twelve entries (R30). -/
theorem bridgeSum_bounds {s : State} {b : Bridge} (h : BridgeOk s b) (x : Tab Half 336) (out : SourceId) :
    -1610219520 ≤ bridgeSum x b.contributors out ∧ bridgeSum x b.contributors out ≤ 1610170380 := by
  have hn : ((b.contributors.filter fun c => c.source ≠ out).map (product x)).length ≤ 12 := by
    rw [List.length_map]
    exact (List.length_filter_le _ _).trans h.capacity
  have hb := sum_bounds (lo := -134184960) (hi := 134180865) (by decide) (by decide) hn fun v hv => by
    obtain ⟨c, hc, rfl⟩ := List.mem_map.mp hv
    exact product_bounds x (h.ranges c (List.mem_of_mem_filter hc)).1
  simp only [bridgeSum]
  omega

theorem magnitude_le (x : Half) : magnitude x ≤ 32767 := Nat.min_le_right _ _

/-- The energy estimate moves towards the magnitude, and falls by at least 1 towards a smaller one (R45). -/
theorem nextEnergy_between (e a : Nat) :
    min a e ≤ nextEnergy e a ∧ nextEnergy e a ≤ max a e ∧ (a < e → nextEnergy e a < e) := by
  unfold nextEnergy
  omega

end

/-- Settles O51: the bounds of one product (`product_bounds`) times twelve, and the energy estimate by
`nextEnergy_between`. -/
theorem sampleBounds : Obligations.SampleBounds := by
  refine ⟨fun s b x out h => ?_, fun e x _ => ⟨magnitude_le x, nextEnergy_between e (magnitude x)⟩⟩
  obtain ⟨hlo, hhi⟩ := bridgeSum_bounds h x out
  refine ⟨⟨hlo, hhi⟩, ?_⟩
  unfold unity
  omega

end Sys2Proof.Machine

namespace Sys2Proof.Machine
open Sys2Proof

section

/-! # BRIDGE_JOIN and BRIDGE_LEAVE (R25, R26) -/

@[simp] theorem bridgeOf_idByte (b : BridgeId) : bridgeOf (idByte b) = some b := idOf_idByte b (by decide)

/-- A join that the pool accepts is a change of one bridge record (R22). -/
theorem join_accepted {b : BridgeId} {x : SourceId} {s : State} (h : joinAnswer s b x = none) (gain shift : Nat)
    (o : Origin) : ∃ f, join b x gain shift o s = s.modBridge b f := by
  unfold join
  rw [h]
  exact ⟨_, rfl⟩

theorem joinAnswer_eq_none {s : State} {b : BridgeId} {x : SourceId} (hhas : (s.bridges.get b).has x = false)
    (hroom : (s.bridges.get b).contributors.length < 12) : joinAnswer s b x = none := by
  simp [joinAnswer, hhas, Config.maxContributors, Nat.not_le.mpr hroom]

theorem isConference_of_has {s : State} {b : BridgeId} {x : SourceId} (h : (s.bridges.get b).has x = false) :
    isConference s b x = false := by
  unfold isConference
  unfold Bridge.has at h
  rw [List.any_eq_false] at h ⊢
  intro c hc
  simp [of_decide_eq_false (Bool.eq_false_iff.mpr (h c hc))]

/-- The checks of R25 pass, and the join is decided by `conferenceJoin`. -/
theorem bridgeJoin_pass {s : State} {b : BridgeId} {L M : LineId} (huse : (s.bridges.get b).use = .line L)
    (hL : (s.lines.get L).state = .connected) (hM : (s.lines.get M).state = .connected) (hne : M ≠ L)
    (ht : (s.lines.get M).ltype = .mr ∨ (s.lines.get M).ltype = .ar) (gain : Half) :
    bridgeJoin (idByte b) (idByte M) gain s = conferenceJoin b M (min gain.toNat 4095) s := by
  have htake : (s.lines.get M).ltype.takeable = true := by rcases ht with h | h <;> rw [h] <;> rfl
  simp [bridgeJoin, huse, isConnected, hL, hM, hne, htake, clampTop]

theorem conferenceJoin_joins {s : State} {b : BridgeId} {M : LineId}
    (hhas : (s.bridges.get b).has (lineSource M) = false) (hroom : (s.bridges.get b).contributors.length < 12)
    (g : Nat) : conferenceJoin b M g s = done (joinBody (join b (lineSource M) g 0 .conference s) b g)
      (join b (lineSource M) g 0 .conference s) := by
  simp [conferenceJoin, isConference_of_has hhas, joinAnswer_eq_none hhas hroom]

theorem conferenceJoin_regains {s : State} {b : BridgeId} {M : LineId}
    (h : isConference s b (lineSource M) = true) (g : Nat) : conferenceJoin b M g s =
      done (joinBody (setGainOn b (lineSource M) g s) b g) (setGainOn b (lineSource M) g s) := by
  simp [conferenceJoin, h]

theorem setGainOn_length (b : BridgeId) (x : SourceId) (g : Nat) (s : State) :
    ((setGainOn b x g s).bridges.get b).contributors.length = (s.bridges.get b).contributors.length := by
  simp [setGainOn]

theorem bridgeLeave_leaves {s : State} {b : BridgeId} {M : LineId} (h : isConference s b (lineSource M) = true) :
    bridgeLeave (idByte b) (idByte M) s = done [] (leave b (lineSource M) s) := by
  simp [bridgeLeave, leaveConference, h]

theorem bridgeLeave_absent {s : State} {b : BridgeId} {M : LineId} (h : isConference s b (lineSource M) = false) :
    bridgeLeave (idByte b) (idByte M) s = refuse .notBound s := by
  simp [bridgeLeave, h]

/-- A request on ADM that changes one bridge record: no notice, and nothing else changes. -/
theorem bridgeOnly_respond (s : State) (b : BridgeId) (f : Bridge → Bridge) (kind : Byte) (r : Response) :
    let t := respond .adm kind ((s.begin (some .adm)).modBridge b f, r)
    noNotice s t ∧ (∀ d, d ≠ b → t.bridges.get d = s.bridges.get d) ∧
      { t with bridges := s.bridges, links := s.links, origin := s.origin, released := s.released } = s :=
  ⟨noNotice.respond (x := (_, r)) (.of_links rfl) .adm kind, fun _ hd => Tab.get_modify_ne _ f hd, rfl⟩

end

/-- Settles O37: the checks of R25 and R26 pass to a join, a gain or a leave of one bridge record
(`bridgeOnly_respond`). -/
theorem conferenceTaken : Obligations.ConferenceTaken := by
  intro b L M gain s hlatch r x g rest
  have hmay (kind : ReqKind) (hk : kind.cls = .admin) : mayTake s .adm kind none :=
    ⟨.inl hlatch, by rw [hk]; rfl, rfl⟩
  have hjoin : exec (.bridgeJoin .adm (idByte b) (idByte M) gain) s = .next (respond .adm _ _) :=
    congrArg Host.Outcome.next (takeRequest_owner (n := {}) (hmay .bridgeJoin rfl) _)
  have hleave : exec (.bridgeLeave .adm (idByte b) (idByte M)) s = .next (respond .adm _ _) :=
    congrArg Host.Outcome.next (takeRequest_owner (n := {}) (hmay .bridgeLeave rfl) _)
  have hg : min g 4095 = g := Nat.min_eq_left (Nat.min_le_right _ _)
  refine ⟨fun huse hL hM hne ht => ?_, fun hconf => ?_, fun hconf => ?_⟩
  · rw [bridgeJoin_pass (s := s.begin (some .adm)) huse hL hM hne ht] at hjoin
    refine ⟨fun hhas hroom => ?_, fun hconf => ?_⟩
    · rw [conferenceJoin_joins (s := s.begin (some .adm)) hhas hroom] at hjoin
      have hcs := join_contributors (s := s.begin (some .adm)) hhas hroom g 0 .conference
      obtain ⟨f, hf⟩ := join_accepted (joinAnswer_eq_none (s := s.begin (some .adm)) hhas hroom) g 0 .conference
      rw [hf] at hjoin hcs
      rw [hg] at hcs
      refine ⟨_, hjoin, bridgeOnly_respond s b f _ _, ?_, hcs⟩
      have hlen := congrArg List.length hcs
      rw [List.length_append] at hlen
      rw [joinBody, hlen]
      exact answered_respond ..
    · rw [conferenceJoin_regains (s := s.begin (some .adm)) hconf] at hjoin
      refine ⟨_, hjoin, bridgeOnly_respond s b _ _ _, ?_, ?_⟩
      · rw [joinBody, setGainOn_length]
        exact answered_respond ..
      · refine (Tab.get_modify_self _ _ _).trans ?_
        rw [hg]
        rfl
  · rw [bridgeLeave_leaves (s := s.begin (some .adm)) hconf] at hleave
    exact ⟨_, hleave, bridgeOnly_respond s b _ _ _, answered_respond .., leave_contributors b x (s.begin (some .adm))⟩
  · rw [bridgeLeave_absent (s := s.begin (some .adm)) hconf] at hleave
    exact ⟨_, hleave, ⟨noNotice.respond (x := (_, _)) (.of_links rfl) .adm _, fun _ _ => rfl, rfl⟩, rfl, answered_respond ..⟩

end Sys2Proof.Machine

namespace Sys2Proof.Machine
open Sys2Proof

section

/-! # What a frame drives (R27 to R32, R34, R160, R193) -/

/-! ## Outputs stand once the frame is mixed -/

/-- The samples that the highways drive: of the sinks, and of the recording channels. -/
def State.driven (s : State) : Tab Half 384 × Tab (Half × Half) 64 := (s.sinkOut, s.recOut)

theorem Kept.driven {s t : State} (h : Kept s t) : t.driven = s.driven :=
  congrArg (fun f : Frame => (f.sinkOut, f.recOut)) h.frame

theorem KeptButRings.driven {s t : State} (h : KeptButRings s t) : t.driven = s.driven :=
  congrArg (fun f : Frame => (f.sinkOut, f.recOut)) h.frame

theorem inFreeOrder_driven {α : Type} {f : α → State → State} (h : ∀ x s, (f x s).driven = s.driven) (xs : List α)
    (s : State) : (s.inFreeOrder xs f).driven = s.driven := each_same State.driven h _ _

theorem raiseActivity_driven (x : SourceId) (started : Bool) (s : State) : (raiseActivity x started s).driven = s.driven := by
  refine (Kept.each (kept_hootActivity x started) _ _).driven.trans ?_
  exact (kept_recordActivity x started (s.modDet x _)).driven

theorem signallingSample_driven (heard : HwId → Bool) (bits : BitVec 192) (s : State) :
    (signallingSample heard bits s).driven = s.driven :=
  inFreeOrder_driven (fun x t => (kept_deliverRing (Prod.fst x) (Prod.snd x) t).driven) _ _

theorem posHighwayDown_driven (n : HwId) (s : State) : (posHighwayDown n s).driven = s.driven :=
  (kept_settleClash s _).driven.trans (kept_endPositions n _).driven

theorem lineHighwayDown_driven (n : HwId) (s : State) : (lineHighwayDown n s).driven = s.driven :=
  (kept_settleClash s _).driven.trans (keptButRings_endLines n _).driven

theorem lineHighwayUp_driven (n : HwId) (s : State) : (lineHighwayUp n s).driven = s.driven := by
  rw [lineHighwayUp_eq]
  exact (kept_settleClash s _).driven.trans (keptButRings_startLines n _).driven

theorem takeFrameEvent_driven (heard : HwId → Bool) (bits : BitVec 192) (e : FrameEvent) (s : State) :
    (takeFrameEvent heard bits e s).driven = s.driven := by
  unfold takeFrameEvent
  cases e with
  | activity x started => exact raiseActivity_driven x started (s.begin none)
  | sample => exact signallingSample_driven heard bits (s.begin none)
  | position n up =>
    cases up
    · exact posHighwayDown_driven n (s.begin none)
    · rfl
  | line n up =>
    cases up
    · exact lineHighwayDown_driven n (s.begin none)
    · exact lineHighwayUp_driven n (s.begin none)

/-- The state from which a pulse mixes its frame (R35, R192). -/
def pulsing (s : State) : State := { s.begin none with syncPresent := true, pulsed := true }

/-- What a pulse drives is what its frame mixes: the events that follow change no output (R35). -/
theorem framePulse_driven (f : InFrame) (s : State) :
    (framePulse f (s.begin none)).driven = (mixFrame (samples (pulsing s) f) (pulsing s)).driven :=
  inFreeOrder_driven (takeFrameEvent_driven _ _) _ _

/-! ## Inbound slots (R193) -/

/-- The sample of a source is its slot of its highway, and 0 while that is DOWN. -/
theorem samples_get (s : State) (f : InFrame) (y : SourceId) : (samples s f).get y =
    if y.val < 144 then
      if (s.posHw.get (Fin.ofNat 4 (y.val / 36))).up then
        (f.position.get (Fin.ofNat 4 (y.val / 36))).get (Fin.ofNat 64 (y.val % 36)) else 0#16
    else
      if (s.lineHw.get (Fin.ofNat 4 ((y.val - 144) / 48))).up then
        (f.line.get (Fin.ofNat 4 ((y.val - 144) / 48))).get (Fin.ofNat 64 ((y.val - 144) % 48)) else 0#16 := by
  simp only [samples, Tab.get_ofFn]
  split
  · have hn : hwOfPos ⟨y.val / 3, by omega⟩ = Fin.ofNat 4 (y.val / 36) := by
      apply Fin.ext
      simp only [hwOfPos, Fin.val_ofNat]
      omega
    have hk : (⟨3 * (y.val / 3 % 12) + y.val % 3, by omega⟩ : Fin 64) = Fin.ofNat 64 (y.val % 36) := by
      apply Fin.ext
      simp only [Fin.val_ofNat]
      omega
    simp only [posSample, State.posUp, hn, hk]
  · have hn : hwOfLine ⟨y.val - 144, by omega⟩ = Fin.ofNat 4 ((y.val - 144) / 48) := by
      apply Fin.ext
      simp only [hwOfLine, Fin.val_ofNat]
      omega
    have hk : (⟨(y.val - 144) % 48, by omega⟩ : Fin 64) = Fin.ofNat 64 ((y.val - 144) % 48) := by
      apply Fin.ext
      simp only [Fin.val_ofNat]
      omega
    simp only [lineSample, State.lineUp, hn, hk]

/-! ## Taps (R27 to R31) -/

/-- What a tap with multiplier `T` contributes: the sum of its bridge's other sources in unity units, times `T`. -/
def tapValue (s : State) (x : Tab Half 336) (out : SourceId) (T : Nat) (b : BridgeId) : Int :=
  unity (bridgeSum x (s.bridges.get b).contributors out) * (T : Int)

theorem accumulator_eq (s : State) (x : Tab Half 336) (k : SinkId) : accumulator s x k =
    ((tapsOf s k).map fun t => tapValue s x (excluded k) (effMult s k (tapsOf s k) t) t.bridge).sum := rfl

/-- The taps of an ear and of a line keep their multiplier (R31). -/
theorem effMult_of_not_speaker {k : SinkId} (h : isSpeaker k = false) (s : State) (taps : List Tap) (t : Tap) :
    effMult s k taps t = t.mult := by simp [effMult, ducked, h]

/-- A sink with one tap at most, and no loudspeaker. -/
theorem accumulator_single {k : SinkId} {s : State} {b : Option BridgeId} {T : Nat} (h : isSpeaker k = false)
    (ht : tapsOf s k = b.toList.map fun b => ⟨b, T, false⟩) (x : Tab Half 336) :
    accumulator s x k = (b.map (tapValue s x (excluded k) T)).getD 0 := by
  rw [accumulator_eq]
  simp only [effMult_of_not_speaker h]
  rw [ht]
  cases b <;> simp

theorem tapsOf_posSink (s : State) (p : PosId) (k : Fin 4) :
    tapsOf s (posSink p k) = posTaps s (s.positions.get p) k.val := by
  have hlt : (posSink p k).val < 192 := by simp only [posSink]; omega
  have hp : (⟨(posSink p k).val / 4, by omega⟩ : PosId) = p := by
    apply Fin.ext
    simp only [posSink]
    omega
  have hk : (posSink p k).val % 4 = k.val := by simp only [posSink]; omega
  simp only [tapsOf, hlt, dif_pos, hp, hk]

theorem excluded_posSink (p : PosId) (k : Fin 4) {e : Fin 3} (h : e.val = min k.val 2) :
    excluded (posSink p k) = posSource p e := by
  have hlt : (posSink p k).val < 192 := by simp only [posSink]; omega
  apply Fin.ext
  simp only [excluded, hlt, dif_pos, posSource, h]
  simp only [posSink]
  omega

theorem isSpeaker_posSink (p : PosId) (k : Fin 4) : isSpeaker (posSink p k) = decide (2 ≤ k.val) := by
  have hlt : (posSink p k).val < 192 := by simp only [posSink]; omega
  have hk : (posSink p k).val % 4 = k.val := by simp only [posSink]; omega
  simp [isSpeaker, hlt, hk]

/-- The taps of an OPEN position's sinks: two ears and two loudspeakers (R27). -/
theorem posTaps_open (s : State) {r : Position} (hr : r.isOpen = true) (k : Fin 4) : posTaps s r k.val =
    match k with
    | 0 => earTaps s r.ha r.ea
    | 1 => earTaps s r.hb r.eb
    | 2 => speakerTaps s r .l
    | 3 => speakerTaps s r .r := by
  obtain ⟨k, hk⟩ := k
  unfold posTaps
  interval_cases k <;> simp [hr]

theorem tapsOf_lineSink (s : State) (L : LineId) : tapsOf s (lineSink L) = lineTaps s L := by
  have hlt : ¬ (lineSink L).val < 192 := by simp [lineSink]
  have hL : (⟨(lineSink L).val - 192, by omega⟩ : LineId) = L := by
    apply Fin.ext
    simp [lineSink]
  simp only [tapsOf, hlt, dif_neg, not_false_eq_true, hL]

theorem excluded_lineSink (L : LineId) : excluded (lineSink L) = lineSource L := by
  have hlt : ¬ (lineSink L).val < 192 := by simp [lineSink]
  apply Fin.ext
  simp only [excluded, hlt, dif_neg, not_false_eq_true, lineSource]
  simp only [lineSink]
  omega

theorem isSpeaker_lineSink (L : LineId) : isSpeaker (lineSink L) = false := by simp [isSpeaker, lineSink]

/-! ## A loudspeaker (R27, R31) -/

theorem sum_map_filterMap {α β : Type} (g : α → Option β) (h : β → Int) (xs : List α) :
    ((xs.filterMap g).map h).sum = (xs.map fun a => ((g a).map h).getD 0).sum := by
  induction xs with
  | nil => rfl
  | cons a xs ih => cases hg : g a <;> simp [hg, ih]

/-- The bridge of the intercom tap, on the side that the feed stands on (R5). -/
def speakerFeed (r : Position) (side : Side) : Option BridgeId := if r.icmSide = side then r.feed else none

/-- A priority tap of the loudspeaker is on an active bridge (R31). -/
def isLoud (s : State) (r : Position) (side : Side) : Bool :=
  (speakerFeed r side).any (fun b => (s.bridges.get b).active) || (ids 8).any fun k =>
    (r.keys.get k).side = side && (r.keys.get k).priority &&
      (bindingBridge s (r.keys.get k).binding).any fun b => (s.bridges.get b).active

/-- What a key adds to the loudspeaker of a side, ducked where that is loud (R31). -/
def keyValue (s : State) (x : Tab Half 336) (p : PosId) (side : Side) (k : KeyId) : Int :=
  let r := s.positions.get p
  let y := r.keys.get k
  if y.side = side then
    ((bindingBridge s y.binding).map (tapValue s x (micSource p)
      (if isLoud s r side && !y.priority then y.level / 2 ^ r.duck else y.level))).getD 0
  else 0

theorem speakerTaps_loud (s : State) (r : Position) (side : Side) :
    ((speakerTaps s r side).any fun u => u.priority && (s.bridges.get u.bridge).active) = isLoud s r side := by
  rw [speakerTaps, List.any_append, Bool.or_comm, isLoud, List.any_filterMap]
  congr 1
  · unfold speakerFeed
    split
    · cases r.feed <;> simp
    · rfl
  · congr 1
    funext k
    by_cases hside : (r.keys.get k).side = side
    · cases hb : bindingBridge s (r.keys.get k).binding <;> simp [keyTap, hside, hb]
    · simp [keyTap, hside]

variable (s : State) (x : Tab Half 336) (p : PosId)

/-- A loudspeaker adds up its keys and the intercom feed, every source but the position's MIC (R27, R28, R31). -/
theorem accumulator_speaker {k : Fin 4} {side : Side} (hk : 2 ≤ k.val)
    (ht : posTaps s (s.positions.get p) k.val = speakerTaps s (s.positions.get p) side) :
    accumulator s x (posSink p k) = ((ids 8).map (keyValue s x p side)).sum +
      ((speakerFeed (s.positions.get p) side).map (tapValue s x (micSource p) (s.positions.get p).icmT)).getD 0 := by
  have hout : excluded (posSink p k) = micSource p := excluded_posSink p k (by simp; omega)
  have hduck : duckOf s (posSink p k) = (s.positions.get p).duck := by
    have hlt : (posSink p k).val < 192 := by simp only [posSink]; omega
    have hp : (⟨(posSink p k).val / 4, by omega⟩ : PosId) = p := by
      apply Fin.ext
      simp only [posSink]
      omega
    simp only [duckOf, hlt, dif_pos, hp]
  have hmult (t : Tap) : effMult s (posSink p k) (speakerTaps s (s.positions.get p) side) t =
      if isLoud s (s.positions.get p) side && !t.priority then t.mult / 2 ^ (s.positions.get p).duck else t.mult := by
    rw [effMult, ducked, speakerTaps_loud, hduck, isSpeaker_posSink]
    simp [hk, Bool.and_comm]
  rw [accumulator_eq, tapsOf_posSink, ht, hout]
  simp only [hmult]
  rw [speakerTaps, List.map_append, List.sum_append, sum_map_filterMap]
  congr 2
  · refine List.map_congr_left fun j _ => ?_
    simp only [keyTap, keyValue]
    split
    · cases bindingBridge s ((s.positions.get p).keys.get j).binding <;> rfl
    · rfl
  · unfold speakerFeed
    split
    · cases (s.positions.get p).feed <;> simp
    · rfl

/-! ## Samples driven (R32, R34, R160) -/

/-- A sink drives its accumulator in unity units, saturated (R32). -/
theorem mixFrame_sink (k : SinkId) :
    (mixFrame x s).sinkOut.get k = BitVec.ofInt 16 (sat (unity (accumulator s x k))) := by
  simp [mixFrame, mixed]

theorem mixFrame_sink_toInt (k : SinkId) :
    ((mixFrame x s).sinkOut.get k).toInt = sat (unity (accumulator s x k)) := by
  have hb : -32768 ≤ sat (unity (accumulator s x k)) ∧ sat (unity (accumulator s x k)) ≤ 32767 := by
    unfold sat
    omega
  rw [mixFrame_sink]
  generalize sat (unity (accumulator s x k)) = v at hb
  exact BitVec.toInt_ofInt_eq_self (by decide) (by simpa using hb.1) (by simp; omega)

theorem mixFrame_closed (hp : (s.positions.get p).isOpen = false) (k : Fin 4) :
    (mixFrame x s).sinkOut.get (posSink p k) = 0#16 := by
  rw [mixFrame_sink, accumulator_eq, tapsOf_posSink]
  simp [posTaps, hp, unity, sat]

theorem mixFrame_ear {k : Fin 4} {e : Fin 3} {v : Binding} {n : Nat}
    (hk : k.val < 2) (he : e.val = k.val) (ht : posTaps s (s.positions.get p) k.val = earTaps s v n) :
    ((mixFrame x s).sinkOut.get (posSink p k)).toInt =
      sat (unity (((bindingBridge s v).map (tapValue s x (posSource p e) n)).getD 0)) := by
  rw [mixFrame_sink_toInt, accumulator_single (b := bindingBridge s v) (T := n)]
  · rw [excluded_posSink p k (e := e) (by omega)]
  · rw [isSpeaker_posSink]
    simp
    omega
  · rw [tapsOf_posSink, ht, earTaps]

theorem mixFrame_speaker (hp : (s.positions.get p).isOpen = true) (side : Side) :
    ((mixFrame x s).sinkOut.get (speakerSink p side)).toInt = sat (unity (((ids 8).map (keyValue s x p side)).sum +
      ((speakerFeed (s.positions.get p) side).map (tapValue s x (micSource p) (s.positions.get p).icmT)).getD 0)) := by
  cases side with
  | l => rw [speakerSink, mixFrame_sink_toInt, accumulator_speaker s x p (by decide) (posTaps_open s hp 2)]
  | r => rw [speakerSink, mixFrame_sink_toInt, accumulator_speaker s x p (by decide) (posTaps_open s hp 3)]

/-- The bridge that a line's sink taps (R27). -/
def lineTapBridge (s : State) (L : LineId) : Option BridgeId :=
  if (s.lines.get L).ltype = .ht then (legOf s L).filter fun b => (s.bridges.get b).has (lineSource L)
  else if (s.lines.get L).state = .connected ∨ (s.lines.get L).state = .held then (s.lines.get L).bridge
  else none

theorem lineTaps_eq (L : LineId) :
    lineTaps s L = (lineTapBridge s L).toList.map fun b => ⟨b, 1024, false⟩ := by
  unfold lineTaps lineTapBridge
  dsimp only
  split
  · cases h : legOf s L with
    | none => rfl
    | some b => cases hb : (s.bridges.get b).has (lineSource L) <;> simp [Option.filter, hb]
  · simp only [Bool.or_eq_true, decide_eq_true_eq]
    split <;> rfl

theorem mixFrame_line (L : LineId) : ((mixFrame x s).sinkOut.get (lineSink L)).toInt =
    sat (unity (((lineTapBridge s L).map (tapValue s x (lineSource L) 1024)).getD 0)) := by
  rw [mixFrame_sink_toInt, accumulator_single (isSpeaker_lineSink L) (by rw [tapsOf_lineSink, lineTaps_eq]),
    excluded_lineSink]

theorem mixFrame_channel (c : ChanId) : (mixFrame x s).recOut.get c =
    channelSamples s x (mixFrame x s).sinkOut (s.channels.get c) := by simp [mixFrame]

end

/-- Settles O50: the outputs of a pulse are those of its mix (`framePulse_driven`), an ear and a line have one tap
(`mixFrame_ear`, `mixFrame_line`), and a loudspeaker adds up its keys and the feed (`accumulator_speaker`). -/
theorem mixTaken : Obligations.MixTaken := by
  intro f s inp tap at0 drive on
  have hinp : inp = fun y => ((samples (pulsing s) f).get y).toInt :=
    funext fun y => congrArg BitVec.toInt (samples_get (pulsing s) f y).symm
  have htap : tap = tapValue (pulsing s) (samples (pulsing s) f) := by
    funext out T b
    simp only [tap, hinp]
    rfl
  have hon : on = bindingBridge (pulsing s) := by
    funext v
    cases v <;> rfl
  clear_value on tap inp
  subst hon htap hinp
  obtain ⟨hsink, hrec⟩ := Prod.mk.inj (framePulse_driven f s)
  refine ⟨_, rfl, ?_⟩
  rw [hsink, hrec]
  generalize hx : samples (pulsing s) f = x
  refine ⟨fun p => ⟨fun hp k => mixFrame_closed (pulsing s) x p hp k, fun hp => ?_⟩, fun L => ?_, fun c => ?_⟩
  · have hopen : ((pulsing s).positions.get p).isOpen = true := hp
    refine ⟨mixFrame_ear (pulsing s) x p (by decide) rfl (posTaps_open (pulsing s) hopen 0),
      mixFrame_ear (pulsing s) x p (by decide) rfl (posTaps_open (pulsing s) hopen 1), fun side => ?_⟩
    exact mixFrame_speaker (pulsing s) x p hopen side
  · exact mixFrame_line (pulsing s) x L
  · simp only [BitVec.ofInt_toInt]
    refine (mixFrame_channel (pulsing s) x c).trans ?_
    have hc : (pulsing s).channels.get c = s.channels.get c := rfl
    rw [hc]
    cases s.channels.get c with
    | none => rfl
    | some y =>
      obtain ⟨p, e, k, b, n⟩ := y
      cases e with
      | key j =>
        have ht : (talksOn (pulsing s) p j = true) = ((s.positions.get p).mic = .talk j) := decide_eq_true_eq
        simp only [channelSamples, ht]
        rfl
      | _ => rfl

end Sys2Proof.Machine

namespace Sys2Proof.Machine
open Sys2Proof

section

/-! # The expiry of a bridge's idle timer (R40, R81, R137) -/

/-- The idle timer of a bridge stopped, as its expiry leaves it (R40). -/
def stopIdle (b : BridgeId) (s : State) : State := s.modBridge b fun r => { r with idle := none }

theorem stopIdle_bridges (b : BridgeId) (s : State) :
    (stopIdle b s).bridges = s.bridges.set b { s.bridges.get b with idle := none } := rfl

theorem stopIdle_use (b : BridgeId) (s : State) : ((stopIdle b s).bridges.get b).use = (s.bridges.get b).use := by
  rw [stopIdle_bridges, Tab.get_set_self]

theorem idleExpires_stopped {b : BridgeId} {s : State} (h : (s.bridges.get b).idle = none) : idleExpires b s = s := by
  simp [idleExpires, h]

theorem idleExpires_running {b : BridgeId} {s : State} (h : (s.bridges.get b).idle ≠ none) :
    idleExpires b s = deliverIdle b (stopIdle b s) := if_pos (Option.isSome_iff_ne_none.mpr h)

/-! ## The owner of the bridge -/

theorem deliverIdle_unowned {b : BridgeId} {s : State} (h : (s.bridges.get b).use = .icm ∨ (s.bridges.get b).use = .free) :
    deliverIdle b s = s := by
  unfold deliverIdle
  rcases h with h | h <;> rw [h]

theorem deliverIdle_hoot {b : BridgeId} {s : State} (h : (s.bridges.get b).use = .hoot) :
    deliverIdle b s = hootQuiet b s := by
  unfold deliverIdle
  rw [h]

theorem deliverIdle_line {b : BridgeId} {s : State} {L : LineId} (h : (s.bridges.get b).use = .line L) :
    deliverIdle b s = teardownLine L .idleRelease s := by
  unfold deliverIdle
  rw [h]

/-! ## A hoot -/

/-- A LIVE hoot falls QUIET and its listeners are told; a QUIET one stays as it is (R137). -/
theorem hootQuiet_eq {b : BridgeId} {s : State} {h : Hoot} (hh : s.hoots.get b = some h) :
    hootQuiet b s = if h.live then postListeners b (.hootState b false) (s.setHoot b (some { h with live := false }))
      else s := by
  unfold hootQuiet
  simp only [hh]
  rw [modHoot_eq_setHoot hh]

theorem hootQuiet_hoots {b : BridgeId} {s : State} {h : Hoot} (hh : s.hoots.get b = some h) :
    (hootQuiet b s).hoots = s.hoots.set b (some { h with live := false }) := by
  rw [hootQuiet_eq hh]
  cases hl : h.live
  · rw [if_neg Bool.false_ne_true, ← hl, ← hh, Tab.set_get_self]
  · rfl

/-- Nothing but the hoot's record and the links changes. -/
theorem hootQuiet_only {b : BridgeId} {s : State} {h : Hoot} (hh : s.hoots.get b = some h) :
    { hootQuiet b s with hoots := s.hoots, links := s.links } = s := by
  rw [hootQuiet_eq hh]
  split <;> rfl

theorem hootQuiet_bridges {b : BridgeId} {s : State} {h : Hoot} (hh : s.hoots.get b = some h) :
    (hootQuiet b s).bridges = s.bridges := (congrArg State.bridges (hootQuiet_only hh) :)

/-- HOOT_STATE goes to the listeners of a hoot that was LIVE (R137). -/
theorem hootQuiet_notices {b : BridgeId} {s u : State} {h : Hoot} (hh : s.hoots.get b = some h) (hu : ToldAlike u s)
    (hp : s.positions = u.positions) :
    noNotice (if h.live then postListeners b (.hootState b false) u else u) (hootQuiet b s) := by
  rw [hootQuiet_eq hh]
  split
  · have hd : listenerRoute (s.setHoot b (some { h with live := false })) b = listenerRoute u b := by
      unfold listenerRoute
      rw [State.setHoot, hp]
    exact ((hu.quiet rfl rfl rfl).post hd _).notices
  · exact hu.notices

/-! ## A line -/

/-- The idle timer of the line's own bridge is none of what a release leaves unchanged. -/
theorem callEnding_stopIdle {s : State} {o : Option LinkId} {L : LineId} {b : BridgeId}
    (hb : (s.lines.get L).bridge = some b) : CallEnding s o L [] [] (stopIdle b (s.begin o)) :=
  { callEnding_begin s o L with
    bridges := fun _ hd => Tab.get_modify_ne _ _ fun hdb => hd (hdb ▸ hb) }

theorem toldAlike_stopIdle (b : BridgeId) (s : State) (o : Option LinkId) : ToldAlike s (stopIdle b (s.begin o)) :=
  (toldAlike_begin s o).quiet rfl rfl rfl

theorem holdEnded_connected {s : State} {L : LineId} (h : (s.lines.get L).state = .connected) (c : Cause) :
    holdEnded s L c = s := by
  unfold holdEnded
  split
  · exact if_neg (by simp [h])
  · rfl

theorem holdEnded_held {s : State} {L : LineId} {p : PosId} (h : (s.lines.get L).state = .held)
    (hp : (s.lines.get L).holdOwner = some p) (c : Cause) : holdEnded s L c = submit (holdEndRecord L p c) s := by
  unfold holdEnded
  rw [hp]
  exact if_pos h

theorem teardownLine_connected {s : State} {L : LineId} (h : (s.lines.get L).state = .connected) (c : Cause) :
    teardownLine L c s = releaseLine [] L c c (s.each (s.lines.get L).holders fun x => endHolder L x c false) := by
  unfold teardownLine
  rw [h]
  rfl

theorem teardownLine_held {s : State} {L : LineId} {p : PosId} {c : Cause} (h : (s.lines.get L).state = .held)
    (hp : (s.lines.get L).holdOwner = some p) (hc : c ≠ .permission) :
    teardownLine L c s = releaseLine [] L c c (submit (holdEndRecord L p c) s) := by
  unfold teardownLine releaseHold
  simp only [h, hp, if_neg hc]

/-- A teardown that starts once the first steps of an event have touched nothing of the call but its own bridge
releases the line as `Released` says (R67, R72). -/
theorem released_teardownLine {s u : State} {o : Option LinkId} {L : LineId} {c : Cause} (hs : OnCall s L)
    (hc : c ≠ .none) (hperm : c ≠ .permission) (h : CallEnding s o L [] [] u) (hk : Kept (s.begin o) u)
    (hu : ToldAlike s u) : Released s (teardownLine L c u) o L c c := by
  have hline : u.lines.get L = s.lines.get L := by simp [h.lines]
  rcases hs.state with hconn | ⟨hheld, hnone, howner⟩
  · rw [teardownLine_connected (by rw [hline, hconn]), hline]
    obtain ⟨he, hue⟩ := CallEnding.holders hs.once.1 hs.holders c (s.lines.get L).holders [] s u rfl h hu
    refine released_of_callEnding hs hc he (hk.trans (Kept.each (fun x t => kept_endHolder L x c false t) _ _)) ?_
    rwa [holdEnded_connected hconn]
  · obtain ⟨p, hp⟩ := Option.isSome_iff_exists.mp howner
    rw [teardownLine_held (by rw [hline, hheld]) (by rw [hline, hp]) hperm]
    refine released_of_callEnding hs hc ?_ (hk.trans (kept_submit _ u)) ?_
    · rw [hnone]
      exact h.submit _
    · rw [hnone, holdEnded_held hheld hp]
      exact hu.submit _

/-- The idle timer of a call's bridge releases the line (R81). -/
theorem released_idleExpires {s : State} {o : Option LinkId} {L : LineId} {b : BridgeId} (hs : OnCall s L)
    (hb : (s.lines.get L).bridge = some b) :
    Released s (teardownLine L .idleRelease (stopIdle b (s.begin o))) o L .idleRelease .idleRelease :=
  released_teardownLine hs (by simp) (by simp) (callEnding_stopIdle hb) (kept_stopIdle b _) (toldAlike_stopIdle b s o)


/-! # The expiry of a talk-idle timer (R130, R134) -/

theorem talkExpires_stopped {b : BridgeId} {p : PosId} {s : State}
    (h : ∀ x g, s.hoots.get b = some x → x.talker p = some g → g.timer = none) : talkExpires b p s = s := by
  refine if_neg ?_
  unfold talkTimerOf
  split
  · rename_i x hx
    cases hg : x.talker p with
    | none => simp
    | some g => simp [h x g hx hg]
  · simp

/-- An empty queue has no head to promote (R131). -/
theorem promote_empty {b : BridgeId} {s : State} {h : Hoot} (hh : s.hoots.get b = some h) (hq : h.queue = []) :
    promote b s = s := by
  unfold promote
  simp [hh, hq]

/-- A hoot outside a clash, and with no condition for one, stays so (R135). -/
theorem evalClash_calm {b : BridgeId} {s : State} {h : Hoot} (hh : s.hoots.get b = some h) (hc : h.clashing = false)
    (hn : clashCondition s h = false) : evalClash b s = s := by
  unfold evalClash
  simp [hh, hc, hn]

theorem clashCondition_congr {s t : State} (hd : t.detectors = s.detectors) (h : Hoot) :
    clashCondition t h = clashCondition s h := by
  unfold clashCondition State.active
  rw [hd]

/-- A talker that leaves brings about no clash. -/
theorem clashCondition_filter {s : State} {h : Hoot} (q : Talker → Bool) (hn : clashCondition s h = false) :
    clashCondition s { h with granted := h.granted.filter q } = false := by
  simp only [clashCondition, Bool.and_eq_false_iff, List.any_eq_false] at hn ⊢
  exact hn.imp_right fun hg x hx => hg x (List.mem_of_mem_filter hx)

/-! ## The steps of the end, with no queue and no clash -/

/-- The hoot's record once the talker has left it (R130 step 1). -/
def Hoot.without (h : Hoot) (p : PosId) : Hoot := { h with granted := h.granted.filter fun y => y.pos ≠ p }

/-- The grant, the source and the binding of the talker gone, and its channel (R130 steps 1 to 4). -/
def talkerGone (b : BridgeId) (p : PosId) (h : Hoot) (s : State) : State :=
  s.setHoot b (some (h.without p)) |> leave b (micSource p) |> unbind p .mic .talkIdle |> releaseChan p .mic

/-- The TALK_END record of an expiry (R130 step 5). -/
def talkIdleRecord (s : State) (b : BridgeId) (p : PosId) (h : Hoot) (g : Talker) : Record :=
  { kind := .talkEnd, hoot := some b, pos := some p, endpoint := some .mic, key := some g.key,
    channel := channelAt s p .mic, cause := some .talkIdle, parties := some (h.without p).parties }

/-- What is left once the grant has ended: the record is written and the talker told (R130 steps 1 to 6). -/
def talkIdled (b : BridgeId) (p : PosId) (h : Hoot) (g : Talker) (s : State) : State :=
  submit (talkIdleRecord s b p h g) (talkerGone b p h s)
    |> postPos p (.talkState (some b) g.key .none h.clashing .talkIdle)

theorem setHoot_frame (b : BridgeId) (v : Option Hoot) (s : State) : (s.setHoot b v).frame = s.frame := rfl

section
variable {b : BridgeId} {p : PosId} {h : Hoot} {g : Talker} {s : State}

@[simp] theorem talkIdled_hoots : (talkIdled b p h g s).hoots = s.hoots.set b (some (h.without p)) := by
  simp [talkIdled, talkerGone]

@[simp] theorem talkIdled_lines : (talkIdled b p h g s).lines = s.lines := by simp [talkIdled, talkerGone]

@[simp] theorem talkIdled_calls : (talkIdled b p h g s).calls = s.calls := by simp [talkIdled, talkerGone]

theorem talkIdled_detectors : (talkIdled b p h g s).detectors = s.detectors := by
  have e : (talkIdled b p h g s).frame = s.frame := by simp [talkIdled, talkerGone, setHoot_frame]
  exact congrArg Frame.detectors e

/-- The MIC that talked is unbound. -/
theorem talkIdled_positions (hm : (s.positions.get p).mic ≠ .none) :
    (talkIdled b p h g s).positions = s.positions.modify p fun r => { r with mic := .none } := by
  have hb : (s.setHoot b (some (h.without p)) |> leave b (micSource p)).binding p .mic ≠ .none := hm
  refine Tab.ext_get fun q => ?_
  simp only [talkIdled, talkerGone, postPos_eq, post_positions, submit_positions, releaseChan_positions, unbind_get,
    leave_positions, setHoot_positions, Tab.get_modify]
  exact if_congr (and_iff_left hb) rfl rfl

/-- Its channel is FREE (R161). -/
theorem talkIdled_channels : (talkIdled b p h g s).channels =
    match channelAt s p .mic with | some d => s.channels.set d none | none => s.channels := by
  simp only [talkIdled, postPos_eq, post_channels, submit_channels, talkerGone, releaseChan]
  rw [channelAt_of_channels (s := s) (by simp)]
  cases channelAt s p .mic <;> simp

/-- Its source has left the bridge. -/
theorem talkIdled_contributors : ((talkIdled b p h g s).bridges.get b).contributors =
    (s.bridges.get b).contributors.filter fun y => y.source ≠ micSource p := by
  simp only [talkIdled, postPos_eq, post_bridges, submit_bridges, talkerGone, releaseChan_bridges, unbind_bridges,
    leave_contributors, setHoot_bridges]

/-- BINDING_LOST, the TALK_END record and TALK_STATE, in this order. -/
theorem talkIdled_told {s₀ : State} {o : Option LinkId} (hs : ToldAlike s₀ s) (hf : s.frame = (s₀.begin o).frame)
    (hm : (s.positions.get p).mic = .talk g.key) :
    ToldAlike (submit (talkIdleRecord s b p h g)
      (post (posRoute (s₀.begin o) [p]) (.bindingLost p .mic (.talk g.key) .talkIdle) s₀))
      (submit (talkIdleRecord s b p h g) (talkerGone b p h s)) := by
  have hleft : ToldAlike s₀ (s.setHoot b (some (h.without p)) |> leave b (micSource p)) := hs.quiet rfl rfl rfl
  have hunbound := hleft.unbind (p := p) (e := .mic) hf hm (by simp) .talkIdle
  rw [if_neg (by simp)] at hunbound
  exact (hunbound.quiet (by simp [talkerGone]) (by simp [talkerGone]) (by simp [talkerGone])).submit _

theorem talkIdled_notices {s₀ : State} {o : Option LinkId} (hs : ToldAlike s₀ s) (hf : s.frame = (s₀.begin o).frame)
    (hm : (s.positions.get p).mic = .talk g.key) :
    noNotice (post (posRoute (s₀.begin o) [p]) (.talkState (some b) g.key .none h.clashing .talkIdle)
      (submit (talkIdleRecord s b p h g)
        (post (posRoute (s₀.begin o) [p]) (.bindingLost p .mic (.talk g.key) .talkIdle) s₀))) (talkIdled b p h g s) := by
  have hroute : posRoute (submit (talkIdleRecord s b p h g) (talkerGone b p h s)) [p] = posRoute (s₀.begin o) [p] :=
    posRoute_of_frame (by simpa [talkerGone, setHoot_frame] using hf) [p]
  exact ((talkIdled_told hs hf hm).post hroute _).notices

/-- With an empty queue and no clash, the expiry is the end of the grant alone. -/
theorem talkExpires_running (hh : s.hoots.get b = some h) (hg : h.talker p = some g) (hr : g.timer ≠ none)
    (hq : h.queue = []) (hc : h.clashing = false) (hn : clashCondition s h = false) :
    talkExpires b p s = talkIdled b p h g s := by
  have htimer : talkTimerOf s b p = g.timer := by simp [talkTimerOf, hh, hg]
  have hget : (talkIdled b p h g s).hoots.get b = some (h.without p) := by rw [talkIdled_hoots, Tab.get_set_self]
  have hstop : stopGrant b p .talkIdle s = talkIdled b p h g s := by
    have e : stopGrant b p .talkIdle s = promote b (talkIdled b p h g s) := by
      unfold stopGrant
      simp only [hh, hg]
      rfl
    rw [e, promote_empty hget hq]
  unfold talkExpires endGrant
  simp only [htimer, hh, hg, Option.isSome_some, if_true, if_pos (Option.isSome_iff_ne_none.mpr hr), hstop]
  refine evalClash_calm hget hc ?_
  rw [clashCondition_congr talkIdled_detectors]
  exact clashCondition_filter _ hn

end


/-! # The expiry of a call's alert timer (R113, R114) -/

theorem callExpires_stopped {c : BridgeId} {s : State} (h : ∀ r, s.calls.get c = some r → r.alert = none) :
    callExpires c s = s := by
  unfold callExpires
  split
  · rename_i r hr
    exact if_pos (by simp [h r hr])
  · rfl

theorem callExpires_active {c : BridgeId} {s : State} {r : Call} (hr : s.calls.get c = some r) (hal : r.alert ≠ none)
    (hact : r.active = true) : callExpires c s = postIcmState r.caller.1 .expired
      (withdrawAll c .expired (s.modCall c fun r => { r with alert := none })) := by
  simp [callExpires, hr, hal, hact]

theorem callExpires_presenting {c : BridgeId} {s : State} {r : Call} (hr : s.calls.get c = some r) (hal : r.alert ≠ none)
    (hact : r.active = false) : callExpires c s = endCall c { cause := .expired } s := by
  simp [callExpires, hr, hal, hact]

theorem icmFrame_callExpires (c : BridgeId) (s : State) : IcmFrame s (callExpires c s) := by
  unfold callExpires
  split
  · refine (IcmFrame.refl s).ite ((icmFrame_endCall c _ s).ite ?_)
    exact ((icmFrame_modCall c _ s).trans (icmFrame_withdrawAll ..)).trans (icmFrame_postIcmState ..)
  · exact IcmFrame.refl s

/-! ## What an ACTIVE call still presents is withdrawn -/

/-- Call `c` goes on as `r` has it, with its alert timer stopped, and presents to no position but those of `left`. -/
def GoesOn (c : BridgeId) (r : Call) (left : List PosId) (t : State) : Prop :=
  ∃ r', t.calls.get c = some r' ∧ r'.alert = none ∧ r'.parties = r.parties ∧ r'.caller = r.caller ∧
    r'.active = r.active ∧ ∀ x ∈ r'.presented, x.pos ∈ left

section
variable {c : BridgeId} {r : Call} {left : List PosId} {s t : State}

theorem GoesOn.of_calls (h : GoesOn c r left s) (ht : t.calls = s.calls) : GoesOn c r left t := by
  unfold GoesOn
  rwa [ht]

/-- A change of what a call presents leaves the call going on. -/
theorem GoesOn.modCall {left' : List PosId} (h : GoesOn c r left s) {f : Call → Call}
    (ha : ∀ x, x.alert = none → (f x).alert = none) (hp : ∀ x, (f x).parties = x.parties)
    (hc : ∀ x, (f x).caller = x.caller) (hact : ∀ x, (f x).active = x.active)
    (hpres : ∀ x, (∀ y ∈ x.presented, y.pos ∈ left) → ∀ y ∈ (f x).presented, y.pos ∈ left') :
    GoesOn c r left' (s.modCall c f) := by
  obtain ⟨x, hx, hxa, hxp, hxc, hxact, hxpres⟩ := h
  exact ⟨f x, by simp [hx], ha x hxa, (hp x).trans hxp, (hc x).trans hxc, (hact x).trans hxact, hpres x hxpres⟩

theorem GoesOn.unpresent {q : PosId} (h : GoesOn c r (q :: left) s) : GoesOn c r left (unpresent c q s) := by
  refine h.modCall (fun x hx => ?_) (fun _ => rfl) (fun _ => rfl) (fun _ => rfl) fun x hx y hy => ?_
  · simp [hx]
  · obtain ⟨hmem, hne⟩ := List.mem_filter.mp hy
    exact (List.mem_cons.mp (hx y hmem)).resolve_left (of_decide_eq_true hne)

theorem present_calls (d : BridgeId) (x : Call) (voice : Bool) (q : PosId) (s : State) :
    (present d x voice q s).calls = s.calls := by
  unfold present
  split <;> rfl

/-- A waiting call that becomes current is presented to the same positions. -/
theorem GoesOn.promoteWaiting (h : GoesOn c r left s) (p : PosId) : GoesOn c r left (promoteWaiting p s) := by
  unfold Machine.promoteWaiting
  split
  · rename_i d _
    split
    · split
      · exact h
      · refine GoesOn.of_calls ?_ (present_calls ..)
        have h' : GoesOn c r left (setWaiting p none s) := h.of_calls rfl
        by_cases hd : c = d
        · subst hd
          refine h'.modCall (fun _ h => h) (fun _ => rfl) (fun _ => rfl) (fun _ => rfl) fun x hx y hy => ?_
          obtain ⟨z, hz, rfl⟩ := List.mem_map.mp hy
          have hpos := hx z hz
          split <;> exact hpos
        · obtain ⟨x, hx, hrest⟩ := h'
          exact ⟨x, by rwa [modCall_calls, Tab.get_modify_ne _ _ hd], hrest⟩
    · exact h.of_calls rfl
  · exact h

theorem GoesOn.returnIdle (h : GoesOn c r left s) (p : PosId) (d : Cause) : GoesOn c r left (returnIdle p d s) :=
  (h.of_calls (t := postIcmState p d (setFeed p none (setIcm p .idle s))) rfl).promoteWaiting p

theorem GoesOn.withdraw {x : Presented} (h : GoesOn c r (x.pos :: left) s) (d : Cause) :
    GoesOn c r left (withdraw c x d s) := by
  unfold Machine.withdraw
  split
  · exact h.unpresent.of_calls rfl
  · exact h.unpresent.returnIdle x.pos d

theorem GoesOn.withdrawEach (d : Cause) : ∀ (xs : List Presented) {s : State}, GoesOn c r (xs.map (·.pos)) s →
    GoesOn c r [] (s.each xs fun x => Machine.withdraw c x d)
  | [], _, h => h
  | x :: xs, _, h => by
    rw [each_cons]
    exact GoesOn.withdrawEach d xs (GoesOn.withdraw h d)

/-- Nothing is left of what the call presents (R114). -/
theorem goesOn_callExpires (hr : s.calls.get c = some r) (hal : r.alert ≠ none) (hact : r.active = true) :
    GoesOn c r [] (callExpires c s) := by
  rw [callExpires_active hr hal hact]
  refine GoesOn.of_calls ?_ rfl
  have hget : (s.modCall c fun r => { r with alert := none }).calls.get c = some { r with alert := none } := by simp [hr]
  unfold withdrawAll
  simp only [hget]
  exact GoesOn.withdrawEach .expired r.presented
    ⟨_, hget, rfl, rfl, rfl, rfl, fun x hx => List.mem_map_of_mem (f := Presented.pos) hx⟩

end

/-! ## A PRESENTING call ends whole -/

/-- The presentations of an ending call withdrawn, and its parties unbound (R113 steps 1 to 3). -/
def partiesOut (c : BridgeId) (d : Ending) (r : Call) (s : State) : State :=
  (withdrawAll c d.cause (s.modCall c fun r => { r with alert := none })).each r.parties (endParty c d)

/-- The channels of an ended call released, its record written and NO_ANSWER sent (R113 steps 4 to 6). -/
def callClosed (c : BridgeId) (d : Ending) (r : Call) (s : State) : State :=
  let t := submit { kind := .icmEnd, bridge := some c, pos := some r.caller.1, endpoint := some r.caller.2,
                    cause := some d.cause, parties := some r.parties }
    (s.each r.parties fun x => releaseUnless (d.keep = some x.1) x.1 x.2)
  if noAnswerDue d r.active then postPos r.caller.1 (.noAnswer c d.cause) t else t

section
variable {c : BridgeId} {d : Ending} {r : Call} {s : State}

theorem endCall_eq (hr : s.calls.get c = some r) :
    endCall c d s = (dropBridge c (callClosed c d r (partiesOut c d r s))).setCall c none := by
  unfold endCall
  simp only [hr]
  rfl

theorem endCall_gone (hr : s.calls.get c = some r) :
    (endCall c d s).calls.get c = none ∧ (endCall c d s).bridges.get c = Bridge.reset := by
  rw [endCall_eq hr]
  exact ⟨by simp, by simp [dropBridge]⟩

theorem icmFrame_callClosed (c : BridgeId) (d : Ending) (r : Call) (s : State) : IcmFrame s (callClosed c d r s) := by
  have hchans := IcmFrame.each (fun (x : PosId × Endpoint) t => icmFrame_releaseUnless (d.keep = some x.1) x.1 x.2 t)
    r.parties s
  have hrecord (v : Record) := hchans.trans (icmFrame_submit v _)
  exact ((hrecord _).trans (icmFrame_post _ _ _)).ite (hrecord _)

/-- A binding that is gone does not come back. -/
theorem IcmFrame.unbound {s t : State} (h : IcmFrame s t) {p : PosId} {e : Endpoint} (hs : s.binding p e = .none) :
    t.binding p e = .none := by
  rcases h.bindings p e with hb | hb
  · rw [hb, hs]
  · exact hb

theorem endParty_unbound (c : BridgeId) (d : Ending) (x : PosId × Endpoint) (s : State) :
    (endParty c d x s).binding x.1 x.2 = .none :=
  (icmFrame_returnIdle x.1 d.cause _).unbound (unbind_self x.1 x.2 _ _)

/-- Every party of an ended call is unbound (R113 step 3). -/
theorem endCall_unbound (hr : s.calls.get c = some r) {x : PosId × Endpoint} (hx : x ∈ r.parties) :
    (endCall c d s).binding x.1 x.2 = .none := by
  have hout : (partiesOut c d r s).binding x.1 x.2 = .none :=
    each_establishes (I := fun _ => True) (P := fun (y : PosId × Endpoint) t => t.binding y.1 y.2 = .none)
      (icmFrame_endParty c d) (fun _ _ _ => id) (fun y t _ => endParty_unbound c d y t) (fun _ _ _ h => h.unbound)
      r.parties _ trivial x hx
  have hclosed := (icmFrame_callClosed c d r _).unbound hout
  rw [endCall_eq hr]
  exact (IcmFrame.of_eq rfl rfl rfl rfl rfl : IcmFrame (callClosed c d r (partiesOut c d r s)) _).unbound hclosed

end


/-! # The three expiries as commands -/

theorem Kept.onlyCalls_begin {s t : State} {o : Option LinkId} (h : Kept (s.begin o) t) : onlyCalls s t :=
  onlyCalls_of (frame_of_begin h.frame) h.posSet h.lineSet

/-- A LIVE hoot whose bridge has been idle falls QUIET, and nothing else changes (R137). -/
theorem bridgeIdle_hoot {s : State} {b : BridgeId} {h : Hoot} (hrun : (s.bridges.get b).idle ≠ none)
    (huse : (s.bridges.get b).use = .hoot) (hh : s.hoots.get b = some h) :
    let t := idleExpires b (s.begin none)
    t.bridges = s.bridges.set b { s.bridges.get b with idle := none } ∧
      t.hoots = s.hoots.set b (some { h with live := false }) ∧
      noNotice (if h.live then postListeners b (.hootState b false) s else s) t ∧
      { t with bridges := s.bridges, hoots := s.hoots, links := s.links, origin := s.origin,
               released := s.released } = s := by
  dsimp only
  have huse' : ((stopIdle b (s.begin none)).bridges.get b).use = .hoot := (stopIdle_use b _).trans huse
  have hh' : (stopIdle b (s.begin none)).hoots.get b = some h := hh
  rw [idleExpires_running (s := s.begin none) hrun, deliverIdle_hoot huse']
  refine ⟨hootQuiet_bridges hh', hootQuiet_hoots hh', hootQuiet_notices hh' (toldAlike_stopIdle b s none) rfl, ?_⟩
  have honly := hootQuiet_only hh'
  generalize hootQuiet b (stopIdle b (s.begin none)) = t at honly ⊢
  exact (congrArg (fun t : State => { t with bridges := s.bridges, origin := s.origin, released := s.released }) honly :)

/-- The alert timer of a PRESENTING call ends it whole; that of an ACTIVE one leaves it without presentations
(R114). -/
theorem icmAlertExpiry_call {s : State} {c : BridgeId} {r : Call} (hr : s.calls.get c = some r) (hal : r.alert ≠ none) :
    let t := callExpires c (s.begin none)
    if r.active then ∃ r', t.calls.get c = some r' ∧ r'.presented = [] ∧ r'.alert = none ∧ r'.parties = r.parties ∧
      r'.caller = r.caller ∧ r'.active = true
    else t.calls.get c = none ∧ t.bridges.get c = Bridge.reset ∧ ∀ x ∈ r.parties, t.binding x.1 x.2 = .none := by
  dsimp only
  have hr' : (s.begin none).calls.get c = some r := hr
  split
  · rename_i hact
    obtain ⟨r', hr'', halert, hparties, hcaller, hactive, hpres⟩ := goesOn_callExpires hr' hal hact
    exact ⟨r', hr'', List.eq_nil_iff_forall_not_mem.mpr fun x hx => List.not_mem_nil (hpres x hx), halert, hparties,
      hcaller, hactive.trans hact⟩
  · rename_i hact
    rw [callExpires_presenting hr' hal (Bool.eq_false_iff.mpr hact)]
    obtain ⟨hgone, hfree⟩ := endCall_gone (d := { cause := .expired }) hr'
    exact ⟨hgone, hfree, fun x hx => endCall_unbound hr' hx⟩

end

/-- Settles O59: the owner of the bridge decides what its idle timer does; the ends of a line's call, of a grant and of
an intercom call are those of R67, R130 and R113. -/
theorem otherTimersExpire : Obligations.OtherTimersExpire := by
  unfold Obligations.OtherTimersExpire
  intro s
  dsimp only
  refine ⟨fun b r hr => ⟨_, rfl, fun hidle => ?_, fun hrun => ⟨fun huse => ?_, fun h huse hh => ?_,
    fun L huse hb hcall => ?_⟩⟩, fun b p => ⟨_, rfl, fun hstop => ?_, ?_⟩, fun c => ⟨_, rfl, fun hstop => ?_, ?_⟩⟩
  · subst hr
    rw [idleExpires_stopped (s := s.begin none) hidle]
    rfl
  · subst hr
    have he := (idleExpires_running (s := s.begin none) hrun).trans
      (deliverIdle_unowned (by rwa [stopIdle_use]))
    rw [he]
    exact ⟨rfl, rfl⟩
  · subst hr
    exact bridgeIdle_hoot hrun huse hh
  · subst hr
    have he := (idleExpires_running (s := s.begin none) hrun).trans (deliverIdle_line ((stopIdle_use b _).trans huse))
    rw [he]
    exact released_idleExpires hcall.onCall hb
  · rw [talkExpires_stopped (s := s.begin none) hstop]
    rfl
  · intro h g hh hg hrun hmic hqueue hclash hcond
    have hmic' : (s.positions.get p).mic ≠ .none := by simp [hmic]
    have hkept := (kept_talkExpires b p (s.begin none)).onlyCalls_begin
    rw [talkExpires_running (s := s.begin none) hh hg hrun hqueue hclash hcond] at hkept ⊢
    have htold := talkIdled_told (b := b) (h := h) (toldAlike_begin s none) rfl hmic
    have hnotices := talkIdled_notices (b := b) (h := h) (toldAlike_begin s none) rfl hmic
    rw [hclash] at hnotices
    exact ⟨talkIdled_hoots, talkIdled_positions hmic', htold.log, talkIdled_channels, talkIdled_contributors, hnotices,
      hkept, talkIdled_lines, talkIdled_calls⟩
  · rw [callExpires_stopped (s := s.begin none) hstop]
    rfl
  · intro r hr hal
    have hframe := icmFrame_callExpires c (s.begin none)
    exact ⟨(kept_callExpires c (s.begin none)).onlyCalls_begin, hframe.lines, hframe.hoots, icmAlertExpiry_call hr hal⟩

end Sys2Proof.Machine

namespace Sys2Proof.Machine
open Sys2Proof

section

/-! # VAD_SET (R49) -/

theorem vadSet_line (f : VadFields) (s : State) :
    vadSet 0#8 f s = done (vadBody 0#8 (storeVad f s.vadLine)) { s with vadLine := storeVad f s.vadLine } := rfl

theorem vadSet_position (f : VadFields) (s : State) :
    vadSet 1#8 f s = done (vadBody 1#8 (storeVad f s.vadPos)) { s with vadPos := storeVad f s.vadPos } := rfl

/-- A byte that names neither class is refused (R49). -/
theorem vadSet_range {cls : Byte} (h : 2 ≤ cls.toNat) (f : VadFields) (s : State) :
    vadSet cls f s = refuse .range s := by
  unfold vadSet
  split
  · omega
  · omega
  · rfl

/-- The latch and the PERMISSION record of a violation leave the detectors' parameters (R149). -/
theorem violate_vad (l : LinkId) (kind : ReqKind) (r : Result) (n : Named) (s : State) :
    (violate l kind r n s).vadLine = s.vadLine ∧ (violate l kind r n s).vadPos = s.vadPos := by
  unfold violate
  rw [submit_eq]
  split <;> exact ⟨rfl, rfl⟩

/-- A request of a class that its link may not send is a violation (R147, R181). -/
theorem takeRequest_wrongLink {s : State} {l : LinkId} {kind : ReqKind} (hlatch : s.latch l = none)
    (hclass : maySend l kind.cls = false) (n : Named) (owner : State → State × Response) :
    takeRequest l kind true n owner s =
      respond l (BitVec.ofNat 8 kind.code) (violate l kind .wrongLink n (s.begin (some l)), .bare .wrongLink) := by
  simp [takeRequest, decideRequest, hlatch, hclass]

end

/-- Settles O26: by the class byte LINE, POSITION or none, then by the class test of a link other than ADM. -/
theorem vadSetTaken : Obligations.VadSetTaken := by
  unfold Obligations.VadSetTaken
  refine ⟨fun cls f s hlatch => ?_, fun l cls f s hl hlatch => ?_⟩
  · have hm : mayTake s .adm .vadSet none := ⟨.inl hlatch, rfl, rfl⟩
    refine ⟨_, congrArg Host.Outcome.next (takeRequest_owner (n := {}) hm _), ?_⟩
    by_cases hr : 2 ≤ cls.toNat
    · rw [vadSet_range hr, if_pos hr]
      exact ⟨(noNotice.refl s).respond .adm _, answered_respond .., rfl⟩
    · rw [if_neg hr]
      have hcls : cls = 0#8 ∨ cls = 1#8 := by bv_omega
      rcases hcls with rfl | rfl
      · rw [vadSet_line]
        exact ⟨(noNotice.refl s).respond .adm _, answered_respond .., rfl, rfl, rfl⟩
      · rw [vadSet_position]
        exact ⟨(noNotice.refl s).respond .adm _, answered_respond .., rfl, rfl, rfl⟩
  · have hclass : maySend l ReqKind.vadSet.cls = false := decide_eq_false hl
    obtain ⟨hline, hpos⟩ := violate_vad l .vadSet .wrongLink {} (s.begin (some l))
    exact ⟨_, congrArg Host.Outcome.next (takeRequest_wrongLink hlatch hclass {} _), answered_respond .., hline, hpos⟩

end Sys2Proof.Machine

namespace Sys2Proof.Machine
open Sys2Proof

section

/-! # Activity events (R37, R39, R46, R47, R51, R52) -/

/-! ## The hoots' share of an event (R134 to R137) -/

/-- A bridge record without the reduction shifts of its contributors, all that a clash changes of it (R136). -/
def Bridge.unshifted (r : Bridge) : Bridge :=
  { r with contributors := r.contributors.map fun c => { c with shift := 0 } }

/-- What the hoots' share of an activity event leaves: everything but hoots, the log, the links and reduction shifts. -/
structure ShiftsOnly (s t : State) : Prop where
  rest : { t with bridges := s.bridges, hoots := s.hoots, log := s.log, links := s.links } = s
  bridges : ∀ b, (t.bridges.get b).unshifted = (s.bridges.get b).unshifted

theorem ShiftsOnly.refl (s : State) : ShiftsOnly s s := ⟨rfl, fun _ => rfl⟩

theorem ShiftsOnly.trans {s t u : State} (h : ShiftsOnly s t) (g : ShiftsOnly t u) : ShiftsOnly s u where
  rest := by
    have e := congrArg (fun v : State =>
      ({ v with bridges := s.bridges, hoots := s.hoots, log := s.log, links := s.links } : State)) g.rest
    exact e.trans h.rest
  bridges b := (g.bridges b).trans (h.bridges b)

theorem ShiftsOnly.detectors {s t : State} (h : ShiftsOnly s t) : t.detectors = s.detectors :=
  (congrArg State.detectors h.rest :)

theorem shiftsOnly_modHoot (b : BridgeId) (f : Hoot → Hoot) (s : State) : ShiftsOnly s (s.modHoot b f) :=
  ⟨rfl, fun _ => rfl⟩

theorem shiftsOnly_post (dest : LinkId → Bool) (n : Notice) (s : State) : ShiftsOnly s (post dest n s) :=
  ⟨rfl, fun _ => rfl⟩

theorem shiftsOnly_submit (r : Record) (s : State) : ShiftsOnly s (submit r s) :=
  ⟨by rw [submit_eq], fun b => by rw [submit_bridges]⟩

theorem shiftsOnly_setShift (b : BridgeId) (sel : SourceId → Bool) (n : Nat) (s : State) :
    ShiftsOnly s (setShift b sel n s) where
  rest := rfl
  bridges d := by
    simp only [setShift, modBridge_bridges, Tab.get_modify]
    split
    · rename_i hd
      subst hd
      simp only [Bridge.unshifted, List.map_map]
      congr 2
      funext c
      simp only [Function.comp_apply]
      split <;> rfl
    · rfl

theorem shiftsOnly_startClash (b : BridgeId) (h : Hoot) (s : State) : ShiftsOnly s (startClash b h s) :=
  (((shiftsOnly_modHoot b _ s).trans (shiftsOnly_setShift b _ _ _)).trans (shiftsOnly_post _ _ _)).trans
    (shiftsOnly_submit _ _)

theorem shiftsOnly_endClash (b : BridgeId) (h : Hoot) (s : State) : ShiftsOnly s (endClash b h s) :=
  (((shiftsOnly_modHoot b _ s).trans (shiftsOnly_setShift b _ _ _)).trans (shiftsOnly_post _ _ _)).trans
    (shiftsOnly_submit _ _)

theorem shiftsOnly_evalClash (b : BridgeId) (s : State) : ShiftsOnly s (evalClash b s) := by
  unfold evalClash
  split
  · split
    · split
      · exact ShiftsOnly.refl s
      · exact shiftsOnly_startClash b _ s
    · split
      · exact shiftsOnly_endClash b _ s
      · exact ShiftsOnly.refl s
  · exact ShiftsOnly.refl s

theorem shiftsOnly_hootLive (b : BridgeId) (s : State) : ShiftsOnly s (hootLive b s) := by
  unfold hootLive
  split
  · split
    · exact ShiftsOnly.refl s
    · exact (shiftsOnly_modHoot b _ s).trans (shiftsOnly_post _ _ _)
  · exact ShiftsOnly.refl s

theorem shiftsOnly_hootActivity (x : SourceId) (started : Bool) (b : BridgeId) (s : State) :
    ShiftsOnly s (hootActivity x started b s) := by
  unfold hootActivity
  split
  · refine ShiftsOnly.trans ?_ (shiftsOnly_evalClash b _)
    cases started with
    | true => exact (shiftsOnly_modHoot b _ s).trans (shiftsOnly_hootLive b _)
    | false => exact shiftsOnly_modHoot b _ s
  · exact ShiftsOnly.refl s

/-- The speaker-box block has no share in an event of a source on no hoot's bridge (R51). -/
theorem each_hootActivity_none {x : SourceId} {started : Bool} {s : State}
    (h : ∀ b, (s.bridges.get b).has x = true → s.hoots.get b = none) (bs : List BridgeId) :
    s.each bs (hootActivity x started) = s := by
  have hstep (b : BridgeId) : hootActivity x started b s = s := by
    unfold hootActivity
    by_cases hx : (s.bridges.get b).has x = true
    · simp [h b hx]
    · simp [hx]
  induction bs with
  | nil => rfl
  | cons b bs ih => rw [each_cons, hstep b, ih]

/-! ## A bridge takes the event (R37, R39) -/

section
variable (t : State) (x : SourceId) (started : Bool) (r : Bridge)

/-- The flag is re-evaluated (R37), and an entry that the reload mask selects moves the idle timer (R39). -/
theorem takeActivity_eq : r.takeActivity t x started = { r with
    active := anyActive t r.contributors
    idle := if r.mask.selects x = false then r.idle
      else if started then none
      else if selectedActive t r then r.idle
      else startIdle r.period } := by
  have hsel : selectedActive t (r.reflag t) = selectedActive t r := rfl
  have hmask : (r.reflag t).mask = r.mask := rfl
  unfold Bridge.takeActivity
  simp only [hsel, hmask, Bool.not_eq_true']
  by_cases hm : r.mask.selects x = false
  · rw [if_pos hm, if_pos hm]
    rfl
  · rw [if_neg hm, if_neg hm]
    cases started with
    | true => rfl
    | false =>
      cases hs : selectedActive t r
      · rfl
      · rfl

end

/-! ## The record of an event (R52) -/

/-- Bridge `b` holds the source, and an ASSIGNED channel names it (R52). -/
def RecordedOn (s : State) (x : SourceId) (b : BridgeId) : Prop :=
  (s.bridges.get b).has x = true ∧ ∃ c y, s.channels.get c = some y ∧ y.bridge = b

theorem isRecorded_iff (s : State) (b : BridgeId) :
    isRecorded s b = true ↔ ∃ c y, s.channels.get c = some y ∧ y.bridge = b := by
  unfold isRecorded
  rw [List.any_eq_true]
  constructor
  · rintro ⟨v, hv, hb⟩
    obtain ⟨c, hc⟩ := (Tab.mem_list _ v).mp hv
    cases v with
    | none => simp at hb
    | some y => exact ⟨c, y, hc, by simpa using hb⟩
  · rintro ⟨c, y, hc, hb⟩
    exact ⟨some y, (Tab.mem_list _ _).mpr ⟨c, hc⟩, by simpa using hb⟩

theorem recordedOn_iff (s : State) (x : SourceId) (b : BridgeId) :
    (isRecorded s b && (s.bridges.get b).has x) = true ↔ RecordedOn s x b := by
  rw [Bool.and_eq_true, isRecorded_iff, RecordedOn, and_comm]

theorem recordedBridge_eq_none {s : State} {x : SourceId} (h : ∀ b, ¬ RecordedOn s x b) : recordedBridge s x = none :=
  List.find?_eq_none.mpr fun b _ hb => h b ((recordedOn_iff s x b).mp hb)

theorem recordedBridge_eq_some {s : State} {x : SourceId} {b : BridgeId} (hb : RecordedOn s x b)
    (hlow : ∀ d, d < b → ¬ RecordedOn s x d) : recordedBridge s x = some b := by
  unfold recordedBridge ids
  rw [List.find?_eq_some_iff_getElem]
  refine ⟨(recordedOn_iff s x b).mpr hb, b.val, by simp, by simp, fun j hj => ?_⟩
  have hd := hlow ⟨j, by omega⟩ hj
  rw [← recordedOn_iff, Bool.not_eq_true] at hd
  simp only [List.getElem_finRange, Fin.cast_mk, hd, Bool.not_false]

theorem sourcePos_eq (x : SourceId) :
    sourcePos x = if x.val < 144 then some (Fin.ofNat 48 (x.val / 3)) else none := by
  unfold sourcePos
  split
  · exact congrArg some (Fin.ext (Nat.mod_eq_of_lt (by omega)).symm)
  · rfl

theorem sourceLine_eq (x : SourceId) :
    sourceLine x = if x.val < 144 then none else some (Fin.ofNat 192 (x.val - 144)) := by
  unfold sourceLine
  by_cases h : x.val < 144
  · rw [dif_neg (by omega), if_pos h]
  · rw [dif_pos (by omega), if_neg h]
    exact congrArg some (Fin.ext (Nat.mod_eq_of_lt (by omega)).symm)

theorem sourceEndpoint_eq (x : SourceId) : sourceEndpoint x =
    if x.val < 144 then some (if x.val % 3 = 0 then .ha else if x.val % 3 = 1 then .hb else .mic) else none := by
  unfold sourceEndpoint
  split
  · split <;> simp_all
  · rfl

theorem recordActivity_recorded {s : State} {x : SourceId} {b : BridgeId} (hb : RecordedOn s x b)
    (hlow : ∀ d, d < b → ¬ RecordedOn s x d) (started : Bool) :
    recordActivity x started s = submit (activityNote x started b) s := by
  unfold recordActivity
  rw [recordedBridge_eq_some hb hlow]
  simp only [activityNote, sourcePos_eq, sourceLine_eq, sourceEndpoint_eq, activityCause]

theorem recordActivity_unrecorded {s : State} {x : SourceId} (h : ∀ b, ¬ RecordedOn s x b) (started : Bool) :
    recordActivity x started s = s := by
  unfold recordActivity
  rw [recordedBridge_eq_none h]

/-- The record touches nothing but the log and the links. -/
theorem recordActivity_eq (x : SourceId) (started : Bool) (s : State) : recordActivity x started s =
    { s with log := (recordActivity x started s).log, links := (recordActivity x started s).links } := by
  unfold recordActivity
  split
  · exact submit_eq _ s
  · rfl

/-! ## The event, up to the hoots' share -/

/-- The detector in its new state, both counts 0 (R46, R47). -/
def detectorTurned (x : SourceId) (started : Bool) (s : State) : State :=
  s.modDet x fun d => { d with active := started, onset := 0, hang := 0 }

/-- The event recorded and taken by the bridge pool: all but the hoots' share of it. -/
def eventPooled (x : SourceId) (started : Bool) (s : State) : State :=
  poolActivity x started (recordActivity x started (detectorTurned x started s))

theorem raiseActivity_eq (x : SourceId) (started : Bool) (s : State) :
    raiseActivity x started s = (eventPooled x started s).each (ids 96) (hootActivity x started) := rfl

section
variable (x : SourceId) (started : Bool) (s : State)

theorem shiftsOnly_raiseActivity : ShiftsOnly (eventPooled x started s) (raiseActivity x started s) :=
  each_rel ShiftsOnly.refl ShiftsOnly.trans (shiftsOnly_hootActivity x started) (ids 96) (eventPooled x started s)

/-- Beside the detector and the bridges, only the log and the links have changed so far. -/
theorem eventPooled_rest : { eventPooled x started s with
    detectors := s.detectors, bridges := s.bridges, log := s.log, links := s.links } = s := by
  unfold eventPooled
  rw [recordActivity_eq]
  rfl

theorem eventPooled_detectors : (eventPooled x started s).detectors =
    s.detectors.set x ⟨(s.detectors.get x).energy, started, 0, 0⟩ := by
  unfold eventPooled
  rw [recordActivity_eq]
  rfl

theorem eventPooled_hoots : (eventPooled x started s).hoots = s.hoots :=
  (congrArg State.hoots (eventPooled_rest x started s) :)

theorem eventPooled_bridge (b : BridgeId) : (eventPooled x started s).bridges.get b =
    if (s.bridges.get b).has x then
      (s.bridges.get b).takeActivity (recordActivity x started (detectorTurned x started s)) x started
    else s.bridges.get b := by
  have hb : (recordActivity x started (detectorTurned x started s)).bridges = s.bridges := recordActivity_bridges ..
  simp only [eventPooled, poolActivity, Tab.get_map, hb]

/-- The detectors as the bridges see them: that of the source has turned, the others stand. -/
theorem active_recorded (y : SourceId) :
    (recordActivity x started (detectorTurned x started s)).active y = if y = x then started else s.active y := by
  rw [recordActivity_eq]
  exact active_raised x started s y

/-- The detectors once the whole event is over: the hoots leave them. -/
theorem raiseActivity_detectors : (raiseActivity x started s).detectors =
    s.detectors.set x ⟨(s.detectors.get x).energy, started, 0, 0⟩ :=
  (shiftsOnly_raiseActivity x started s).detectors.trans (eventPooled_detectors x started s)

/-- No position, line, call or channel changes, nor any other setting or count (R51). -/
theorem raiseActivity_rest : { raiseActivity x started s with
    detectors := s.detectors, bridges := s.bridges, hoots := s.hoots, log := s.log, links := s.links } = s := by
  have hshare := (shiftsOnly_raiseActivity x started s).rest
  have hpool := eventPooled_rest x started s
  generalize raiseActivity x started s = t at hshare ⊢
  generalize eventPooled x started s = u at hshare hpool
  rw [← hshare] at hpool
  exact (congrArg (fun v : State => ({ v with hoots := s.hoots } : State)) hpool :)

/-- What an activity event makes of a bridge (R37, R39). -/
theorem raiseActivity_bridge (b : BridgeId) :
    let act (y : SourceId) : Bool := if y = x then started else s.active y
    let r := s.bridges.get b
    let r' := (raiseActivity x started s).bridges.get b
    r'.use = r.use ∧ r'.contributors.map (·.source) = r.contributors.map (·.source) ∧
      if r.has x then
        r'.active = (r.contributors.any fun c => act c.source) ∧
        r'.idle = if r.mask.selects x = false then r.idle
          else if started then none
          else if r.contributors.any fun c => r.mask.selects c.source && act c.source then r.idle
          else if r.period = 0 then none else some r.period
      else r'.active = r.active ∧ r'.idle = r.idle := by
  intro act r r'
  have hpool := eventPooled_bridge x started s b
  have hshift : r'.unshifted = ((eventPooled x started s).bridges.get b).unshifted :=
    (shiftsOnly_raiseActivity x started s).bridges b
  clear_value r'
  generalize (eventPooled x started s).bridges.get b = q at hpool hshift
  have huse : r'.use = q.use := (congrArg Bridge.use hshift :)
  have hactive : r'.active = q.active := (congrArg Bridge.active hshift :)
  have hidle : r'.idle = q.idle := (congrArg Bridge.idle hshift :)
  have hsources : r'.contributors.map (·.source) = q.contributors.map (·.source) := by
    simpa [Bridge.unshifted, Function.comp_def] using
      congrArg (fun v : Bridge => v.contributors.map (·.source)) hshift
  rw [huse, hactive, hidle, hsources]
  subst hpool
  split
  · rw [takeActivity_eq]
    simp only [anyActive, selectedActive, active_recorded, startIdle]
    exact ⟨rfl, rfl, rfl, rfl⟩
  · exact ⟨rfl, rfl, rfl, rfl⟩

end

/-! ## What is told of a source on no hoot (R52) -/

theorem takeActivity_has (t : State) (x y : SourceId) (started : Bool) (r : Bridge) :
    (r.takeActivity t x started).has y = r.has y := by
  rw [takeActivity_eq]
  rfl

/-- The event of a source on no hoot ends with its pool's share. -/
theorem raiseActivity_noHoot {x : SourceId} {s : State}
    (h : ∀ b, (s.bridges.get b).has x = true → s.hoots.get b = none) (started : Bool) :
    raiseActivity x started s = eventPooled x started s := by
  rw [raiseActivity_eq]
  refine each_hootActivity_none (fun b hb => ?_) _
  rw [eventPooled_hoots]
  refine h b ?_
  rw [eventPooled_bridge] at hb
  split at hb
  · rwa [takeActivity_has] at hb
  · exact hb

/-- One ACTIVITY record with the lowest recorded bridge, and none when no bridge of the source is recorded (R52). -/
theorem toldAlike_recordActivity {x : SourceId} {s t : State} (ht : ToldAlike s t) (hb : t.bridges = s.bridges)
    (hc : t.channels = s.channels) (started : Bool) :
    ((∀ b, ¬ RecordedOn s x b) → ToldAlike s (recordActivity x started t)) ∧
      ∀ b, RecordedOn s x b → (∀ d, d < b → ¬ RecordedOn s x d) →
        ToldAlike (submit (activityNote x started b) s) (recordActivity x started t) := by
  have hrec (b : BridgeId) : RecordedOn t x b ↔ RecordedOn s x b := by rw [RecordedOn, RecordedOn, hb, hc]
  refine ⟨fun h => ?_, fun b h hlow => ?_⟩
  · rw [recordActivity_unrecorded fun b hb => h b ((hrec b).mp hb)]
    exact ht
  · rw [recordActivity_recorded ((hrec b).mpr h) fun d hd hrd => hlow d hd ((hrec d).mp hrd)]
    exact ht.submit _

/-- The record of the event is all that the log and the links take before the hoots' share (R52). -/
theorem toldAlike_eventPooled (x : SourceId) (started : Bool) (s : State) :
    ((∀ b, ¬ RecordedOn s x b) → ToldAlike s (eventPooled x started (s.begin none))) ∧
      ∀ b, RecordedOn s x b → (∀ d, d < b → ¬ RecordedOn s x d) →
        ToldAlike (submit (activityNote x started b) s) (eventPooled x started (s.begin none)) := by
  have hturned : ToldAlike s (detectorTurned x started (s.begin none)) := ⟨rfl, rfl, noNotice.refl s⟩
  have hpooled {u v : State} (h : ToldAlike u v) : ToldAlike u (poolActivity x started v) := h.quiet rfl rfl rfl
  obtain ⟨hnone, hsome⟩ := toldAlike_recordActivity (x := x) hturned rfl rfl started
  exact ⟨fun h => hpooled (hnone h), fun b h hlow => hpooled (hsome b h hlow)⟩

/-! ## The two commands -/

/-- An event that cannot occur changes nothing (notes/assumptions/3.md). -/
theorem exec_activity_same {x : SourceId} {started : Bool} {s : State} (h : s.active x = started) :
    exec (if started then .activityStart x else .activityEnd x) s = .next (s.begin none) := by
  have h' : (s.begin none).active x = started := h
  cases started with
  | true => exact congrArg Host.Outcome.next (if_pos h')
  | false => exact congrArg Host.Outcome.next (if_neg (Bool.eq_false_iff.mp h'))

/-- A detector whose state differs is turned, and its event delivered (R46, R47, R51). -/
theorem exec_activity_raised {x : SourceId} {started : Bool} {s : State} (h : s.active x ≠ started) :
    exec (if started then .activityStart x else .activityEnd x) s = .next (raiseActivity x started (s.begin none)) := by
  have h' : (s.begin none).active x ≠ started := h
  cases started with
  | true => exact congrArg Host.Outcome.next (if_neg h')
  | false => exact congrArg Host.Outcome.next (if_pos (Bool.not_eq_false _ ▸ h'))

end

/-- Settles O53: the event is recorded, then taken by the bridge pool; the hoots change only reduction shifts of what
that left, and nothing when the source is on no hoot. -/
theorem activityTaken : Obligations.ActivityTaken := by
  unfold Obligations.ActivityTaken
  intro x started s
  by_cases hsame : s.active x = started
  · exact ⟨_, exec_activity_same hsame, by rw [if_pos hsame]; rfl⟩
  · refine ⟨_, exec_activity_raised hsame, ?_⟩
    rw [if_neg hsame]
    refine ⟨raiseActivity_detectors x started (s.begin none), raiseActivity_bridge x started (s.begin none), ?_,
      fun hhoot => ?_⟩
    · have hrest := raiseActivity_rest x started (s.begin none)
      generalize raiseActivity x started (s.begin none) = t at hrest ⊢
      exact (congrArg (fun v : State => ({ v with origin := s.origin, released := s.released } : State)) hrest :)
    · rw [raiseActivity_noHoot (s := s.begin none) hhoot]
      obtain ⟨hnone, hsome⟩ := toldAlike_eventPooled x started s
      refine ⟨fun h => ⟨(hnone h).log, (hnone h).notices⟩, fun b h hlow => ?_⟩
      have htold := hsome b h hlow
      exact ⟨htold.log, htold.notices⟩

end Sys2Proof.Machine

namespace Sys2Proof.Machine
open Sys2Proof

section

/-! # One line's record, changed and told (R58, R73 to R79, R85, R153)

What the operations on a line that touch only its record, the log and the links make of the record, write and tell. -/

/-- From `s` on, only the record of line `L` has changed, and is `r` now; what was written and told is as in `u`. -/
structure LineStep (s : State) (L : LineId) (r : Line) (u t : State) : Prop where
  only : LinesOnly s t
  line : t.lines = s.lines.set L r
  told : ToldAlike u t

/-- LINE_STATE and WATCH of a line that left the state `old` and has the record `r` now (R85, R153). -/
def lineReported (s : State) (L : LineId) (old : LineState) (cause : Cause) (r : Line) (u : State) : State :=
  post (watchRoute (s.routes.get L)) (.watch L old r.state cause)
    (post (lineRoute s L) (.lineState L r.state r.holders.length r.holdOwner r.camp.length) u)

/-- OFFER to the head of a camp queue (R75). -/
def offerTold (s : State) (L : LineId) (r : Line) (u : State) : State :=
  match r.camp with
  | q :: _ => post (posRoute s [q]) (.offer L r.offerS) u
  | [] => u

/-- The record of a line that is OFFERED to the head of its camp queue, or IDLE when that is empty (R73, R79). -/
def Line.offeredOrIdle (r : Line) : Line :=
  if r.camp = [] then { r with state := .idle, timer := none }
  else { r with state := .offered, timer := some ⟨.offer, 1000 * r.offerS⟩ }

/-- The record of a line that enters ALERTING (R73, R77). -/
def Line.alerted (r : Line) : Line := { r with
  state := .alerting
  timer := if r.ltype = .mr then some ⟨.alert, 1000 * r.alertS⟩ else none
  farPresent := r.farPresent || r.ltype = .ar }

theorem Line.offeredOrIdle_nil {r : Line} (h : r.camp = []) :
    r.offeredOrIdle = { r with state := .idle, timer := none } := if_pos h
theorem Line.offeredOrIdle_cons {r : Line} {q : PosId} {rest : List PosId} (h : r.camp = q :: rest) :
    r.offeredOrIdle = { r with state := .offered, timer := some ⟨.offer, 1000 * r.offerS⟩ } := if_neg (by simp [h])
theorem offerTold_nil {s u : State} {L : LineId} {r : Line} (h : r.camp = []) : offerTold s L r u = u := by
  rw [offerTold, h]
theorem offerTold_cons {s u : State} {L : LineId} {r : Line} {q : PosId} {rest : List PosId} (h : r.camp = q :: rest) :
    offerTold s L r u = post (posRoute s [q]) (.offer L r.offerS) u := by rw [offerTold, h]

/-! ## The model's operations, by the camp queue -/

section
variable {s : State} {L : LineId} {q : PosId} {rest : List PosId}

theorem makeOffer_cons (h : (s.lines.get L).camp = q :: rest) : makeOffer L s =
    startTimer L .offer (1000 * (s.lines.get L).offerS) (postPos q (.offer L (s.lines.get L).offerS) s) := by
  unfold makeOffer
  rw [h]

theorem offerOrIdle_nil (h : (s.lines.get L).camp = []) (c : Cause) :
    offerOrIdle L c s = enterState L .idle c (stopTimer L s) := if_pos (by simp [h])

theorem offerOrIdle_cons (h : (s.lines.get L).camp = q :: rest) (c : Cause) :
    offerOrIdle L c s = makeOffer L (enterState L .offered c (stopTimer L s)) := if_neg (by simp [h])

theorem advanceOffer_nil (h : (s.lines.get L).camp = []) :
    advanceOffer L s = enterState L .idle .offerEnd (stopTimer L s) := if_pos (by simp [h])

theorem advanceOffer_cons (h : (s.lines.get L).camp = q :: rest) : advanceOffer L s = makeOffer L s :=
  if_neg (by simp [h])

/-- The offered party leaves the camp queue, is told, and the offer advances (R75). -/
theorem campRemove_head (ho : (s.lines.get L).state = .offered) (hc : (s.lines.get L).camp = q :: rest) (c : Cause) :
    campRemove L q c s = advanceOffer L (postPos q (.offerLapsed L c true) (removeCamp L q s)) := by
  have hin : (s.lines.get L).camp.contains q = true := by simp [hc]
  have hoff : isOffered (s.lines.get L) q = true := by simp [isOffered, ho, hc]
  unfold campRemove
  simp only [hin, hoff, if_true]
end

/-! ## Their steps -/

theorem LineStep.refl {s u : State} (h : ToldAlike u s) (L : LineId) : LineStep s L (s.lines.get L) u s :=
  ⟨rfl, by simp, h⟩

section
variable {s u t : State} {L : LineId} {r : Line}

theorem LineStep.get (h : LineStep s L r u t) : t.lines.get L = r := by simp [h.line]

theorem LineStep.frame (h : LineStep s L r u t) : t.frame = s.frame := (congrArg State.frame h.only :)

theorem LineStep.post (h : LineStep s L r u t) {dest dest' : LinkId → Bool} (hd : dest' = dest) (n : Notice) :
    LineStep s L r (Machine.post dest n u) (Machine.post dest' n t) :=
  ⟨h.only.trans (t := t) rfl, h.line, h.told.post hd n⟩

theorem LineStep.postPos (h : LineStep s L r u t) (p : PosId) (n : Notice) :
    LineStep s L r (Machine.post (posRoute s [p]) n u) (Machine.postPos p n t) := h.post (posRoute_of_frame h.frame _) n

theorem LineStep.submit (h : LineStep s L r u t) (x : Record) :
    LineStep s L r (Machine.submit x u) (Machine.submit x t) :=
  ⟨h.only.trans (linesOnly_submit x t), (submit_lines x t).trans h.line, h.told.submit x⟩

theorem LineStep.modLine (h : LineStep s L r u t) (f : Line → Line) : LineStep s L (f r) u (t.modLine L f) where
  only := h.only.trans (t := t) rfl
  line := by
    rw [modLine_lines, h.line]
    apply Tab.ext_get
    intro M
    simp only [Tab.get_modify, Tab.get_set]
    split <;> simp
  told := h.told.quiet rfl rfl rfl

theorem LineStep.stopTimer (h : LineStep s L r u t) : LineStep s L { r with timer := none } u (Machine.stopTimer L t) :=
  h.modLine fun r => { r with timer := none }

theorem LineStep.startTimer (h : LineStep s L r u t) (kind : TimerKind) (ms : Nat) :
    LineStep s L { r with timer := some ⟨kind, ms⟩ } u (Machine.startTimer L kind ms t) :=
  h.modLine fun r => { r with timer := some ⟨kind, ms⟩ }

theorem LineStep.reportChange (h : LineStep s L r u t) {old : LineState} (hne : r.state ≠ old) (cause : Cause) :
    LineStep s L r (lineReported s L old cause r u) (Machine.reportChange [] L old cause t) where
  only := h.only.trans (linesOnly_reportChange ..)
  line := (reportChange_lines ..).trans h.line
  told := by
    have hget := h.get
    exact h.told.reportChange h.frame hne (by rw [hget]) (by rw [hget]) (by rw [hget]) (by rw [hget]) cause

/-- A line enters another state, and that is told. -/
theorem LineStep.enterState (h : LineStep s L r u t) {new : LineState} (hne : new ≠ r.state) (cause : Cause) :
    LineStep s L { r with state := new } (lineReported s L r.state cause { r with state := new } u)
      (Machine.enterState L new cause t) := by
  unfold Machine.enterState enterStateTo
  rw [h.get]
  exact (h.modLine fun r => { r with state := new }).reportChange hne cause

/-- RING_IN, its record, and the entry to ALERTING (R73, R77). -/
theorem LineStep.enterAlerting (h : LineStep s L r u t) (hne : r.state ≠ .alerting) :
    LineStep s L r.alerted (lineReported s L r.state .ring r.alerted
        (Machine.submit { kind := .ringIn, line := some L } (Machine.post (lineRoute s L) (.ringIn L) u)))
      (Machine.enterAlerting L t) := by
  unfold Machine.enterAlerting
  rw [h.get]
  have hset := h.modLine Line.alerted
  have htold := (hset.post (lineRoute_of_frame hset.frame L) (.ringIn L)).submit { kind := .ringIn, line := some L }
  exact htold.reportChange (r := r.alerted) hne.symm .ring

/-- The offer goes to the head of the camp queue (R75). -/
theorem LineStep.makeOffer (h : LineStep s L r u t) {q : PosId} {rest : List PosId} (hq : r.camp = q :: rest) :
    LineStep s L { r with timer := some ⟨.offer, 1000 * r.offerS⟩ }
      (Machine.post (posRoute s [q]) (.offer L r.offerS) u) (Machine.makeOffer L t) := by
  have hget := h.get
  rw [makeOffer_cons (by rw [hget, hq]), hget]
  exact (h.postPos q _).startTimer .offer _

/-- OFFERED to the head of the camp queue, with LINE_STATE before OFFER, otherwise IDLE (R73, R79). -/
theorem LineStep.offerOrIdle (h : LineStep s L r u t) (hi : r.state ≠ .idle) (ho : r.state ≠ .offered) (cause : Cause) :
    LineStep s L r.offeredOrIdle (offerTold s L r (lineReported s L r.state cause r.offeredOrIdle u))
      (Machine.offerOrIdle L cause t) := by
  have hget := h.get
  rcases hq : r.camp with _ | ⟨q, rest⟩
  · rw [Line.offeredOrIdle_nil hq, offerTold_nil hq, offerOrIdle_nil (by rw [hget, hq])]
    exact h.stopTimer.enterState hi.symm cause
  · rw [Line.offeredOrIdle_cons hq, offerTold_cons hq, offerOrIdle_cons (by rw [hget, hq])]
    exact (h.stopTimer.enterState (new := .offered) ho.symm cause).makeOffer hq

/-- The offered party, alone in the camp queue, goes: the line is IDLE (R74, R75). -/
theorem LineStep.campRemove_last (h : LineStep s L r u t) (ho : r.state = .offered) {q : PosId} (hc : r.camp = [q])
    (cause : Cause) :
    LineStep s L { r with camp := [], state := .idle, timer := none }
      (lineReported s L .offered .offerEnd { r with camp := [], state := .idle, timer := none }
        (Machine.post (posRoute s [q]) (.offerLapsed L cause true) u)) (Machine.campRemove L q cause t) := by
  have hget := h.get
  have hnone : r.camp.filter (· ≠ q) = [] := by simp [hc]
  have hgone := (h.modLine fun r => { r with camp := r.camp.filter (· ≠ q) }).postPos q (.offerLapsed L cause true)
  simp only [hnone] at hgone
  rw [campRemove_head (by rw [hget, ho]) (by rw [hget, hc]), advanceOffer_nil (by exact congrArg Line.camp hgone.get)]
  have hidle := hgone.stopTimer.enterState (new := .idle) (by simp [ho]) .offerEnd
  simp only [ho] at hidle
  exact hidle

/-- The offered party goes: the offer passes to the next in the camp queue (R74, R75). -/
theorem LineStep.campRemove_next (h : LineStep s L r u t) (ho : r.state = .offered) {q q' : PosId} {rest : List PosId}
    (hc : r.camp = q :: q' :: rest) (hq : q ∉ q' :: rest) (cause : Cause) :
    LineStep s L { r with camp := q' :: rest, timer := some ⟨.offer, 1000 * r.offerS⟩ }
      (Machine.post (posRoute s [q']) (.offer L r.offerS) (Machine.post (posRoute s [q]) (.offerLapsed L cause true) u))
      (Machine.campRemove L q cause t) := by
  have hget := h.get
  have hrest : r.camp.filter (· ≠ q) = q' :: rest := by
    rw [hc, List.filter_cons_of_neg (by simp)]
    exact List.filter_eq_self.mpr fun x hx => decide_eq_true fun e => hq (e ▸ hx)
  have hgone := (h.modLine fun r => { r with camp := r.camp.filter (· ≠ q) }).postPos q (.offerLapsed L cause true)
  simp only [hrest] at hgone
  rw [campRemove_head (by rw [hget, ho]) (by rw [hget, hc]), advanceOffer_cons (by exact congrArg Line.camp hgone.get)]
  exact hgone.makeOffer rfl

/-- An alerting line is abandoned (R79). -/
theorem LineStep.abandon (h : LineStep s L r u t) (hs : r.state = .alerting) :
    LineStep s L (Line.offeredOrIdle { r with farPresent := false })
      (offerTold s L r (lineReported s L .alerting .abandoned (Line.offeredOrIdle { r with farPresent := false })
        (Machine.submit { kind := .abandoned, line := some L } u))) (Machine.abandon L t) := by
  have hset := (h.submit { kind := .abandoned, line := some L }).modLine fun r => { r with farPresent := false }
  rw [← hs]
  exact hset.offerOrIdle (by simp [hs]) (by simp [hs]) .abandoned

/-- The end of CLEARING with a ring that came meanwhile: ALERTING (R73). -/
theorem LineStep.endClearing_ring (h : LineStep s L r u t) (hs : r.state = .clearing) (hp : r.pendingRing = true) :
    LineStep s L (Line.alerted { r with pendingRing := false })
      (lineReported s L .clearing .ring (Line.alerted { r with pendingRing := false })
        (Machine.submit { kind := .ringIn, line := some L } (Machine.post (lineRoute s L) (.ringIn L) u)))
      (Machine.endClearing L t) := by
  unfold Machine.endClearing
  rw [h.get, if_pos hp, ← hs]
  exact (h.modLine fun r => { r with pendingRing := false, timer := none }).enterAlerting (by simp [hs])

/-- The end of CLEARING without one: an offer, or IDLE (R73). -/
theorem LineStep.endClearing_quiet (h : LineStep s L r u t) (hs : r.state = .clearing) (hp : r.pendingRing = false) :
    LineStep s L r.offeredOrIdle (offerTold s L r (lineReported s L .clearing .guardEnd r.offeredOrIdle u))
      (Machine.endClearing L t) := by
  unfold Machine.endClearing
  rw [h.get, if_neg (by simp [hp]), ← hs]
  exact h.offerOrIdle (by simp [hs]) (by simp [hs]) .guardEnd
end

end

end Sys2Proof.Machine

namespace Sys2Proof.Machine
open Sys2Proof

section

/-! # The expiries of a line's timer (R71, R73, R75, R79) -/

variable {s t : State} {L : LineId}

/-- An expiry begins with what the state was, and ends with the line's record, the log and the links alone changed. -/
theorem LineStep.only_begin {o : Option LinkId} {r : Line} {u : State} (h : LineStep (s.begin o) L r u t) :
    { t with lines := s.lines, log := s.log, links := s.links, origin := s.origin, released := s.released } = s :=
  (congrArg (fun v : State => { v with origin := s.origin, released := s.released }) h.only :)

theorem guardExpires_stopped (h : timerKind s L ≠ some .guard) : guardExpires L s = s := if_neg h
theorem guardExpires_running (h : timerKind s L = some .guard) : guardExpires L s = endClearing L s := if_pos h
theorem offerExpires_stopped (h : timerKind s L ≠ some .offer) : offerExpires L s = s := if_neg h

theorem offerExpires_nil (hq : (s.lines.get L).camp = []) : offerExpires L s = s := by
  unfold offerExpires
  rw [hq]
  exact ite_self s

theorem offerExpires_cons (h : timerKind s L = some .offer) {q : PosId} {rest : List PosId}
    (hq : (s.lines.get L).camp = q :: rest) : offerExpires L s = campRemove L q .expired s := by
  unfold offerExpires
  rw [if_pos h, hq]

theorem alertExpires_stopped (h : timerKind s L ≠ some .alert) : alertExpires L s = s := if_neg h
theorem alertExpires_running (h : timerKind s L = some .alert) : alertExpires L s = abandon L s := if_pos h
theorem recallExpires_stopped (h : timerKind s L ≠ some .recall) : recallExpires L s = s := if_neg h

/-- RECALL goes to the hold owner, if there is one, and the timer starts again (R71). -/
theorem recallExpires_running (h : timerKind s L = some .recall) {u : State} (hu : ToldAlike u s) :
    LineStep s L { s.lines.get L with timer := some ⟨.recall, 1000 * (s.lines.get L).recallS⟩ }
      (match (s.lines.get L).holdOwner with
        | some p => post (posRoute s [p]) (.recall L p) u
        | none => u) (recallExpires L s) ∧ (recallExpires L s).log = s.log := by
  have hstep := LineStep.refl hu L
  unfold recallExpires
  rw [if_pos h]
  cases (s.lines.get L).holdOwner with
  | some p => exact ⟨(hstep.postPos p _).startTimer .recall _, rfl⟩
  | none => exact ⟨hstep.startTimer .recall _, rfl⟩

end

/-- Settles O58: each expiry is the line operation of its rule, taken as a `LineStep` from the start of the event. -/
theorem lineTimersExpire : Obligations.LineTimersExpire := by
  unfold Obligations.LineTimersExpire
  intro L s
  dsimp only
  have hstart : LineStep (s.begin none) L (s.lines.get L) s (s.begin none) := LineStep.refl (toldAlike_begin s none) L
  refine ⟨⟨_, rfl, fun hk => ?_, fun hk hs => ?_⟩, ⟨_, rfl, fun hk => ?_, fun hk hs hn => ?_⟩,
    ⟨_, rfl, fun hk => ?_, fun hk hs => ?_⟩, ⟨_, rfl, fun hk => ?_, fun hk => ?_⟩⟩
  · rw [guardExpires_stopped (s := s.begin none) hk]
    rfl
  · rw [guardExpires_running (s := s.begin none) hk]
    by_cases hp : (s.lines.get L).pendingRing = true
    · have h := hstart.endClearing_ring hs hp
      rw [← hs] at h
      rw [if_pos hp]
      exact ⟨h.only_begin, h.line, h.told.log, h.told.notices⟩
    · have h := hstart.endClearing_quiet hs (Bool.eq_false_iff.mpr hp)
      rw [← hs] at h
      rw [if_neg hp]
      rcases hq : (s.lines.get L).camp with _ | ⟨q, rest⟩
      · rw [Line.offeredOrIdle_nil hq, offerTold_nil hq, hq] at h
        exact ⟨h.only_begin, h.told.log, h.line, h.told.notices⟩
      · rw [Line.offeredOrIdle_cons hq, offerTold_cons hq, hq] at h
        exact ⟨h.only_begin, h.told.log, h.line, h.told.notices⟩
  · rw [offerExpires_stopped (s := s.begin none) hk]
    rfl
  · rcases hq : (s.lines.get L).camp with _ | ⟨q, _ | ⟨q', rest⟩⟩
    · rw [offerExpires_nil (s := s.begin none) hq]
      exact ⟨rfl, rfl, rfl⟩
    · have h := hstart.campRemove_last hs hq .expired
      rw [← hs] at h
      rw [offerExpires_cons (s := s.begin none) hk hq]
      exact ⟨h.only_begin, h.told.log, h.line, h.told.notices⟩
    · have h := hstart.campRemove_next hs hq (List.nodup_cons.mp (hq ▸ hn)).1 .expired
      rw [offerExpires_cons (s := s.begin none) hk hq]
      exact ⟨h.only_begin, h.told.log, h.line, h.told.notices⟩
  · rw [alertExpires_stopped (s := s.begin none) hk]
    rfl
  · have h := hstart.abandon hs
    rw [← hs] at h
    rw [alertExpires_running (s := s.begin none) hk]
    rcases hq : (s.lines.get L).camp with _ | ⟨q, rest⟩
    · rw [Line.offeredOrIdle_nil (by exact hq), offerTold_nil hq, hq] at h
      exact ⟨h.only_begin, h.told.log, h.line, h.told.notices⟩
    · rw [Line.offeredOrIdle_cons (by exact hq), offerTold_cons hq, hq] at h
      exact ⟨h.only_begin, h.told.log, h.line, h.told.notices⟩
  · rw [recallExpires_stopped (s := s.begin none) hk]
    rfl
  · obtain ⟨h, hlog⟩ := recallExpires_running (s := s.begin none) hk (toldAlike_begin s none)
    refine ⟨h.only_begin, hlog, h.line, fun p hp => ?_⟩
    have hnotices := h.told.notices
    rw [begin_lines, hp] at hnotices
    exact hnotices

end Sys2Proof.Machine

namespace Sys2Proof.Machine
open Sys2Proof

section

/-! # Detector and ring events (R77, R78, R91 to R95, R98) -/

/-! ## The detector -/

theorem detectorRuns_iff {s : State} {L : LineId} : detectorRuns s L = true ↔
    ((s.lines.get L).ltype = .mr ∨ (s.lines.get L).ltype = .ar) ∧ s.lineUp L = true := by simp [detectorRuns]

theorem RingDet.rings_iff {d : RingDet} : d.rings = true ↔ d.state = .ringing ∨ d.state = .tail := by
  simp [RingDet.rings]

theorem RingDet.toQuiet_eq (P n : Nat) (d : RingDet) : d.toQuiet P n = { d with
    state := if P ≤ n then .armed else .quiet
    quiet := if P ≤ n then 0 else n
    burst := 0
    gap := 0
    tail := 0 } := by
  unfold RingDet.toQuiet
  split <;> rfl

/-- A detector that runs and is in the state that the event needs (notes/assumptions/3.md). -/
theorem detectorIn_iff {s : State} {L : LineId} {st : RingState} :
    (detectorRuns s L && decide ((s.rings.get L).state = st)) = true ↔
      (((s.lines.get L).ltype = .mr ∨ (s.lines.get L).ltype = .ar) ∧ s.lineUp L = true) ∧
        (s.rings.get L).state = st := by
  rw [Bool.and_eq_true, detectorRuns_iff, decide_eq_true_iff]

/-- The pre-quiet of a detector that runs in QUIET is complete (R92). -/
theorem armDetector_eq (L : LineId) (s : State) : armDetector L s = { s with
    rings := if (((s.lines.get L).ltype = .mr ∨ (s.lines.get L).ltype = .ar) ∧ s.lineUp L = true) ∧
        (s.rings.get L).state = .quiet then s.rings.set L { s.rings.get L with state := .armed, quiet := 0 }
      else s.rings } := by
  unfold armDetector
  rw [if_congr detectorIn_iff rfl rfl]
  split <;> rfl

/-- The gap of a burst that a running detector takes exceeds the gap allowance (R93). -/
theorem endBurst_eq (L : LineId) (s : State) : endBurst L s = { s with
    rings := if (((s.lines.get L).ltype = .mr ∨ (s.lines.get L).ltype = .ar) ∧ s.lineUp L = true) ∧
        (s.rings.get L).state = .burst then
        s.rings.set L ((s.rings.get L).toQuiet (samplesOf (s.lines.get L).sig.preQuiet)
          (samplesOf (s.lines.get L).sig.gapAllow + 1))
      else s.rings } := by
  unfold endBurst
  rw [if_congr detectorIn_iff rfl rfl]
  split <;> rfl

section
variable (L : LineId) (s : State)

/-- The detector as RING_START leaves it (R93). -/
def ringRaised : State := s.modRing L fun d => { d with state := .ringing, quiet := 0, burst := 0, gap := 0, tail := 0 }

/-- The detector as RING_END leaves it (R94). -/
def ringOver : State := s.modRing L
  (RingDet.toQuiet (samplesOf (s.lines.get L).sig.preQuiet) (samplesOf (s.lines.get L).sig.postQuiet))

theorem raiseRing_eq : raiseRing L s =
    if detectorRuns s L && !(s.rings.get L).rings then takeRingStart L (ringRaised L s) else s := rfl

theorem endRing_eq : endRing L s =
    if detectorRuns s L && (s.rings.get L).rings then takeRingEnd L (ringOver L s) else s := rfl
end

section
variable {L : LineId} {s : State}

/-- RING_START without its cause (notes/assumptions/3.md). -/
theorem raiseRing_same (h : ¬ (((s.lines.get L).ltype = .mr ∨ (s.lines.get L).ltype = .ar) ∧ s.lineUp L = true) ∨
    ((s.rings.get L).state = .ringing ∨ (s.rings.get L).state = .tail)) : raiseRing L s = s := by
  rw [← detectorRuns_iff, ← RingDet.rings_iff] at h
  rw [raiseRing_eq, if_neg]
  rcases h with h | h <;> simp [h]

theorem raiseRing_raised (h : ((s.lines.get L).ltype = .mr ∨ (s.lines.get L).ltype = .ar) ∧ s.lineUp L = true)
    (hr : ¬ ((s.rings.get L).state = .ringing ∨ (s.rings.get L).state = .tail)) :
    raiseRing L s = takeRingStart L (ringRaised L s) := by
  rw [← detectorRuns_iff] at h
  rw [← RingDet.rings_iff] at hr
  rw [raiseRing_eq, if_pos (by simp [h, hr])]

/-- RING_END without its cause (notes/assumptions/3.md). -/
theorem endRing_same (h : ¬ (((s.lines.get L).ltype = .mr ∨ (s.lines.get L).ltype = .ar) ∧ s.lineUp L = true) ∨
    ¬ ((s.rings.get L).state = .ringing ∨ (s.rings.get L).state = .tail)) : endRing L s = s := by
  rw [← detectorRuns_iff, ← RingDet.rings_iff] at h
  rw [endRing_eq, if_neg]
  rcases h with h | h <;> simp [h]

theorem endRing_over (h : ((s.lines.get L).ltype = .mr ∨ (s.lines.get L).ltype = .ar) ∧ s.lineUp L = true)
    (hr : (s.rings.get L).state = .ringing ∨ (s.rings.get L).state = .tail) :
    endRing L s = takeRingEnd L (ringOver L s) := by
  rw [← detectorRuns_iff] at h
  rw [← RingDet.rings_iff] at hr
  rw [endRing_eq, if_pos (by simp [h, hr])]

/-! ## What the line block makes of a ring (R77, R78) -/

theorem takeRingStart_idle (h : (s.lines.get L).state = .idle) : takeRingStart L s = enterAlerting L s := by
  simp only [takeRingStart, h]

theorem takeRingStart_offered (h : (s.lines.get L).state = .offered) {q : PosId} {rest : List PosId}
    (hq : (s.lines.get L).camp = q :: rest) :
    takeRingStart L s = enterAlerting L (postPos q (.offerLapsed L .ring true) s) := by
  simp only [takeRingStart, h, hq]

theorem takeRingStart_alerting (h : (s.lines.get L).state = .alerting) : takeRingStart L s =
    if (s.lines.get L).ltype = .mr then startTimer L .alert (1000 * (s.lines.get L).alertS) s else s := by
  simp only [takeRingStart, h]

theorem takeRingStart_connected (h : (s.lines.get L).state = .connected) : takeRingStart L s =
    if (s.lines.get L).ltype = .mr then postMany ((s.lines.get L).holders.map (·.1)) (.farRing L) s
      else s.modLine L fun r => { r with farPresent := true } := by
  simp only [takeRingStart, h]

theorem takeRingStart_held (h : (s.lines.get L).state = .held) : takeRingStart L s =
    if (s.lines.get L).ltype = .mr then postMany (s.lines.get L).holdOwner.toList (.farRing L) s
      else s.modLine L fun r => { r with farPresent := true } := by
  simp only [takeRingStart, h]

theorem takeRingStart_clearing (h : (s.lines.get L).state = .clearing) :
    takeRingStart L s = s.modLine L fun r => { r with pendingRing := true } := by
  simp only [takeRingStart, h]

theorem takeRingEnd_manual (h : (s.lines.get L).ltype = .mr) : takeRingEnd L s = s := if_pos (by simp [h])

section
variable (ht : (s.lines.get L).ltype = .ar)
include ht

theorem takeRingEnd_alerting (h : (s.lines.get L).state = .alerting) : takeRingEnd L s = abandon L s := by
  simp [takeRingEnd, ht, h]

theorem takeRingEnd_call (h : (s.lines.get L).state = .connected ∨ (s.lines.get L).state = .held) : takeRingEnd L s =
    if (s.lines.get L).farPresent then teardownLine L .farClear s else s := by
  rcases h with h | h <;> simp [takeRingEnd, ht, h]

theorem takeRingEnd_clearing (h : (s.lines.get L).state = .clearing) :
    takeRingEnd L s = s.modLine L fun r => { r with pendingRing := false } := by
  simp [takeRingEnd, ht, h]

theorem takeRingEnd_free (h : (s.lines.get L).state = .idle ∨ (s.lines.get L).state = .offered) :
    takeRingEnd L s = s := by
  rcases h with h | h <;> simp [takeRingEnd, ht, h]
end

theorem takeRingStart_rings : (takeRingStart L s).rings = s.rings :=
  (congrArg Frame.rings (kept_takeRingStart L s).frame :)
theorem takeRingEnd_rings : (takeRingEnd L s).rings = s.rings :=
  (congrArg Frame.rings (kept_takeRingEnd L s).frame :)

/-- From a ring event on, the line's record, the log and the links alone change, beside the detector. -/
theorem LineStep.only_ring {f : RingDet → RingDet} {r : Line} {u t : State}
    (h : LineStep ((s.begin none).modRing L f) L r u t) :
    { t with rings := s.rings, lines := s.lines, log := s.log, links := s.links, origin := s.origin,
             released := s.released } = s :=
  (congrArg (fun v : State => { v with rings := s.rings, origin := s.origin, released := s.released }) h.only :)

theorem toldAlike_ring (f : RingDet → RingDet) : ToldAlike s ((s.begin none).modRing L f) := ⟨rfl, rfl, noNotice.refl s⟩
end

end

/-- Settles O55: the detector is set first (`ringRaised`, `ringOver`), then the line block takes the ring in the state
that its line is in. -/
theorem signalEventsTaken : Obligations.SignalEventsTaken := by
  unfold Obligations.SignalEventsTaken
  intro L s
  dsimp only
  refine ⟨⟨_, congrArg Host.Outcome.next (armDetector_eq L (s.begin none)), rfl, rfl⟩,
    ⟨_, congrArg Host.Outcome.next (endBurst_eq L (s.begin none)), rfl, ?_⟩, ⟨_, rfl, rfl, rfl⟩,
    ⟨_, rfl, fun h => ?_, fun hruns hno => ?_⟩, ⟨_, rfl, fun h => ?_, fun hruns hring => ?_⟩⟩
  · rw [RingDet.toQuiet_eq]
    rfl
  · rw [raiseRing_same (s := s.begin none) h]
    rfl
  · have hstart : LineStep (ringRaised L (s.begin none)) L (s.lines.get L) s (ringRaised L (s.begin none)) :=
      LineStep.refl (toldAlike_ring _) L
    rw [raiseRing_raised (s := s.begin none) hruns hno]
    refine ⟨takeRingStart_rings, fun hs => ?_, fun hs ht => ?_, fun hs => ?_⟩
    · have h := hstart.enterAlerting (by simp [hs])
      rw [hs] at h
      rw [takeRingStart_idle (s := ringRaised L (s.begin none)) hs]
      exact ⟨h.only_ring, h.line, h.told.log, h.told.notices⟩
    · have h := hstart.told.post (dest := posRoute (s.begin none) ((s.lines.get L).holders.map (·.1))) rfl (.farRing L)
      rw [takeRingStart_connected (s := ringRaised L (s.begin none)) hs, if_pos (by exact ht)]
      exact ⟨rfl, rfl, rfl, h.notices⟩
    · rw [takeRingStart_clearing (s := ringRaised L (s.begin none)) hs]
      exact ⟨rfl, rfl⟩
  · rw [endRing_same (s := s.begin none) h]
    rfl
  · have hstart : LineStep (ringOver L (s.begin none)) L (s.lines.get L) s (ringOver L (s.begin none)) :=
      LineStep.refl (toldAlike_ring _) L
    rw [endRing_over (s := s.begin none) hruns hring]
    refine ⟨?_, fun ht => ?_, fun ht hs hq => ?_⟩
    · refine takeRingEnd_rings.trans ?_
      rw [← RingDet.toQuiet_eq]
      rfl
    · rw [takeRingEnd_manual (s := ringOver L (s.begin none)) ht]
      rfl
    · have h := hstart.abandon hs
      rw [Line.offeredOrIdle_nil (by exact hq), offerTold_nil hq] at h
      rw [takeRingEnd_alerting (s := ringOver L (s.begin none)) ht hs]
      exact ⟨h.only_ring, h.line, h.told.log, h.told.notices⟩

end Sys2Proof.Machine

namespace Sys2Proof.Machine
open Sys2Proof

section

/-! # A call that its far end clears (R78)

RING_END releases the line after it has moved the detector, and nothing of a release looks at a detector of rings. -/

variable {s u v : State} {o : Option LinkId} {L : LineId}

theorem ToldAlike.stateEntered (h : ToldAlike u v) (old new : LineState) (c : Cause) :
    ToldAlike (stateEntered s L old new c u) (stateEntered s L old new c v) := (h.post rfl _).post rfl _

theorem ToldAlike.clearingEntered (h : ToldAlike u v) (c : Cause) :
    ToldAlike (clearingEntered s o L c u) (clearingEntered s o L c v) := by
  have hclear := h.stateEntered (s := s) (L := L) (s.lines.get L).state .clearing c
  unfold Machine.clearingEntered
  dsimp only
  split
  · exact hclear
  · split
    · exact hclear.stateEntered ..
    · exact (hclear.stateEntered ..).post rfl _

theorem ToldAlike.monitorsEnded (h : ToldAlike u v) (c : Cause) :
    ToldAlike (monitorsEnded s o L c u) (monitorsEnded s o L c v) := by
  unfold Machine.monitorsEnded
  induction (s.lines.get L).monitors generalizing u v with
  | nil => exact h
  | cons x rest ih => exact ih (h.post rfl _)

theorem ToldAlike.holderEnded (h : ToldAlike u v) (c : Cause) (x : PosId × Endpoint) (rest : List (PosId × Endpoint)) :
    ToldAlike (holderEnded s o L c x rest u) (holderEnded s o L c x rest v) := by
  have htalk : ToldAlike (talkEnded s o L c x u) (talkEnded s o L c x v) := by
    unfold talkEnded
    split
    · exact (h.submit _).post rfl _
    · exact h
  unfold Machine.holderEnded
  dsimp only
  split
  · exact htalk.submit _
  · exact (htalk.post rfl _).submit _

theorem ToldAlike.holdersEnded (h : ToldAlike u v) (c : Cause) (xs : List (PosId × Endpoint)) :
    ToldAlike (holdersEnded s o L c xs u) (holdersEnded s o L c xs v) := by
  induction xs generalizing u v with
  | nil => exact h
  | cons x rest ih => exact ih (h.holderEnded c x rest)

theorem holdersEnded_modRing (f : RingDet → RingDet) (c : Cause) (xs : List (PosId × Endpoint)) (u : State) :
    holdersEnded (s.modRing L f) o L c xs u = holdersEnded s o L c xs u := by
  induction xs generalizing u with
  | nil => rfl
  | cons x rest ih => exact ih _

theorem toldAlike_holdEnded (f : RingDet → RingDet) (c : Cause) :
    ToldAlike (holdEnded s L c) (holdEnded (s.modRing L f) L c) := by
  have h : ToldAlike s (s.modRing L f) := ⟨rfl, rfl, noNotice.refl s⟩
  unfold holdEnded
  rw [modRing_lines]
  split
  · split
    · exact h.submit _
    · exact h
  · exact h

/-- A release is told alike whatever the detector of the line is. -/
theorem toldAlike_lineEnded (f : RingDet → RingDet) (c m : Cause) :
    ToldAlike (lineEnded s o L c m) (lineEnded (s.modRing L f) o L c m) := by
  have h := (((toldAlike_holdEnded (s := s) (L := L) f c).holdersEnded (s := s) (o := o) (L := L) c
    (s.lines.get L).holders).monitorsEnded (s := s) (o := o) (L := L) m).clearingEntered (s := s) (o := o) (L := L) c
  rw [lineEnded_eq, lineEnded_eq, modRing_lines, holdersEnded_modRing]
  exact h

/-- What is released from a state with another detector is released, but for the detector. -/
theorem Released.of_modRing {f : RingDet → RingDet} {c m : Cause} {t : State} (h : Released (s.modRing L f) t o L c m) :
    Released s { t with rings := s.rings } o L c m where
  line := h.line
  presence := h.presence
  bindings := h.bindings
  channels := h.channels
  freed := h.freed
  bridges := h.bridges
  log := h.log.trans (toldAlike_lineEnded f c m).log
  notices := (toldAlike_lineEnded f c m).notices.trans h.notices
  calls := h.calls
  rest := ⟨(congrArg (fun v : State => { v with rings := s.rings }) h.rest.1 :), h.rest.2⟩

/-- A call whose far end clears, once the detector has moved (R78). -/
theorem released_farClear (hs : InCall s L) (f : RingDet → RingDet) :
    Released s { teardownLine L .farClear ((s.modRing L f).begin o) with rings := s.rings } o L
      .farClear .farClear := by
  have hon : OnCall (s.modRing L f) L :=
    ⟨hs.onCall.state, hs.onCall.holders, hs.onCall.monitors, hs.onCall.once, hs.onCall.pending⟩
  exact (released_teardownLine (o := o) hon (by simp) (by simp) (callEnding_begin _ o L) (Kept.refl _)
    (toldAlike_begin _ o)).of_modRing

end

/-- Settles O56: the detector is set first, then the line block takes the ring in the state that its line is in; a call
whose far end was present is released (`released_farClear`). -/
theorem ringsByState : Obligations.RingsByState := by
  unfold Obligations.RingsByState
  intro L s
  dsimp only
  intro htype hup
  refine ⟨fun hno => ?_, fun hring ht => ?_⟩
  · have hraise := raiseRing_raised (s := s.begin none) ⟨htype, hup⟩ hno
    have hstart : LineStep (ringRaised L (s.begin none)) L (s.lines.get L) s (ringRaised L (s.begin none)) :=
      LineStep.refl (toldAlike_ring _) L
    refine ⟨fun hs q rest hq => ⟨_, rfl, ?_⟩, fun hs => ⟨_, rfl, ?_⟩, fun ht hs => ⟨_, rfl, ?_⟩,
      fun ht hs => ⟨_, rfl, ?_⟩⟩
    · have hlapsed := hstart.post (dest := posRoute (s.begin none) [q])
        (dest' := posRoute (ringRaised L (s.begin none)) [q]) rfl (.offerLapsed L .ring true)
      have h := hlapsed.enterAlerting (by simp [hs])
      rw [hs] at h
      rw [hraise, takeRingStart_offered (s := ringRaised L (s.begin none)) hs hq]
      exact ⟨h.line, h.told.log, h.only_ring, h.told.notices⟩
    · rw [hraise, takeRingStart_alerting (s := ringRaised L (s.begin none)) hs]
      by_cases ht : (s.lines.get L).ltype = .mr
      · rw [if_pos ht, if_pos (by exact ht)]
        exact ⟨rfl, rfl⟩
      · rw [if_neg ht, if_neg (by exact ht)]
        rfl
    · have h := hstart.told.post (dest := posRoute (s.begin none) (s.lines.get L).holdOwner.toList) rfl (.farRing L)
      rw [hraise, takeRingStart_held (s := ringRaised L (s.begin none)) hs, if_pos (by exact ht)]
      exact ⟨rfl, h.notices⟩
    · have hne : ¬ ((ringRaised L (s.begin none)).lines.get L).ltype = .mr := by
        rw [show ((ringRaised L (s.begin none)).lines.get L).ltype = .ar from ht]
        simp
      rw [hraise]
      rcases hs with hs | hs
      · rw [takeRingStart_connected (s := ringRaised L (s.begin none)) hs, if_neg hne]
        exact ⟨rfl, rfl⟩
      · rw [takeRingStart_held (s := ringRaised L (s.begin none)) hs, if_neg hne]
        exact ⟨rfl, rfl⟩
  · have hover := endRing_over (s := s.begin none) ⟨htype, hup⟩ hring
    refine ⟨fun hs => ⟨_, rfl, ?_⟩, fun hs => ⟨_, rfl, ?_⟩, fun hs => ⟨_, rfl, ?_⟩⟩
    · rw [hover, takeRingEnd_call (s := ringOver L (s.begin none)) ht hs]
      by_cases hf : (s.lines.get L).farPresent = false
      · rw [if_pos hf, if_neg (by exact Bool.eq_false_iff.mp hf)]
        rfl
      · rw [if_neg hf, if_pos (by exact Bool.not_eq_false _ ▸ hf)]
        exact fun hcall => released_farClear hcall _
    · rw [hover, takeRingEnd_clearing (s := ringOver L (s.begin none)) ht hs]
      exact ⟨rfl, rfl⟩
    · rw [hover, takeRingEnd_free (s := ringOver L (s.begin none)) ht hs]
      rfl

end Sys2Proof.Machine

namespace Sys2Proof.Machine
open Sys2Proof

section

/-! # LINE_DEFINE (R58, R89, R96, R100) -/

theorem lineCodesOf_eq {f : LineFields} {c : LineCodes} (ht : optCode lineTypeOf f.ltype = some c.ltype)
    (hp : optCode privacyOf f.privacy = some c.privacy) (hr : optCode policyOf f.policy = some c.policy)
    (hm : optCode reloadOf f.reload = some c.reload) : lineCodesOf f = some c := by
  simp [lineCodesOf, ht, hp, hr, hm]

/-- Entry to a state that may be the present one: only a change is told (R85, R153). -/
theorem LineStep.enterState_told {s u t : State} {L : LineId} {r : Line} (h : LineStep s L r u t) (new : LineState)
    (cause : Cause) : LineStep s L { r with state := new }
      (if new = r.state then u else lineReported s L r.state cause { r with state := new } u)
      (Machine.enterState L new cause t) := by
  by_cases hne : new = r.state
  · have hset := h.modLine fun r => { r with state := new }
    have hsame : Machine.enterState L new cause t = t.modLine L fun r => { r with state := new } := by
      have hget := congrArg Line.state hset.get
      unfold Machine.enterState enterStateTo
      exact if_pos (by rw [h.get, ← hne]; exact hget)
    rw [if_pos hne, hsame]
    exact hset
  · rw [if_neg hne]
    exact h.enterState hne cause

/-- The generator and the detector as LINE_DEFINE leaves them: the burst ends, the detector starts again (R96, R100). -/
def signallingDefined (L : LineId) (f : LineFields) (s : State) : State :=
  (s.modGen L fun g => { g with burst := 0 }).modRing L fun _ =>
    RingDet.start (samplesOf (storeSig f (s.lines.get L).sig).preQuiet)

theorem defineLine_eq (L : LineId) (f : LineFields) (c : LineCodes) (s : State) : defineLine L f c s =
    enterState L (definedState s L (c.ltype.getD (s.lines.get L).ltype)) .define
      ((signallingDefined L f s).modLine L (storeLine f c)) := by
  have hget : ((s.lines.modify L (storeLine f c)).get L) = storeLine f c (s.lines.get L) := Tab.get_modify_self ..
  simp only [defineLine, restartDetector, modGen_lines, modLine_lines, modRing_lines, hget]
  rfl

/-- The record that LINE_DEFINE stores, and what it tells of a change of state (R58, R85, R153). -/
theorem lineStep_defineLine {s u : State} {L : LineId} (h : ToldAlike u s) (f : LineFields) (c : LineCodes) :
    LineStep (signallingDefined L f s) L { storeLine f c (s.lines.get L) with
        state := definedState s L (c.ltype.getD (s.lines.get L).ltype) }
      (if definedState s L (c.ltype.getD (s.lines.get L).ltype) = (s.lines.get L).state then u
        else lineReported s L (s.lines.get L).state .define { storeLine f c (s.lines.get L) with
          state := definedState s L (c.ltype.getD (s.lines.get L).ltype) } u)
      (defineLine L f c s) := by
  have hstart : LineStep (signallingDefined L f s) L (s.lines.get L) u (signallingDefined L f s) :=
    LineStep.refl (s := signallingDefined L f s) ⟨h.log, h.time, h.notices⟩ L
  rw [defineLine_eq]
  exact (hstart.modLine (storeLine f c)).enterState_told _ .define

/-- A line that is DISABLED, OUT_OF_SERVICE or IDLE, and no leg of a hoot, is defined (R58). -/
theorem lineDefine_pass {s : State} {L : LineId} {f : LineFields} {c : LineCodes} (hc : lineCodesOf f = some c)
    (hs : (s.lines.get L).state = .disabled ∨ (s.lines.get L).state = .outOfService ∨ (s.lines.get L).state = .idle)
    (hleg : (s.lines.get L).ltype = .ht → legOf s L = none) : lineDefine (idByte L) f s =
      done (bLineFields ((defineLine L f c s).lines.get L)) (defineLine L f c s) := by
  have hdef : (s.lines.get L).state.definable = true := by rcases hs with h | h | h <;> rw [h] <;> rfl
  have hno : ¬ ((s.lines.get L).ltype = .ht ∧ (legOf s L).isSome = true) := fun ⟨ht, hl⟩ => by simp [hleg ht] at hl
  simp only [lineDefine, lineOf_idByte, hc, hdef, Bool.not_true, Bool.false_eq_true, if_false]
  rw [if_neg (by simpa using hno)]

end

/-- Settles O28: the fields are stored in the record, and the entry to the state that follows is told
(`lineStep_defineLine`). -/
theorem lineDefineTaken : Obligations.LineDefineTaken := by
  intro L f c s hlatch hct hcp hcr hcm r hs hleg num off ltype state new u
  have hmay : mayTake s .adm .lineDefine none := ⟨.inl hlatch, rfl, rfl⟩
  have htop (top old : Nat) (v : Option Half) : newValue (clampTop top) old v = num 0 top old v := by
    cases v <;> simp [num, newValue, clampTop]
  have hnum (lo top old : Nat) (v : Option Half) : newValue (clamp lo top) old v = num lo top old v := by
    cases v <;> rfl
  have hoff (top old : Nat) (v : Option Half) : newValue (clampOff 10 top) old v = off top old v := by
    cases v <;> rfl
  have hnew : { storeLine f c r with state := state } = new := by
    simp only [storeLine, storeSig, htop, hnum, hoff]
    rfl
  have h : LineStep (signallingDefined L f (s.begin (some .adm))) L { storeLine f c r with state := state }
      (if state = r.state then s else lineReported (s.begin (some .adm)) L r.state .define
        { storeLine f c r with state := state } s) (defineLine L f c (s.begin (some .adm))) :=
    lineStep_defineLine (toldAlike_begin s (some .adm)) f c
  have hexec := takeRequest_owner (n := {}) hmay (lineDefine (idByte L) f)
  rw [lineDefine_pass (s := s.begin (some .adm)) (lineCodesOf_eq hct hcp hcr hcm) hs hleg, h.get] at hexec
  rw [hnew] at h hexec
  generalize defineLine L f c (s.begin (some .adm)) = t at h hexec
  refine ⟨_, congrArg Host.Outcome.next hexec, noNotice.respond (x := (t, _)) h.told.notices .adm _,
    answered_respond .., h.line, ?_, (congrArg State.gens h.only :), ?_⟩
  · have hrings : t.rings = _ := (congrArg State.rings h.only :)
    refine hrings.trans ?_
    rw [← hnew]
    rfl
  · have hlog : t.log = s.log := h.told.log.trans (by split <;> rfl)
    have e : { t with lines := s.lines, rings := s.rings, gens := s.gens, log := s.log, links := s.links,
                      origin := s.origin, released := s.released } = s :=
      (congrArg (fun v : State =>
        { v with rings := s.rings, gens := s.gens, origin := s.origin, released := s.released }) h.only :)
    rw [← hlog] at e
    exact e

section

/-! # LINE_SIGNAL and CAMP_CANCEL (R74, R80, R98) -/

theorem submit_only (r : Record) (s : State) : { submit r s with log := s.log, links := s.links } = s := by
  rw [submit_eq]

/-- A step that writes no record leaves the log as well. -/
theorem LineStep.only_unlogged {s u t : State} {o : Option LinkId} {L : LineId} {r : Line}
    (h : LineStep (s.begin o) L r u t) (hlog : t.log = s.log) :
    { t with lines := s.lines, links := s.links, origin := s.origin, released := s.released } = s := by
  have e := h.only_begin
  rwa [← hlog] at e

/-- A holder signals on a CONNECTED line of type MR (R80). -/
theorem lineSignal_pass {s : State} {L : LineId} {p : PosId} (ht : (s.lines.get L).ltype = .mr)
    (hs : (s.lines.get L).state = .connected) (hh : ∃ e, (p, e) ∈ (s.lines.get L).holders) :
    lineSignal (idByte L) p s = done [] (submit { kind := .ringOut, line := some L, pos := some p }
      (s.modGen L fun g => { g with burst := (s.lines.get L).sig.outBurst })) := by
  obtain ⟨e, he⟩ := hh
  have hentry : (holderEntry s L p).isSome = true := by
    simp only [holderEntry, Option.isSome_map, List.find?_isSome]
    exact ⟨(p, e), he, by simp⟩
  simp [lineSignal, ht, holdsLine, hs, hentry]

section
variable {s : State} {L : LineId} {p : PosId}

theorem campCancel_absent (h : p ∉ (s.lines.get L).camp) : campCancel (idByte L) p s = done [0#8] s := by
  simp [campCancel, h, bYes, b1]

theorem campCancel_waiting (h : p ∈ (s.lines.get L).camp)
    (hno : ¬ ((s.lines.get L).state = .offered ∧ (s.lines.get L).camp.head? = some p)) :
    campCancel (idByte L) p s = done [1#8] (removeCamp L p s) := by
  have hoff : isOffered (s.lines.get L) p = false := by simpa [isOffered] using hno
  simp [campCancel, h, hoff, bYes, b1]

theorem campCancel_offered {rest : List PosId} (hs : (s.lines.get L).state = .offered)
    (hc : (s.lines.get L).camp = p :: rest) :
    campCancel (idByte L) p s = done [1#8] (campRemove L p .cancelled s) := by
  have hoff : isOffered (s.lines.get L) p = true := by simp [isOffered, hs, hc]
  simp [campCancel, hc, hoff, bYes, b1]
end

end

/-- Settles O35: LINE_SIGNAL is one change of the generator and one record; CAMP_CANCEL takes the position out of the
queue, and of the offered party it is `campRemove`. -/
theorem lineSignalCamp : Obligations.LineSignalCamp := by
  intro l p L s hopen r
  refine ⟨?_, fun hmay => ?_⟩
  · intro hmay ht hs hh u
    have hexec := positionRequest_owner hmay {} (fun _ => hopen) (by simp) {} (lineSignal (idByte L))
    rw [lineSignal_pass (s := s.begin (some l)) ht hs hh] at hexec
    have hgen : ToldAlike s ((s.begin (some l)).modGen L fun g => { g with burst := r.sig.outBurst }) :=
      (toldAlike_begin s (some l)).quiet rfl rfl rfl
    have htold := hgen.submit { kind := .ringOut, line := some L, pos := some p }
    have honly := submit_only { kind := .ringOut, line := some L, pos := some p }
      ((s.begin (some l)).modGen L fun g => { g with burst := r.sig.outBurst })
    refine ⟨_, congrArg Host.Outcome.next hexec, answered_respond .., noNotice.respond (x := (_, _)) htold.notices l _,
      htold.log, submit_gens .., ?_⟩
    exact (congrArg (fun v : State => { v with gens := s.gens, origin := s.origin, released := s.released }) honly :)
  · have hexec := positionRequest_owner hmay {} (fun _ => hopen) (by simp) {} (campCancel (idByte L))
    have hstart : LineStep (s.begin (some l)) L r s (s.begin (some l)) := LineStep.refl (toldAlike_begin s (some l)) L
    refine ⟨fun hp => ?_, fun hp hno => ?_, fun q rest hc hp hs => ?_, fun hc hs => ?_⟩
    · rw [campCancel_absent (s := s.begin (some l)) hp] at hexec
      exact ⟨_, congrArg Host.Outcome.next hexec, rfl, (noNotice.refl s).respond l _, answered_respond ..⟩
    · rw [campCancel_waiting (s := s.begin (some l)) hp hno] at hexec
      exact ⟨_, congrArg Host.Outcome.next hexec, (noNotice.refl s).respond l _, answered_respond .., rfl, rfl⟩
    · have h := hstart.campRemove_next hs hc hp .cancelled
      rw [campCancel_offered (s := s.begin (some l)) hs hc] at hexec
      exact ⟨_, congrArg Host.Outcome.next hexec, answered_respond .., h.line,
        noNotice.respond (x := (_, _)) h.told.notices l _, h.only_unlogged h.told.log⟩
    · have h := hstart.campRemove_last hs hc .cancelled
      rw [campCancel_offered (s := s.begin (some l)) hs hc] at hexec
      exact ⟨_, congrArg Host.Outcome.next hexec, answered_respond .., h.line,
        noNotice.respond (x := (_, _)) h.told.notices l _, h.only_unlogged h.told.log⟩

section

/-! # FORCE_DROP (R82) -/

theorem teardownLine_id {s : State} {L : LineId} (hc : (s.lines.get L).state ≠ .connected)
    (hh : (s.lines.get L).state ≠ .held) (c : Cause) : teardownLine L c s = s := by
  unfold teardownLine
  split
  · rename_i h
    exact absurd h hc
  · rename_i h
    exact absurd h hh
  · rfl

theorem releasedCounts_id {r : Line} (hc : r.state ≠ .connected) (hh : r.state ≠ .held) :
    releasedCounts r = b2 0 ++ b2 0 ++ b2 0 := by
  unfold releasedCounts
  split
  · rename_i h
    exact absurd h hc
  · rename_i h
    exact absurd h hh
  · rfl

/-- The counts of a line in a call: holders and monitors, or one hold (R82). -/
theorem releasedCounts_inCall {s : State} {L : LineId} (h : InCall s L) : releasedCounts (s.lines.get L) =
    b2 (s.lines.get L).holders.length ++
      (if (s.lines.get L).state = .held then b2 0 ++ b2 1 else b2 (s.lines.get L).monitors.length ++ b2 0) := by
  unfold releasedCounts
  rcases h.state with hs | ⟨hs, hn, -⟩
  · simp [hs]
  · simp [hs, hn]

/-- A request is answered on its link, which no release looks at. -/
theorem Released.respond {s t : State} {o : Option LinkId} {L : LineId} {c m : Cause} (h : Released s t o L c m)
    (l : LinkId) (kind : Byte) (r : Response) : Released s (Machine.respond l kind (t, r)) o L c m :=
  h.congr rfl (noNotice.respond (x := (t, r)) (noNotice.refl t) l kind)

end

/-- Settles O36: a line in a call is torn down and so released (`released_teardownLine`); any other stands. -/
theorem forceDropTaken : Obligations.ForceDropTaken := by
  intro L s hlatch r htype
  have hmay : mayTake s .adm .forceDrop none := ⟨.inl hlatch, rfl, rfl⟩
  have htake : ((s.begin (some .adm)).lines.get L).ltype.takeable = true := by
    rcases htype with h | h <;> exact congrArg LineType.takeable h
  have hdrop : forceDrop (idByte L) (s.begin (some .adm)) =
      done (releasedCounts r) (teardownLine L .admin (s.begin (some .adm))) := by
    simp only [forceDrop, lineOf_idByte, htake, Bool.not_true, Bool.false_eq_true, if_false]
    rfl
  have hexec := takeRequest_owner (n := {}) hmay (forceDrop (idByte L))
  rw [hdrop] at hexec
  refine ⟨fun hc hh => ?_, fun hcall => ?_⟩
  · rw [teardownLine_id (s := s.begin (some .adm)) hc hh, releasedCounts_id hc hh] at hexec
    exact ⟨_, congrArg Host.Outcome.next hexec, rfl, (noNotice.refl s).respond .adm _, answered_respond ..⟩
  · have hrel := released_teardownLine hcall.onCall (c := .admin) (by simp) (by simp) (callEnding_begin s (some .adm) L)
      (Kept.refl _) (toldAlike_begin s (some .adm))
    rw [releasedCounts_inCall hcall] at hexec
    exact ⟨_, congrArg Host.Outcome.next hexec, hrel.respond .adm _ _, answered_respond ..⟩

end Sys2Proof.Machine

namespace Sys2Proof.Machine
open Sys2Proof

section

/-! # LINE_TAKE: held already, MONITOR, and refused with or without CAMP (R59, R60, R63, R64) -/

/-- A MONITOR take passes steps 1 to 4 of R59. -/
theorem exec_lineTake_monitor {l : LinkId} {p : PosId} {e : Endpoint} {L : LineId} {fl : Byte} {s : State}
    (hmay : mayTake s l .lineTake (some p)) (ho : (s.positions.get p).isOpen = true) (hu : s.posUp p = true)
    (hm : s.mayMonitor p L = true) (he : e = .ha ∨ e = .hb) (hfl : fl.getLsbD 2 = true)
    (ht : (s.lines.get L).ltype = .mr ∨ (s.lines.get L).ltype = .ar) :
    exec (.lineTake l (idByte p) (endByte e) (idByte L) fl) s = .next (respond l (BitVec.ofNat 8 ReqKind.lineTake.code)
      (monitorTake L p e (fl.getLsbD 1) (s.begin (some l)))) := by
  refine congrArg Host.Outcome.next ((positionRequest_owner hmay _ (fun _ => ho) (fun _ => hu) _ _).trans ?_)
  have hflags : takeFlagsOf fl = ⟨fl.getLsbD 0, fl.getLsbD 1, true⟩ := by rw [takeFlagsOf, hfl]
  have hcan : canTake true e = true := by rcases he with rfl | rfl <;> rfl
  have htake : (s.lines.get L).ltype.takeable = true := by rcases ht with h | h <;> rw [h] <;> rfl
  have hperm : takePermitted (s.begin (some l)) p L true = true := hm
  simp [lineTake, hflags, hcan, htake, hperm, decideTake]

section
variable {s : State} {L : LineId} {p : PosId} {e : Endpoint}

/-- An endpoint that is bound to nothing gives nothing up (R7). -/
theorem displace_free (h : s.binding p e = .none) (park keep : Bool) : displace p e park keep s = s := by
  simp [displace, h]

theorem holderEntry_eq_none (h : ∀ x ∈ (s.lines.get L).holders, x.1 ≠ p) : holderEntry s L p = none := by
  simpa [holderEntry] using fun a b hab => h (a, b) hab

theorem maxHolders_eq (v : Privacy) : maxHolders v = if v = .shared then 4 else 1 := by cases v <;> rfl

/-- A monitor is appended to a CONNECTED line with room (R64). -/
theorem monitorTake_pass (hfree : s.binding p e = .none) (hs : (s.lines.get L).state = .connected)
    (hp : ∀ x ∈ (s.lines.get L).holders ++ (s.lines.get L).monitors, x.1 ≠ p)
    (hroom : (s.lines.get L).monitors.length < 4) (park : Bool) : monitorTake L p e park s =
      (bind p e (.monitor L) (s.modLine L fun r => { r with monitors := r.monitors ++ [(p, e)] }),
        ⟨.done, b1 5 ++ b2 ((s.lines.get L).monitors.length + 1)⟩) := by
  have hheld : ((s.lines.get L).holders.any fun x => x.1 = p) = false :=
    List.any_eq_false.mpr fun x hx => by simpa using hp x (List.mem_append_left _ hx)
  have hmon : ((s.lines.get L).monitors.any fun x => x.1 = p) = false :=
    List.any_eq_false.mpr fun x hx => by simpa using hp x (List.mem_append_right _ hx)
  have hfull : ¬ Config.maxSharing ≤ (s.lines.get L).monitors.length := Nat.not_le.mpr hroom
  simp only [monitorTake, displace_free hfree, hs, hheld, hmon, hfull, if_false, ne_eq, not_true, Bool.or_self,
    Bool.false_eq_true, bind_eq, modPos_lines, modLine_lines, Tab.get_modify_self, List.length_append]
  rfl

/-- An endpoint that holds the line already is answered with the body of R62 (R59). -/
theorem decideTake_held {f : TakeFlags} (hf : f.monitor = false) (h : holderEntry s L p = some e) :
    decideTake L p e f s = done (takeBody s L p e .none) s := by
  simp [decideTake, hf, h]

theorem decideTake_holder {f : TakeFlags} (hf : f.monitor = false) (h : holderEntry s L p = none) :
    decideTake L p e f s = holderTake L p e f s := by
  simp [decideTake, hf, h]

/-- A take that the state of the line refuses: the refusal, or with CAMP the queue (R60, R63). -/
theorem holderTake_refused {res : Result} (h : takeCourse (s.lines.get L) p = .refused res) (f : TakeFlags) :
    holderTake L p e f s =
      if f.camp && (res = .busy || res = .guard) then campTake L p s else (s, .bare res) := by
  simp only [holderTake, h]

theorem campTake_waiting (h : p ∈ (s.lines.get L).camp) : campTake L p s = (s, .bare .duplicate) := by
  simp [campTake, h]

theorem campTake_full (h : p ∉ (s.lines.get L).camp) (hn : 8 ≤ (s.lines.get L).camp.length) :
    campTake L p s = (s, .bare .full) := by
  simp [campTake, h, Config.maxWaiting, hn]

theorem campTake_joins (h : p ∉ (s.lines.get L).camp) (hn : ¬ 8 ≤ (s.lines.get L).camp.length) :
    campTake L p s = (s.modLine L fun r => { r with camp := r.camp ++ [p] },
      ⟨.camped, [BitVec.ofNat 8 (s.lines.get L).camp.length]⟩) := by
  simp [campTake, h, Config.maxWaiting, hn, b1]

/-- The refusals of the table of R60. -/
theorem takeCourse_refused {r : Line} {res : Result}
    (h : res = .busy ∧ (r.state = .offered ∧ r.camp.head? ≠ some p ∨
          r.state = .connected ∧ (if r.privacy = .shared then 4 else 1) ≤ r.holders.length ∨
          r.state = .held ∧ r.holdOwner ≠ some p ∧ r.privacy = .single) ∨
        res = .guard ∧ r.state = .clearing ∨ res = .facility ∧ r.state = .outOfService) :
    takeCourse r p = .refused res := by
  rcases h with ⟨rfl, ⟨hs, hq⟩ | ⟨hs, hn⟩ | ⟨hs, ho, hv⟩⟩ | ⟨rfl, hs⟩ | ⟨rfl, hs⟩
  · simp [takeCourse, hs, hq]
  · rw [← maxHolders_eq] at hn
    simp [takeCourse, hs, Nat.not_lt.mpr hn]
  · simp [takeCourse, hs, ho, hv]
  · simp [takeCourse, hs]
  · simp [takeCourse, hs]
end

end

/-- Settles O31: the course of the take is `decideTake_held`, `monitorTake_pass` or `holderTake_refused`. -/
theorem lineTakeOther : Obligations.LineTakeOther := by
  intro l p e L fl s hmay hopen hup he r htype c
  refine ⟨fun hfl happ hheld => ?_, fun hfl hperm hh hfree hs hp hroom => ?_, fun hfl happ hp res hres => ?_⟩
  · have hexec := exec_lineTake hmay hopen hup happ he hfl htype
    rw [decideTake_held (s := s.begin (some l)) rfl hheld] at hexec
    refine ⟨_, hexec, rfl, (noNotice.refl s).respond l _, ?_⟩
    exact (answered_respond ..)
  · have hexec := exec_lineTake_monitor hmay hopen hup hperm hh hfl htype
    rw [monitorTake_pass (s := s.begin (some l)) hfree hs hp hroom] at hexec
    exact ⟨_, hexec, (noNotice.refl s).respond l _, answered_respond .., rfl, rfl, rfl⟩
  · have hexec := exec_lineTake hmay hopen hup happ he hfl htype
    rw [decideTake_holder (s := s.begin (some l)) rfl (holderEntry_eq_none hp),
      holderTake_refused (s := s.begin (some l)) (takeCourse_refused hres)] at hexec
    have hcamp : (fl.getLsbD 0 = true ∧ res ≠ .facility) ↔
        (fl.getLsbD 0 && (decide (res = .busy) || decide (res = .guard))) = true := by
      rcases hres with ⟨rfl, -⟩ | ⟨rfl, -⟩ | ⟨rfl, -⟩ <;> simp
    by_cases hc : fl.getLsbD 0 = true ∧ res ≠ .facility
    · rw [if_pos (hcamp.mp hc)] at hexec
      by_cases hin : p ∈ r.camp
      · rw [campTake_waiting (s := s.begin (some l)) hin] at hexec
        refine ⟨_, hexec, (noNotice.refl s).respond l _, ?_⟩
        rw [if_pos hc, if_pos hin]
        exact ⟨answered_respond .., rfl⟩
      · by_cases hn : 8 ≤ r.camp.length
        · rw [campTake_full (s := s.begin (some l)) hin hn] at hexec
          refine ⟨_, hexec, (noNotice.refl s).respond l _, ?_⟩
          rw [if_pos hc, if_neg hin, if_pos hn]
          exact ⟨answered_respond .., rfl⟩
        · rw [campTake_joins (s := s.begin (some l)) hin hn] at hexec
          refine ⟨_, hexec, (noNotice.refl s).respond l _, ?_⟩
          rw [if_pos hc, if_neg hin, if_neg hn]
          exact ⟨answered_respond .., rfl, rfl⟩
    · rw [if_neg (fun h => hc (hcamp.mpr h))] at hexec
      refine ⟨_, hexec, (noNotice.refl s).respond l _, ?_⟩
      rw [if_neg hc]
      exact ⟨answered_respond .., rfl⟩

end Sys2Proof.Machine

namespace Sys2Proof.Machine
open Sys2Proof

section

/-! # Holder takes, committed (R60 to R62, R70)

What each step of a holder take by a free endpoint leaves, for a line of either type, with or without a channel. -/

/-! ## The steps of the take, each as one change -/

/-- The record of a line that gains a holder (R60, R62, R70). -/
def Line.heldAlso (p : PosId) (e : Endpoint) (r : Line) : Line := { r with
  state := .connected
  holders := r.holders ++ [(p, e)]
  holdOwner := none
  timer := none
  camp := r.camp.filter (· ≠ p)
  farPresent := r.farPresent || (r.ltype = .ar && r.state = .alerting) }

/-- A bridge with other entries: the flag re-evaluated, the idle timer taken as after a join (R37, R39). -/
def Bridge.holding (s : State) (r : Bridge) (cs : List Contrib) : Bridge :=
  ({ r with contributors := cs } : Bridge).reflag s |>.rearm s

/-- The channels once channel `ch`, if any, is given to an endpoint's binding (R156). -/
def channelsGiven (s : State) (p : PosId) (e : Endpoint) (b : BridgeId) : Option ChanId → Tab (Option Channel) 64
  | some c => s.channels.set c (some ⟨p, e, none, b, since s⟩)
  | none => s.channels

/-- The CONNECT or RETRIEVE record of a take (R62 step 6, R70). -/
def takenRecord (L : LineId) (p : PosId) (e : Endpoint) (b : BridgeId) (kind : RecordKind) (ch : Option ChanId)
    (parties : List (PosId × Endpoint)) : Record :=
  { kind := kind, line := some L, bridge := some b, pos := some p, endpoint := some e, channel := ch,
    parties := some parties }

/-- What a take reports of a line that has the record `r` now: a join LINE_STATE alone (R85, R153). -/
def takeReported (s : State) (L : LineId) (old : LineState) (r : Line) (u : State) : State :=
  if old = .connected then
    post (lineRoute s L) (.lineState L r.state r.holders.length r.holdOwner r.camp.length) u
  else lineReported s L old .take r u

section
variable (L : LineId) (p : PosId) (e : Endpoint) (b : BridgeId) (s : State)

theorem joinEndpoint_only (n : Nat) : { joinEndpoint p e b n s with bridges := s.bridges } = s := by
  unfold joinEndpoint
  split
  · rw [join_eq]
  · rfl

/-- A join looks at the bridges, at what is ACTIVE, and at the gain of the endpoint. -/
theorem joinEndpoint_congr {t : State} (hb : t.bridges = s.bridges) (ha : t.active = s.active)
    (hg : (t.positions.get p).gain e = (s.positions.get p).gain e) (n : Nat) :
    (joinEndpoint p e b n t).bridges = (joinEndpoint p e b n s).bridges := by
  have hflag : Bridge.reflag t = Bridge.reflag s := by
    funext r
    simp only [Bridge.reflag, anyActive, ha]
  have harm : Bridge.rearm t = Bridge.rearm s := by
    funext r
    simp only [Bridge.rearm, selectedActive, ha]
    rfl
  unfold joinEndpoint
  split
  · have hans (x : SourceId) : joinAnswer t b x = joinAnswer s b x := by simp only [joinAnswer, hb]
    unfold join
    rw [hans, hg]
    split
    · exact hb
    · simp only [modBridge_bridges, hb, hflag, harm]
  · exact hb

/-- The holder in its place: entry, binding and source, before an AR line's presence (R62). -/
def holderSeated : State :=
  (joinEndpoint p e b 0 (bind p e (.holder L) (s.modLine L fun r => { r with
    holders := r.holders ++ [(p, e)]
    holdOwner := none
    timer := none
    camp := r.camp.filter (· ≠ p)
    farPresent := r.farPresent || (r.ltype = .ar && r.state = .alerting) }))).modLine L
      fun r => { r with state := .connected }

theorem holderSeated_lines : (holderSeated L p e b s).lines = s.lines.modify L (Line.heldAlso p e) := by
  simp only [holderSeated, modLine_lines, joinEndpoint_lines, bind_eq, modPos_lines, Tab.modify_modify]
  rfl

theorem holderSeated_positions :
    (holderSeated L p e b s).positions = s.positions.modify p fun x => x.setBinding e (.holder L) := by
  simp [holderSeated]

theorem holderSeated_bridges : (holderSeated L p e b s).bridges = (joinEndpoint p e b 0 s).bridges := by
  unfold holderSeated
  refine (modLine_bridges ..).trans (joinEndpoint_congr p e b s ?_ ?_ ?_ 0)
  · rfl
  · rfl
  · rw [bind_eq, modPos_positions, Tab.get_modify_self, Position.gain_setBinding]
    rfl

theorem holderSeated_only : { holderSeated L p e b s with
    lines := s.lines, bridges := s.bridges, positions := s.positions } = s :=
  (congrArg (fun v : State => { v with lines := s.lines, positions := s.positions })
    (joinEndpoint_only p e b (bind p e (.holder L) (s.modLine L fun r => { r with
      holders := r.holders ++ [(p, e)]
      holdOwner := none
      timer := none
      camp := r.camp.filter (· ≠ p)
      farPresent := r.farPresent || (r.ltype = .ar && r.state = .alerting) })) 0) :)

/-- The first holder of an AR line seizes it (R62 step 4). -/
theorem takeHolder_seated : takeHolder L p e b s =
    { holderSeated L p e b s with
      gens := if (s.lines.get L).ltype = .ar ∧ (s.lines.get L).holders = [] then
          s.gens.modify L fun g => { g with sustained := true }
        else s.gens } := by
  have hgens : (holderSeated L p e b s).gens = s.gens := by simp [holderSeated]
  by_cases h : (s.lines.get L).ltype = .ar ∧ (s.lines.get L).holders = []
  · have hseize : (decide ((s.lines.get L).ltype = .ar) && (s.lines.get L).holders.isEmpty) = true := by simp [h]
    rw [if_pos h, ← hgens]
    unfold takeHolder
    simp only [hseize]
    rfl
  · have hseize : (decide ((s.lines.get L).ltype = .ar) && (s.lines.get L).holders.isEmpty) = false := by
      simpa using h
    rw [if_neg h, ← hgens]
    unfold takeHolder
    simp only [hseize]
    rfl

theorem takeHolder_lines : (takeHolder L p e b s).lines = s.lines.modify L (Line.heldAlso p e) := by
  rw [takeHolder_seated, ← holderSeated_lines L p e b s]

theorem takeHolder_positions :
    (takeHolder L p e b s).positions = s.positions.modify p fun x => x.setBinding e (.holder L) := by
  rw [takeHolder_seated, ← holderSeated_positions L p e b s]

theorem takeHolder_bridges : (takeHolder L p e b s).bridges = (joinEndpoint p e b 0 s).bridges := by
  rw [takeHolder_seated, ← holderSeated_bridges L p e b s]

theorem takeHolder_only : { takeHolder L p e b s with
    lines := s.lines, bridges := s.bridges, positions := s.positions, gens := s.gens } = s := by
  rw [takeHolder_seated]
  exact (congrArg (fun v : State => { v with gens := s.gens }) (holderSeated_only L p e b s) :)

theorem takeBridge_only : { takeBridge L b s with lines := s.lines, bridges := s.bridges } = s := by
  have hjoin := join_eq b (lineSource L) 1024 0 .owner
    (claimBridge b (.line L) (1000 * (s.lines.get L).autoReleaseS) (s.lines.get L).reload s)
  exact (congrArg (fun v : State => { v with lines := s.lines, bridges := s.bridges }) hjoin :)

theorem takeReport_only (old : LineState) : { takeReport L old s with links := s.links } = s := by
  unfold takeReport
  split
  · rfl
  · rw [reportChange_eq]
end

/-! ## The bridge of a new call -/

theorem join_holding {b : BridgeId} {x : SourceId} {s : State} (h : joinAnswer s b x = none) (gain shift : Nat)
    (o : Origin) : (join b x gain shift o s).bridges = s.bridges.modify b fun r =>
      r.holding s (r.contributors ++ [⟨x, min gain 4095, min shift 12, o⟩]) := by
  unfold join
  rw [h]
  rfl

section
variable {L : LineId} {p : PosId} {e : Endpoint} {b : BridgeId} {s : State}

/-- A bridge claimed for a line, before its source joins. -/
def Bridge.claimed (L : LineId) (r : Line) : Bridge :=
  { Bridge.reset with use := .line L, period := 1000 * r.autoReleaseS, mask := r.reload }

theorem takeBridge_set : (takeBridge L b s).bridges =
    s.bridges.set b ((Bridge.claimed L (s.lines.get L)).holding s [⟨lineSource L, 1024, 0, .owner⟩]) := by
  generalize hu : claimBridge b (.line L) (1000 * (s.lines.get L).autoReleaseS) (s.lines.get L).reload s = u
  have hub : u.bridges = s.bridges.set b (Bridge.claimed L (s.lines.get L)) := by rw [← hu]; rfl
  have hans : joinAnswer u b (lineSource L) = none := joinAnswer_eq_none (by rw [hub, Tab.get_set_self]; rfl)
    (by rw [hub, Tab.get_set_self]; exact Nat.zero_lt_succ 11)
  have he : (takeBridge L b s).bridges = (join b (lineSource L) 1024 0 .owner u).bridges := by rw [← hu]; rfl
  rw [he, join_holding hans, hub]
  apply Tab.ext_get
  intro d
  simp only [Tab.get_modify, Tab.get_set, if_true]
  split
  · rw [← hu]
    rfl
  · rfl

/-- The bridge of a new call: the line's source, then the handset's (R20, R22, R62). -/
theorem takeHolder_fresh_bridges : (takeHolder L p e b (takeBridge L b s)).bridges =
    s.bridges.set b ((Bridge.claimed L (s.lines.get L)).holding s
      (⟨lineSource L, 1024, 0, .owner⟩ :: endpointEntry p e (s.positions.get p))) := by
  have hset := takeBridge_set (L := L) (b := b) (s := s)
  rw [takeHolder_bridges]
  unfold joinEndpoint endpointEntry
  split
  · rename_i x hx
    have hget := congrArg (·.get b) hset
    simp only [Tab.get_set_self] at hget
    have hhas : ((takeBridge L b s).bridges.get b).has x = false := by
      rw [hget]
      simp [Bridge.has, Bridge.holding, Bridge.rearm, Bridge.reflag, (endpointSource_ne_lineSource hx L).symm]
    rw [join_holding (joinAnswer_eq_none hhas (by rw [hget]; exact Nat.one_lt_succ_succ 10)), hx, takeBridge_positions]
    apply Tab.ext_get
    intro d
    simp only [Tab.get_modify, hset, Tab.get_set]
    split
    · have hactive : (takeBridge L b s).active = s.active := (congrArg State.active (takeBridge_only L b s) :)
      simp only [Bridge.holding, Bridge.rearm, Bridge.reflag, selectedActive, anyActive, hactive]
      rfl
    · rfl
  · rename_i hx
    rw [hset, hx]
    rfl

/-! ## The channel -/

theorem anyFree_of {c : ChanId} (h : s.channels.get c = none) : anyFree s = true := by
  simp only [anyFree, List.any_eq_true, Tab.mem_list]
  exact ⟨none, ⟨c, h⟩, rfl⟩

theorem anyFree_eq_false (h : ∀ c, s.channels.get c ≠ none) : anyFree s = false := by
  simp only [anyFree, List.any_eq_false, Tab.mem_list]
  rintro x ⟨c, rfl⟩
  simpa using h c

theorem freeChannel_eq {c : ChanId} (hr : s.released = []) (hc : s.channels.get c = none)
    (hlow : ∀ d, d < c → s.channels.get d ≠ none) : freeChannel s = some c := by
  unfold freeChannel ids
  rw [List.find?_eq_some_iff_getElem]
  refine ⟨by simp [hc, hr], c.val, by simp, by simp, fun j hj => ?_⟩
  simpa [hr, Option.isSome_iff_ne_none] using hlow ⟨j, by omega⟩ hj

theorem freeChannel_eq_none (h : ∀ c, s.channels.get c ≠ none) : freeChannel s = none := by
  simpa [freeChannel, ids] using fun c hc => absurd hc (h c)

/-- The channel that a binding without one is given: none under policy NONE, otherwise the lowest FREE one (R156). -/
theorem takeRecording_given {ch : Option ChanId} (hr : s.released = []) (hnone : channelAt s p e = none)
    (hgive : if (s.lines.get L).policy = .none then ch = none
      else ∃ c, ch = some c ∧ s.channels.get c = none ∧ ∀ d, d < c → s.channels.get d ≠ none) :
    takeRecording L p e b s = { s with channels := channelsGiven s p e b ch } ∧
      channelAt (takeRecording L p e b s) p e = ch := by
  unfold takeRecording
  split at hgive
  · rename_i hp
    subst hgive
    rw [if_pos hp]
    exact ⟨rfl, hnone⟩
  · rename_i hp
    obtain ⟨c, rfl, hc, hlow⟩ := hgive
    have hassign : assign p e none b (some L) none s = s.setChan c (some ⟨p, e, none, b, since s⟩) := by
      rw [assign, freeChannel_eq hr hc hlow]
    rw [if_neg hp, hnone, hassign]
    exact ⟨rfl, channelAt_of_set (r := ⟨p, e, none, b, since s⟩) hnone rfl rfl rfl⟩

/-- Without a FREE channel, a binding that wants one leaves UNRECORDED (R163). -/
theorem takeRecording_unrecorded (hp : (s.lines.get L).policy ≠ .none) (hnone : channelAt s p e = none)
    (hfull : ∀ c, s.channels.get c ≠ none) :
    takeRecording L p e b s = submit (unrecorded p e none b (some L) none) s := by
  rw [takeRecording, if_neg hp, hnone]
  simp only [assign, freeChannel_eq_none hfull]

/-! ## The record and the report -/

/-- LINE_STATE of a line that stays as it is (R85). -/
theorem ToldAlike.reportLine {u t : State} {r : Line} (h : ToldAlike u t) (hf : t.frame = s.frame)
    (hr : t.lines.get L = r) :
    ToldAlike (Machine.post (lineRoute s L) (.lineState L r.state r.holders.length r.holdOwner r.camp.length) u)
      (Machine.reportLine L t) := by
  have hline : lineNotice t L = .lineState L r.state r.holders.length r.holdOwner r.camp.length := by
    rw [lineNotice, hr]
  unfold Machine.reportLine reportLineTo
  rw [hline]
  refine h.post ?_ _
  funext l
  simp [lineRoute_of_frame hf, posRoute]

theorem ToldAlike.takeReport {u t : State} {old : LineState} {r : Line} (h : ToldAlike u t) (hf : t.frame = s.frame)
    (hr : t.lines.get L = r) (hs : r.state = .connected) :
    ToldAlike (takeReported s L old r u) (Machine.takeReport L old t) := by
  unfold Machine.takeReport takeReported
  split
  · exact h.reportLine hf hr
  · rename_i hne
    exact h.reportChange hf (fun e => hne (e.symm.trans hs)) (by rw [hr]) (by rw [hr]) (by rw [hr]) (by rw [hr]) .take

/-- Steps 6 and 7 of R62, once the line has its holder and the binding its channel. -/
theorem takeEnd {u t : State} {old : LineState} {r : Line} {ch : Option ChanId} {kind : RecordKind}
    (h : ToldAlike u t) (hf : t.frame = s.frame) (hr : t.lines.get L = r) (hs : r.state = .connected)
    (hch : channelAt t p e = ch) :
    ToldAlike (takeReported s L old r (submit (takenRecord L p e b kind ch r.holders) u))
      (Machine.takeReport L old (submit (takeRecord t L p e b kind) t)) ∧
    { Machine.takeReport L old (submit (takeRecord t L p e b kind) t) with log := t.log, links := t.links } = t := by
  have hrec : takeRecord t L p e b kind = takenRecord L p e b kind ch r.holders := by
    rw [takeRecord, hch, hr]
    rfl
  refine ⟨?_, ?_⟩
  · rw [hrec]
    exact (h.submit _).takeReport ((submit_frame _ t).trans hf) ((congrArg (·.get L) (submit_lines _ t)).trans hr) hs
  · have hrep := takeReport_only L (submit (takeRecord t L p e b kind) t) old
    have hlast := congrArg (fun v : State => { v with log := t.log, links := t.links }) hrep
    exact (show _ = _ from hlast).trans (submit_only (takeRecord t L p e b kind) t)

/-! ## The take as one step -/

theorem takeDisplace_free (hfree : s.binding p e = .none) (hm : ∀ x ∈ (s.lines.get L).monitors, x.1 ≠ p) (park : Bool) :
    takeDisplace L p e park s = s := by
  have hnone : (s.lines.get L).monitors.filter (fun x => x.1 = p) = [] := by
    simpa [List.filter_eq_nil_iff] using fun a b hab => hm (a, b) hab
  simp only [takeDisplace, displace_free hfree, hnone]
  rfl

/-- A take by a free endpoint, step by step. -/
theorem commitTake_free (hfree : s.binding p e = .none) (hm : ∀ x ∈ (s.lines.get L).monitors, x.1 ≠ p) (park : Bool)
    {course : TakeCourse} {start t : State} (hstart : (if course = .fresh then takeBridge L b else id) s = start)
    (ht : takeRecording L p e b (takeHolder L p e b start) = t) : commitTake L p e park course b s =
      (submit (takeRecord t L p e b (if course = .retrieves then .retrieve else .connect)) t
        |> takeReport L (s.lines.get L).state) := by
  simp only [commitTake, takeDisplace_free hfree hm, hstart, ht]

/-- A holder take whose checks pass is committed (R61, R62). -/
theorem holderTake_commits {course : TakeCourse} (hcourse : takeCourse (s.lines.get L) p = course)
    (hne : ∀ res, course ≠ .refused res) (hchecks : takeChecks s L p e course = none)
    (hb : takeBridgeOf s L course = some b) (f : TakeFlags) : holderTake L p e f s =
      (commitTake L p e f.park course b s,
        ⟨.done, takeBody (commitTake L p e f.park course b s) L p e (s.binding p e)⟩) := by
  unfold holderTake
  rw [hcourse]
  cases course with
  | refused res => exact absurd rfl (hne res)
  | fresh => simp only [hchecks, hb]
  | joins => simp only [hchecks, hb]
  | retrieves => simp only [hchecks, hb]

theorem recordingCheck_pass (h : (s.lines.get L).policy = .required →
    (∃ c, s.channels.get c = none) ∧ s.log.level ≠ .lost ∧ s.timeValid = true) : recordingCheck s L p e = none := by
  unfold recordingCheck
  by_cases hp : (s.lines.get L).policy = .required
  · obtain ⟨⟨c, hc⟩, hlog, htime⟩ := h hp
    simp [hp, admission, anyFree_of hc, hlog, htime]
  · rw [if_pos hp]

/-- The policy under which the channel `ch` is given leaves a REQUIRED line recordable. -/
theorem recordingCheck_given {ch : Option ChanId}
    (hgive : if (s.lines.get L).policy = .none then ch = none
      else ∃ c, ch = some c ∧ s.channels.get c = none ∧ ∀ d, d < c → s.channels.get d ≠ none)
    (hreq : (s.lines.get L).policy = .required → s.log.level ≠ .lost ∧ s.timeValid = true) :
    recordingCheck s L p e = none := by
  refine recordingCheck_pass fun hp => ⟨?_, hreq hp⟩
  rw [if_neg (by simp [hp])] at hgive
  obtain ⟨c, -, hc, -⟩ := hgive
  exact ⟨c, hc⟩

/-- The body of R62 of a line that stands CONNECTED. -/
theorem takeBody_connected {r : Line} {ch : Option ChanId} (hr : s.lines.get L = r) (hs : r.state = .connected)
    (hb : r.bridge = some b) (hch : channelAt s p e = ch) : takeBody s L p e .none =
      [5#8] ++ b2 r.holders.length ++ [idByte b, (ch.map idByte).getD 0xFF#8] ++ [0#8, 0xFF#8] := by
  rw [takeBody_eq hr hb hch, hs]
  rfl
end

end

end Sys2Proof.Machine

namespace Sys2Proof.Machine
open Sys2Proof

section

/-! # A take that goes ahead, as a whole (R62) -/

/-- The state in which the holder of line `L` is seated: the line has the record `r`, with its bridge, and beside
bridges and lines all is as at the start of the request. -/
structure TakeStart (s : State) (o : Option LinkId) (L : LineId) (r : Line) (start : State) : Prop where
  lines : start.lines = s.lines.set L r
  rest : { start with lines := s.lines, bridges := s.bridges } = s.begin o

/-- What a take by a free endpoint leaves, when the line has the record `r` and its bridge in `start`, and `u` and `ch`
are what step 5 of R62 has told and assigned. -/
structure Took (s : State) (o : Option LinkId) (L : LineId) (r : Line) (p : PosId) (e : Endpoint) (b : BridgeId)
    (start : State) (kind : RecordKind) (old : LineState) (u : State) (ch : Option ChanId) (w : State) : Prop where
  lines : w.lines = s.lines.set L (r.heldAlso p e)
  positions : w.positions = s.positions.modify p fun x => x.setBinding e (.holder L)
  bridges : w.bridges = (takeHolder L p e b start).bridges
  gens : w.gens = if r.ltype = .ar ∧ r.holders = [] then s.gens.modify L fun g => { g with sustained := true }
    else s.gens
  channel : channelAt w p e = ch
  told : ToldAlike (takeReported (s.begin o) L old (r.heldAlso p e)
    (submit (takenRecord L p e b kind ch (r.holders ++ [(p, e)])) u)) w
  rest : { w with
    lines := s.lines, bridges := s.bridges, positions := s.positions, gens := s.gens, channels := s.channels
    log := s.log, links := s.links } = s.begin o

section
variable {s start t u : State} {o : Option LinkId} {L : LineId} {r : Line} {p : PosId} {e : Endpoint} {b : BridgeId}
  {kind : RecordKind} {old : LineState} {ch : Option ChanId}

theorem takeStart_own (s : State) (o : Option LinkId) (L : LineId) : TakeStart s o L (s.lines.get L) (s.begin o) :=
  ⟨(Tab.set_get_self ..).symm, rfl⟩

theorem takeStart_fresh (s : State) (o : Option LinkId) (L : LineId) (b : BridgeId) :
    TakeStart s o L { s.lines.get L with bridge := some b } (takeBridge L b (s.begin o)) :=
  ⟨takeBridge_lines .., takeBridge_only ..⟩

theorem TakeStart.get (h : TakeStart s o L r start) : start.lines.get L = r := by rw [h.lines, Tab.get_set_self]

/-- The holder is seated: entry, binding and source (R62 steps 3 and 4). -/
theorem TakeStart.seated (h : TakeStart s o L r start) (p : PosId) (e : Endpoint) (b : BridgeId) :
    (takeHolder L p e b start).lines = s.lines.set L (r.heldAlso p e) ∧
    { takeHolder L p e b start with
      lines := s.lines, bridges := s.bridges, positions := s.positions, gens := s.gens } = s.begin o := by
  refine ⟨?_, ?_⟩
  · rw [takeHolder_lines, h.lines]
    apply Tab.ext_get
    intro M
    simp only [Tab.get_modify, Tab.get_set, if_true]
    split <;> rfl
  · have hpos : start.positions = s.positions := (congrArg State.positions h.rest :)
    have hgens : start.gens = s.gens := (congrArg State.gens h.rest :)
    have honly := congrArg (fun v : State => { v with lines := s.lines, bridges := s.bridges })
      (takeHolder_only L p e b start)
    rw [← hpos, ← hgens]
    exact (show _ = _ from honly).trans h.rest

theorem took_of_recorded (h : TakeStart s o L r start) (hu : ToldAlike u t) (hch : channelAt t p e = ch)
    (ht : { t with channels := s.channels, log := s.log, links := s.links } = takeHolder L p e b start) :
    Took s o L r p e b start kind old u ch (takeReport L old (submit (takeRecord t L p e b kind) t)) := by
  obtain ⟨hlines, hseated⟩ := h.seated p e b
  have hget : t.lines.get L = r.heldAlso p e := by
    rw [(congrArg State.lines ht :).trans hlines, Tab.get_set_self]
  have hframe : t.frame = (s.begin o).frame := (congrArg State.frame ht :).trans (congrArg State.frame hseated :)
  obtain ⟨htold, hw⟩ := takeEnd (old := old) (kind := kind) hu hframe hget rfl hch
  have hwt : { takeReport L old (submit (takeRecord t L p e b kind) t) with
      channels := s.channels, log := s.log, links := s.links } = takeHolder L p e b start :=
    (show _ = _ from congrArg (fun v : State => { v with
      channels := s.channels, log := s.log, links := s.links }) hw).trans ht
  have hpos : start.positions = s.positions := (congrArg State.positions h.rest :)
  have hgens : start.gens = s.gens := (congrArg State.gens h.rest :)
  refine ⟨(congrArg State.lines hwt :).trans hlines, ?_, (congrArg State.bridges hwt :), ?_,
    (channelAt_of_channels (congrArg State.channels hw :) p e).trans hch, htold, ?_⟩
  · rw [← hpos]
    exact (congrArg State.positions hwt :).trans (takeHolder_positions ..)
  · rw [← h.get, ← hgens]
    exact (congrArg State.gens hwt :).trans (congrArg State.gens (takeHolder_seated L p e b start))
  · exact (show _ = _ from congrArg (fun v : State => { v with
      lines := s.lines, bridges := s.bridges, positions := s.positions, gens := s.gens }) hwt).trans hseated

/-- A take to which the policy of the line gives the channel `ch` (R156). -/
theorem took_given (h : TakeStart s o L r start) (hnone : channelAt s p e = none)
    (hgive : if r.policy = .none then ch = none
      else ∃ c, ch = some c ∧ s.channels.get c = none ∧ ∀ d, d < c → s.channels.get d ≠ none)
    (ht : takeRecording L p e b (takeHolder L p e b start) = t) {w : State}
    (hw : takeReport L old (submit (takeRecord t L p e b kind) t) = w) :
    Took s o L r p e b start kind old s ch w ∧ w.channels = channelsGiven s p e b ch := by
  obtain ⟨hlines, hseated⟩ := h.seated p e b
  have hchan : (takeHolder L p e b start).channels = s.channels := (congrArg State.channels hseated :)
  have hlog : (takeHolder L p e b start).log = s.log := (congrArg State.log hseated :)
  have hlinks : (takeHolder L p e b start).links = s.links := (congrArg State.links hseated :)
  have htime : (takeHolder L p e b start).timeValid = s.timeValid := (congrArg State.timeValid hseated :)
  have hreleased : (takeHolder L p e b start).released = [] := (congrArg State.released hseated :)
  have hframe : (takeHolder L p e b start).frame = (s.begin o).frame := (congrArg State.frame hseated :)
  have hpolicy : ((takeHolder L p e b start).lines.get L).policy = r.policy := by
    rw [hlines, Tab.get_set_self]
    rfl
  rw [← hpolicy, ← hchan] at hgive
  obtain ⟨heq, hat⟩ := takeRecording_given (b := b) hreleased ((channelAt_of_channels hchan p e).trans hnone) hgive
  rw [ht] at heq hat
  have htook : Took s o L r p e b start kind old s ch w := by
    rw [← hw]
    refine took_of_recorded h ?_ hat ?_
    · rw [heq]
      exact (toldAlike_begin s o).quiet hlog hlinks hframe
    · rw [heq, ← hchan, ← hlog, ← hlinks]
  refine ⟨htook, ?_⟩
  have hwt := takeReport_only L (submit (takeRecord t L p e b kind) t) old
  rw [hw] at hwt
  have hwchan : w.channels = t.channels := (congrArg State.channels hwt :).trans (submit_channels ..)
  rw [hwchan, heq]
  simp only [channelsGiven, since, hchan, hlog, htime]

/-- A take that found no FREE channel under RECORD: UNRECORDED stands before its record (R156, R163). -/
theorem took_unrecorded (h : TakeStart s o L r start) (hnone : channelAt s p e = none) (hp : r.policy ≠ .none)
    (hfull : ∀ c, s.channels.get c ≠ none) (ht : takeRecording L p e b (takeHolder L p e b start) = t) {w : State}
    (hw : takeReport L old (submit (takeRecord t L p e b kind) t) = w) :
    Took s o L r p e b start kind old (submit (unrecorded p e none b (some L) none) s) none w ∧
      w.channels = s.channels := by
  obtain ⟨hlines, hseated⟩ := h.seated p e b
  have hchan : (takeHolder L p e b start).channels = s.channels := (congrArg State.channels hseated :)
  have hlog : (takeHolder L p e b start).log = s.log := (congrArg State.log hseated :)
  have hlinks : (takeHolder L p e b start).links = s.links := (congrArg State.links hseated :)
  have hframe : (takeHolder L p e b start).frame = (s.begin o).frame := (congrArg State.frame hseated :)
  have hpolicy : ((takeHolder L p e b start).lines.get L).policy ≠ .none := by
    rw [hlines, Tab.get_set_self]
    exact hp
  have heq := takeRecording_unrecorded (b := b) hpolicy ((channelAt_of_channels hchan p e).trans hnone)
    (by rw [hchan]; exact hfull)
  rw [ht] at heq
  have htchan : t.channels = s.channels := by rw [heq, submit_channels, hchan]
  refine ⟨?_, ?_⟩
  · rw [← hw]
    refine took_of_recorded h ?_ ((channelAt_of_channels htchan p e).trans hnone) ?_
    · rw [heq]
      exact ((toldAlike_begin s o).quiet hlog hlinks hframe).submit _
    · have hsub := submit_only (unrecorded p e none b (some L) none) (takeHolder L p e b start)
      rw [heq]
      rw [hlog, hlinks] at hsub
      exact (show _ = _ from congrArg (fun v : State => { v with channels := s.channels }) hsub).trans
        (by rw [← hchan])
  · have hwt := takeReport_only L (submit (takeRecord t L p e b kind) t) old
    rw [hw] at hwt
    exact ((congrArg State.channels hwt :).trans (submit_channels ..)).trans htchan

/-- What a take touches is all that it changes. -/
theorem Took.untouched {w : State} (h : Took s o L r p e b start kind old u ch w) :
    { w with lines := s.lines, bridges := s.bridges, positions := s.positions, gens := s.gens, channels := s.channels
             log := s.log, links := s.links, origin := s.origin, released := s.released } = s :=
  (congrArg (fun v : State => { v with origin := s.origin, released := s.released }) h.rest :)

/-- The answer of a take that went ahead (R62). -/
theorem Took.answered {w : State} (h : Took s o L r p e b start kind old u ch w) (hb : r.bridge = some b) (l : LinkId) :
    answered (respond l (BitVec.ofNat 8 ReqKind.lineTake.code) (w, ⟨.done, takeBody w L p e .none⟩)) l .lineTake .done
      ([5#8] ++ b2 (r.holders.length + 1) ++ [idByte b, (ch.map idByte).getD 0xFF#8] ++ [0#8, 0xFF#8]) := by
  have hget : w.lines.get L = r.heldAlso p e := by rw [h.lines, Tab.get_set_self]
  have hbody := takeBody_connected hget rfl (by exact hb) h.channel
  simp only [Line.heldAlso, List.length_append, List.length_singleton] at hbody
  rw [← hbody]
  exact answered_respond ..
end

/-! ## The courses and checks of a take (R60, R61) -/

section
variable {s : State} {L : LineId} {p : PosId} {e : Endpoint} {b : BridgeId} {r : Line} {course : TakeCourse}

theorem takeCourse_fresh (h : r.state = .idle ∨ r.state = .alerting ∨ (r.state = .offered ∧ r.camp.head? = some p)) :
    takeCourse r p = .fresh := by
  rcases h with hs | hs | ⟨hs, hq⟩
  · simp [takeCourse, hs]
  · simp [takeCourse, hs]
  · simp [takeCourse, hs, hq]

/-- A take on the line's own bridge joins the call or retrieves it (R60). -/
theorem takeCourse_own (h : r.state = .connected ∧ r.holders.length < (if r.privacy = .shared then 4 else 1) ∨
      r.state = .held ∧ (r.holdOwner = some p ∨ r.privacy = .shared)) :
    takeCourse r p = if r.state = .held then .retrieves else .joins := by
  rcases h with ⟨hs, hn⟩ | ⟨hs, ho⟩
  · rw [← maxHolders_eq] at hn
    simp [takeCourse, hs, hn]
  · simp [takeCourse, hs, ho]

theorem own_ne (r : Line) (res : Result) :
    (if r.state = .held then TakeCourse.retrieves else .joins) ≠ .fresh ∧
      (if r.state = .held then TakeCourse.retrieves else .joins) ≠ .refused res := by
  split <;> simp

theorem freeBridge_of (h : ∃ d, (s.bridges.get d).use = .free) : ∃ d, freeBridge s = some d := by
  obtain ⟨d, hd⟩ := h
  refine Option.isSome_iff_exists.mp ?_
  simpa [freeBridge, ids] using ⟨d, hd⟩

theorem freeBridge_eq_none (h : ∀ d, (s.bridges.get d).use ≠ .free) : freeBridge s = none := by
  simpa [freeBridge, ids] using h

/-- With a bridge, or room on the line's own, recording alone decides (R61). -/
theorem takeChecks_recording (hf : course = .fresh → ∃ d, freeBridge s = some d)
    (ho : course ≠ .fresh → e.isHandset = true → lineFull s L = false) :
    takeChecks s L p e course = (recordingCheck s L p e).map noRecording := by
  unfold takeChecks
  by_cases hc : course = .fresh
  · obtain ⟨d, hd⟩ := hf hc
    simp [hc, hd]
  · have hroom : (e.isHandset && lineFull s L) = false := by
      cases h : e.isHandset with
      | false => rfl
      | true => exact ho hc h
    simp [hc, hroom]

theorem takeChecks_noBridge (h : ∀ d, (s.bridges.get d).use ≠ .free) :
    takeChecks s L p e .fresh = some (.bare .noBridge) := by
  simp [takeChecks, freeBridge_eq_none h]

theorem takeChecks_full (hc : course ≠ .fresh) (he : e.isHandset = true) (hb : (s.lines.get L).bridge = some b)
    (hn : 12 ≤ (s.bridges.get b).contributors.length) : takeChecks s L p e course = some (.bare .full) := by
  have hfull : lineFull s L = true := by
    rw [lineFull, hb]
    exact decide_eq_true hn
  simp [takeChecks, hc, he, hfull]

/-- A REQUIRED line asks an endpoint without a channel for the conditions of R157. -/
theorem recordingCheck_required (hp : (s.lines.get L).policy = .required) (hch : channelAt s p e = none) :
    recordingCheck s L p e = admission s := by
  simp [recordingCheck, hp, hch]

/-- A take whose checks fail changes nothing (R61). -/
theorem holderTake_checked {x : Response} (hcourse : takeCourse (s.lines.get L) p = course)
    (hne : ∀ res, course ≠ .refused res) (hchecks : takeChecks s L p e course = some x) (f : TakeFlags) :
    holderTake L p e f s = (s, x) := by
  unfold holderTake
  rw [hcourse]
  cases course with
  | refused res => exact absurd rfl (hne res)
  | fresh => simp only [hchecks]
  | joins => simp only [hchecks]
  | retrieves => simp only [hchecks]
end

end

end Sys2Proof.Machine

namespace Sys2Proof.Machine
open Sys2Proof

section

/-! # The holder takes of O29, O30 and O33 (R60 to R62, R70, R157) -/

section
variable {s start t : State} {l : LinkId} {L : LineId} {p : PosId} {e : Endpoint} {b : BridgeId} {fl : Byte}
  {course : TakeCourse}

/-- A LINE_TAKE by a free endpoint whose checks pass: the state it leaves, and the body of R62. -/
theorem exec_takes
    (hx : exec (.lineTake l (idByte p) (endByte e) (idByte L) fl) s =
      .next (respond l (BitVec.ofNat 8 ReqKind.lineTake.code)
        (decideTake L p e ⟨fl.getLsbD 0, fl.getLsbD 1, false⟩ (s.begin (some l)))))
    (hentry : holderEntry s L p = none) (hfree : s.binding p e = .none)
    (hm : ∀ x ∈ (s.lines.get L).monitors, x.1 ≠ p) (hcourse : takeCourse (s.lines.get L) p = course)
    (hne : ∀ res, course ≠ .refused res) (hrec : recordingCheck s L p e = none)
    (hb : takeBridgeOf s L course = some b) (hroom : course ≠ .fresh → e.isHandset = true → lineFull s L = false)
    (hstart : (if course = .fresh then takeBridge L b else id) (s.begin (some l)) = start)
    (ht : takeRecording L p e b (takeHolder L p e b start) = t) {w : State}
    (hw : takeReport L (s.lines.get L).state
      (submit (takeRecord t L p e b (if course = .retrieves then .retrieve else .connect)) t) = w) :
    exec (.lineTake l (idByte p) (endByte e) (idByte L) fl) s =
      .next (respond l (BitVec.ofNat 8 ReqKind.lineTake.code) (w, ⟨.done, takeBody w L p e .none⟩)) := by
  have hchecks : takeChecks (s.begin (some l)) L p e course = none := by
    have hfresh (hc : course = .fresh) : freeBridge s = some b := by rwa [takeBridgeOf, if_pos hc] at hb
    have hpass := takeChecks_recording (s := s.begin (some l)) (p := p) (fun hc => ⟨b, hfresh hc⟩) hroom
    exact hpass.trans (congrArg (Option.map noRecording) hrec)
  have hbinding : (s.begin (some l)).binding p e = .none := hfree
  rw [hx, decideTake_holder (s := s.begin (some l)) rfl hentry,
    holderTake_commits (s := s.begin (some l)) hcourse hne hchecks hb, hbinding,
    commitTake_free (s := s.begin (some l)) hfree hm _ hstart ht, ← hw]
  rfl

/-- The bridge of a new call, with the selected entry's activity written out (R37, R39). -/
theorem claimed_holding (r : Line) (cs : List Contrib) : (Bridge.claimed L r).holding s cs =
    { use := .line L
      contributors := cs
      period := 1000 * r.autoReleaseS
      mask := r.reload
      active := cs.any fun c => s.active c.source
      idle := if (cs.any fun c => r.reload.selects c.source && s.active c.source) ∨ r.autoReleaseS = 0 then none
        else some (1000 * r.autoReleaseS) } := by
  by_cases hsel : (cs.any fun c => r.reload.selects c.source && s.active c.source) = true
  · simp [Bridge.claimed, Bridge.holding, Bridge.rearm, Bridge.reflag, selectedActive, anyActive, hsel]
  · by_cases hz : r.autoReleaseS = 0
    · simp [Bridge.claimed, Bridge.holding, Bridge.rearm, Bridge.reflag, selectedActive, anyActive, startIdle, hz]
    · simp [Bridge.claimed, Bridge.holding, Bridge.rearm, Bridge.reflag, selectedActive, anyActive, startIdle, hz, hsel]

/-- The bridge of a take on the line's own: the handset's source joins it (R62, R70). -/
theorem takeHolder_own_bridges (hroom : ∀ x, endpointSource p e = some x →
      (s.bridges.get b).contributors.length < 12 ∧ (s.bridges.get b).has x = false) :
    (∀ d, d ≠ b → (takeHolder L p e b s).bridges.get d = s.bridges.get d) ∧
      ((takeHolder L p e b s).bridges.get b).use = (s.bridges.get b).use ∧
      ((takeHolder L p e b s).bridges.get b).contributors =
        (s.bridges.get b).contributors ++ endpointEntry p e (s.positions.get p) := by
  rw [takeHolder_bridges]
  refine ⟨fun d hd => joinEndpoint_bridges p e b s hd 0, joinEndpoint_use p e b s b 0, ?_⟩
  unfold joinEndpoint endpointEntry
  split
  · rename_i x hx
    obtain ⟨hn, hhas⟩ := hroom x hx
    rw [join_contributors hhas hn, hx]
    simp
  · rename_i hx
    rw [hx]
    simp
theorem takeReported_log {old : LineState} {r : Line} {u : State} : (takeReported s L old r u).log = u.log := by
  unfold takeReported
  split <;> rfl
end

end

/-- Settles O29: the fresh take is `exec_takes` on the lowest FREE bridge, and leaves what `Took` says. -/
theorem lineTakeFresh : Obligations.LineTakeFresh := by
  intro l p e L fl b ch s hmay hopen hup happ he hfree hnone hfl r htype hstate hh hm huse hlow hgive hreq new cs made u
  generalize hs : takeBridge L b (s.begin (some l)) = start
  generalize ht : takeRecording L p e b (takeHolder L p e b start) = t
  generalize hw : takeReport L r.state (submit (takeRecord t L p e b .connect) t) = w
  have hh' : (s.lines.get L).holders = [] := hh
  have hentry : holderEntry s L p = none := holderEntry_eq_none (by simp [hh'])
  have hmon : ∀ x ∈ (s.lines.get L).monitors, x.1 ≠ p := by rw [show (s.lines.get L).monitors = [] from hm]; simp
  have hexec := exec_takes (exec_lineTake hmay hopen hup happ he hfl htype) hentry hfree hmon
    (takeCourse_fresh hstate) (by simp) (recordingCheck_given hgive hreq) (freeBridge_eq huse hlow) (by simp) hs ht hw
  have hstart := takeStart_fresh s (some l) L b
  rw [hs] at hstart
  obtain ⟨htook, hchannels⟩ := took_given hstart hnone hgive ht hw
  have hleft : r.state ≠ .connected := by rcases hstate with h | h | ⟨h, -⟩ <;> simp [h]
  have hnew : Line.heldAlso p e { r with bridge := some b } = new := by
    simp only [Line.heldAlso, hh]
    rfl
  refine ⟨_, hexec, ?_, ?_, ?_, htook.positions, ?_, hchannels, ?_, ?_, ?_⟩
  · have hans := htook.answered rfl l
    simp only [hh'] at hans
    cases ch <;> exact hans
  · rw [← hnew]
    exact htook.lines
  · refine htook.bridges.trans ?_
    rw [← hs, takeHolder_fresh_bridges, claimed_holding]
    rfl
  · refine htook.gens.trans ?_
    simp [hh', r]
  · refine htook.told.log.trans ?_
    rw [takeReported_log]
    simp only [hh']
    rfl
  · refine noNotice.respond (x := (w, _)) ?_ l _
    have htold := htook.told.notices
    rw [takeReported, if_neg hleft, hnew, hh] at htold
    exact htold
  · exact htook.untouched

section

section
variable {s : State} {L : LineId} {p : PosId} {e : Endpoint} {b : BridgeId}

theorem endpointSource_handset (h : e.isHandset = true) : ∃ x, endpointSource p e = some x := by
  cases e with
  | ha => exact ⟨_, rfl⟩
  | hb => exact ⟨_, rfl⟩
  | mic => cases h
  | key k => cases h

theorem takeBridgeOf_own (r : Line) (hb : (s.lines.get L).bridge = some b) :
    takeBridgeOf s L (if r.state = .held then .retrieves else .joins) = some b := by
  rw [takeBridgeOf, if_neg (own_ne r .done).1, hb]

end

end

/-- Settles O30: the take on the line's own bridge is `exec_takes`, and leaves what `Took` says. -/
theorem lineTakeJoins : Obligations.LineTakeJoins := by
  intro l p e L fl b ch s hmay hopen hup happ he hfree hnone hfl r htype hb hmon hcase hroom hgive hreq new u v
  generalize ht : takeRecording L p e b (takeHolder L p e b (s.begin (some l))) = t
  generalize hw : takeReport L r.state
    (submit (takeRecord t L p e b (if r.state = .held then .retrieve else .connect)) t) = w
  have hentry : holderEntry s L p = none := by
    refine holderEntry_eq_none ?_
    rcases hcase with ⟨-, h, -⟩ | ⟨-, h, -⟩
    · exact h
    · rw [show (s.lines.get L).holders = [] from h]
      simp
  have hcourse := takeCourse_own (r := r) (p := p) (hcase.imp (fun ⟨h, _, hn⟩ => ⟨h, hn⟩) fun ⟨h, _, ho⟩ => ⟨h, ho⟩)
  have hkind : (if (if r.state = .held then TakeCourse.retrieves else .joins) = .retrieves then RecordKind.retrieve
      else .connect) = if r.state = .held then .retrieve else .connect := by
    by_cases h : r.state = .held
    · simp [h]
    · simp [h]
  have hspace (he : e.isHandset = true) : lineFull s L = false := by
    obtain ⟨x, hx⟩ := endpointSource_handset (p := p) he
    exact lineFull_eq_false hb (hroom x hx).1
  have hexec := exec_takes (start := s.begin (some l)) (w := w) (exec_lineTake hmay hopen hup happ he hfl htype) hentry
    hfree hmon hcourse (fun res => (own_ne r res).2) (recordingCheck_given hgive hreq) (takeBridgeOf_own r hb)
    (fun _ => hspace) (by rw [if_neg (own_ne r .done).1, id]) ht (by rw [hkind]; exact hw)
  obtain ⟨htook, hchannels⟩ := took_given (takeStart_own s (some l) L) hnone hgive ht hw
  have hnew : Line.heldAlso p e r = new := by
    have hnot : r.state ≠ .alerting := by rcases hcase with ⟨h, -⟩ | ⟨h, -⟩ <;> simp [h]
    simp [Line.heldAlso, hnot, new]
  obtain ⟨hothers, huse, hcs⟩ := takeHolder_own_bridges (s := s.begin (some l)) (L := L) hroom
  rw [← htook.bridges] at hothers huse hcs
  refine ⟨_, hexec, ?_, ?_, hothers, huse, hcs, htook.positions, htook.gens, hchannels, ?_, ?_, ?_⟩
  · have hans := htook.answered hb l
    rw [← hnew]
    simp only [Line.heldAlso, List.length_append, List.length_singleton]
    cases ch <;> simpa using hans
  · rw [← hnew]
    exact htook.lines
  · refine htook.told.log.trans ?_
    rw [takeReported_log]
    rfl
  · refine noNotice.respond (x := (w, _)) ?_ l _
    have htold := htook.told.notices
    rw [takeReported, hnew] at htold
    rcases hcase with ⟨h, -⟩ | ⟨h, -⟩
    · rw [if_pos h] at htold
      rw [if_neg (by simp [h])]
      exact htold
    · rw [if_neg (by simp [h])] at htold
      rw [if_pos h, ← h]
      exact htold
  · exact htook.untouched

section

section
variable {s : State} {l : LinkId} {L : LineId} {p : PosId} {e : Endpoint} {b : BridgeId} {fl : Byte}
  {course : TakeCourse} {res : Result} {body : List Byte}

/-- A LINE_TAKE that a check refuses is answered, and changes nothing (R61). -/
theorem exec_take_checked
    (hx : exec (.lineTake l (idByte p) (endByte e) (idByte L) fl) s =
      .next (respond l (BitVec.ofNat 8 ReqKind.lineTake.code)
        (decideTake L p e ⟨fl.getLsbD 0, fl.getLsbD 1, false⟩ (s.begin (some l)))))
    (hentry : holderEntry s L p = none) (hcourse : takeCourse (s.lines.get L) p = course)
    (hne : ∀ res, course ≠ .refused res) (hchecks : takeChecks s L p e course = some ⟨res, body⟩) :
    ∃ t, exec (.lineTake l (idByte p) (endByte e) (idByte L) fl) s = .next t ∧ onlyLinks s t ∧ noNotice s t ∧
      answered t l .lineTake res body := by
  rw [decideTake_holder (s := s.begin (some l)) rfl hentry,
    holderTake_checked (s := s.begin (some l)) hcourse hne hchecks] at hx
  exact ⟨_, hx, rfl, (noNotice.refl s).respond l _, answered_respond ..⟩

/-- A take with a bridge and room by an endpoint without a channel, on a REQUIRED line, fails as R157 says. -/
theorem takeChecks_required {n : Nat} (hf : course = .fresh → ∃ d, freeBridge s = some d)
    (ho : course ≠ .fresh → e.isHandset = true → lineFull s L = false) (hp : (s.lines.get L).policy = .required)
    (hch : channelAt s p e = none) (hn : admission s = some n) :
    takeChecks s L p e course = some ⟨.noRecording, b1 n⟩ := by
  rw [takeChecks_recording hf ho, recordingCheck_required hp hch, hn]
  rfl

/-- The first condition of R157 that fails: no FREE channel, the log LOST, the time base INVALID. -/
theorem admission_cases : ((∀ d, s.channels.get d ≠ none) → admission s = some 0) ∧
    ((∃ d, s.channels.get d = none) → s.log.level = .lost → admission s = some 1) ∧
    ((∃ d, s.channels.get d = none) → s.log.level ≠ .lost → s.timeValid = false → admission s = some 2) := by
  refine ⟨fun h => ?_, fun ⟨d, hd⟩ hl => ?_, fun ⟨d, hd⟩ hl ht => ?_⟩
  · simp [admission, anyFree_eq_false h]
  · simp [admission, anyFree_of hd, hl]
  · simp [admission, anyFree_of hd, hl, ht]

end

end

/-- Settles O33: the refusals are those of `takeChecks`; the take without a channel is `exec_takes`, and leaves what
`Took` says after UNRECORDED. -/
theorem lineTakeResources : Obligations.LineTakeResources := by
  intro l p e L fl s hmay hopen hup happ he hfl hentry r c refused htype fresh joins
  have hx := exec_lineTake hmay hopen hup happ he hfl htype
  have hcheck {course : TakeCourse} {res : Result} {body : List Byte} :=
    exec_take_checked (course := course) (res := res) (body := body) hx hentry
  refine ⟨fun hs hno => ?_, fun hj hh b hb hn => ?_, fun hpass hp hch => ?_, ?_⟩
  · exact hcheck (takeCourse_fresh hs) (by simp) (takeChecks_noBridge hno)
  · have hhand : e.isHandset = true := by rcases hh with rfl | rfl <;> rfl
    exact hcheck (takeCourse_own hj) (fun res => (own_ne r res).2) (takeChecks_full (own_ne r .done).1 hhand hb hn)
  · have hnoRec {n : Nat} (hn : admission s = some n) : refused .noRecording (b1 n) := by
      rcases hpass with ⟨hs, hb⟩ | ⟨hj, b, hb, hroom⟩
      · exact hcheck (takeCourse_fresh hs) (by simp)
          (takeChecks_required (fun _ => freeBridge_of hb) (by simp) hp hch hn)
      · refine hcheck (takeCourse_own hj) (fun res => (own_ne r res).2)
          (takeChecks_required (fun h => absurd h (own_ne r .done).1) (fun _ hhand => ?_) hp hch hn)
        rcases hroom with ⟨k, rfl⟩ | hn
        · cases hhand
        · exact lineFull_eq_false hb hn
    obtain ⟨hchan, hlost, htime⟩ := admission_cases (s := s)
    exact ⟨fun h => hnoRec (hchan h), fun h hl => hnoRec (hlost h hl), fun h hl ht => hnoRec (htime h hl ht)⟩
  · intro b hs hh hm hp hfree huse hlow hfull hch u
    generalize hstart : takeBridge L b (s.begin (some l)) = start
    generalize ht : takeRecording L p e b (takeHolder L p e b start) = t
    generalize hw : takeReport L r.state (submit (takeRecord t L p e b .connect) t) = w
    have hh' : (s.lines.get L).holders = [] := hh
    have hmon : ∀ x ∈ (s.lines.get L).monitors, x.1 ≠ p := by rw [show (s.lines.get L).monitors = [] from hm]; simp
    have hexec := exec_takes hx hentry hfree hmon (takeCourse_fresh (.inl hs)) (by simp)
      (recordingCheck_pass fun h => absurd (h.symm.trans hp) (by simp)) (freeBridge_eq huse hlow) (by simp) hstart ht hw
    have hbegun := takeStart_fresh s (some l) L b
    rw [hstart] at hbegun
    obtain ⟨htook, hchannels⟩ := took_unrecorded hbegun hch (by simp [show (s.lines.get L).policy = .record from hp])
      hfull ht hw
    have hget : w.lines.get L = Line.heldAlso p e { r with bridge := some b } := by
      rw [htook.lines, Tab.get_set_self]
    refine ⟨_, hexec, ?_, ?_, congrArg Line.state hget, congrArg Line.bridge hget, ?_, hchannels, ?_, ?_⟩
    · have hans := htook.answered rfl l
      simp only [hh'] at hans
      exact hans
    · have hbind : w.positions = (bind p e (.holder L) s).positions := htook.positions
      have hat := State.binding_congr hbind p e
      rw [bind_binding, if_pos ⟨rfl, rfl⟩] at hat
      exact hat
    · have hset := congrArg (fun v => (v.get b).use) htook.bridges
      simp only [← hstart, takeHolder_fresh_bridges, Tab.get_set_self] at hset
      exact hset
    · refine htook.told.log.trans ?_
      rw [takeReported_log]
      simp only [hh']
      rfl
    · refine noNotice.respond (x := (w, _)) ?_ l _
      have htold := htook.told.notices
      simp only [takeReported, Line.heldAlso, hh', show r.state = .idle from hs] at htold
      exact htold

end Sys2Proof.Machine

namespace Sys2Proof.Machine
open Sys2Proof

section

/-! # A holder that leaves its line, by LINE_DROP or LINE_PARK (R65, R66, R69, R132) -/

/-! ## The bridge without the holder's source and line talk -/

theorem leave_use (b d : BridgeId) (x : SourceId) (s : State) :
    ((leave b x s).bridges.get d).use = (s.bridges.get d).use := by
  simp only [leave, modBridge_bridges, Tab.get_modify]
  split
  · rename_i h
    subst h
    split
    · rfl
    · split <;> rfl
  · rfl

theorem leaveEndpoint_use (p : PosId) (e : Endpoint) (b d : BridgeId) (s : State) :
    ((leaveEndpoint p e b s).bridges.get d).use = (s.bridges.get d).use := by
  unfold leaveEndpoint
  split
  · exact leave_use ..
  · rfl

/-- The entry stays on its line's bridge when the holder `x` of `s` leaves: it is neither the holder's source nor the
MIC of its line talk. -/
def staysBehind (s : State) (x : PosId × Endpoint) (c : Contrib) : Bool :=
  some c.source ≠ endpointSource x.1 x.2 && !((keyTalks s x).isSome && c.source = micSource x.1)

section
variable {s : State} {L : LineId} {p : PosId} {e : Endpoint} {b : BridgeId}

theorem holderGone_on (hb : (s.lines.get L).bridge = some b) : holderGone L (p, e) s =
    leaveEndpoint p e b (s.modLine L fun r => { r with holders := r.holders.filter (· ≠ (p, e)) }) := by
  simp [holderGone, hb]

/-- What the end of an endpoint's line talk leaves: the MIC is NONE and its source has left, if there was one (R132). -/
theorem endTalkOfEndpoint_fields {v : State} (hb : (v.lines.get L).bridge = some b) (c : Cause) :
    (endTalkOfEndpoint p e L c v).positions = v.positions.modify p (fun x =>
        { x with mic := if (keyTalks v (p, e)).isSome then .none else x.mic }) ∧
      ((endTalkOfEndpoint p e L c v).bridges.get b).contributors = (v.bridges.get b).contributors.filter (fun y =>
        !((keyTalks v (p, e)).isSome && y.source = micSource p)) ∧
      ((endTalkOfEndpoint p e L c v).bridges.get b).use = (v.bridges.get b).use := by
  cases htalk : keyTalks v (p, e) with
  | none =>
    have hid := endTalkOfEndpoint_id htalk L c
    dsimp only at hid
    rw [hid]
    refine ⟨(Tab.modify_eq_self rfl).symm, ?_, rfl⟩
    simp
  | some k =>
    have hkey : e = .key k ∧ (v.positions.get p).mic = .talk k := by
      cases e with
      | key j =>
        simp only [keyTalks] at htalk
        split at htalk
        · rename_i hm
          cases htalk
          exact ⟨rfl, hm⟩
        · cases htalk
      | _ => cases htalk
    obtain ⟨rfl, hmic⟩ := hkey
    obtain ⟨hpos, hbr⟩ := endLineTalk_fields (L := L) (p := p) (k := k) hmic hb c
    rw [endTalkOfEndpoint, hbr, hpos]
    refine ⟨rfl, ?_, leave_use ..⟩
    rw [leave_contributors]
    simp

/-- The holder's endpoint is unbound, and with it a MIC that talks on it; its sources leave the bridge (R66, R132). -/
theorem detachHolder_fields (hb : (s.lines.get L).bridge = some b) (he : e ≠ .mic) (hx : s.binding p e = .holder L) :
    (detachHolder L (p, e) .none s).positions = s.positions.modify p (fun x =>
        { x.setBinding e .none with mic := if (keyTalks s (p, e)).isSome then .none else x.mic }) ∧
      ((detachHolder L (p, e) .none s).bridges.get b).contributors =
        (s.bridges.get b).contributors.filter (staysBehind s (p, e)) ∧
      ((detachHolder L (p, e) .none s).bridges.get b).use = (s.bridges.get b).use := by
  have hgone := holderGone_on (p := p) (e := e) hb
  rw [detachHolder_eq]
  generalize hv : holderGone L (p, e) s = v at hgone
  have hpos : v.positions = s.positions := hv ▸ holderGone_positions ..
  have hvb : (v.lines.get L).bridge = some b := by rw [← hv, holderGone_lines, Tab.get_modify_self, hb]
  have hvcs : (v.bridges.get b).contributors =
      (s.bridges.get b).contributors.filter fun c => some c.source ≠ endpointSource p e := by
    rw [hgone, leaveEndpoint_contributors]
    rfl
  have hvuse : (v.bridges.get b).use = (s.bridges.get b).use := by
    rw [hgone, leaveEndpoint_use]
    rfl
  obtain ⟨htpos, htcs, htuse⟩ := endTalkOfEndpoint_fields (p := p) (e := e) hvb .none
  have htalks : keyTalks v (p, e) = keyTalks s (p, e) := keyTalks_congr hpos _
  generalize ht : endTalkOfEndpoint p e L .none v = t at htpos htcs htuse
  rw [htalks] at htcs
  rw [htalks, hpos] at htpos
  refine ⟨?_, ?_, ?_⟩
  · have hbound : t.binding p e ≠ .none := by
      have hpe : t.binding p e = s.binding p e := by
        rw [State.binding, htpos, Tab.get_modify_self]
        cases e with
        | mic => exact absurd rfl he
        | _ => rfl
      rw [hpe, hx]
      simp
    apply Tab.ext_get
    intro q
    rw [unbind_get, htpos]
    simp only [Tab.get_modify, if_true]
    by_cases hq : q = p
    · rw [if_pos ⟨hq, hbound⟩, if_pos hq]
      cases e with
      | mic => exact absurd rfl he
      | key k =>
        by_cases hm : (s.positions.get p).mic = .talk k
        · simp [keyTalks, Position.clear, Position.setBinding, hm]
        · simp [keyTalks, Position.clear, Position.setBinding, hm]
      | _ => simp [keyTalks, Position.clear, Position.setBinding]
    · rw [if_neg (fun h => hq h.1), if_neg hq, if_neg hq]
  · rw [unbind_bridges, htcs, hvcs, List.filter_filter]
    congr 1
    funext c
    simp only [staysBehind, Bool.and_comm]
  · rw [unbind_bridges, htuse, hvuse]
end

/-! ## CONFERENCE entries that leave a bridge (R26) -/

section
variable {s : State} {b : BridgeId}

/-- On a bridge that no source enters twice, a CONFERENCE entry leaves and the others stay. -/
theorem leaveConference_contributors (hn : ((s.bridges.get b).contributors.map (·.source)).Nodup) (x : SourceId) :
    ((leaveConference b x s).bridges.get b).contributors =
      (s.bridges.get b).contributors.filter fun c => ¬ (c.source = x ∧ c.origin = .conference) := by
  unfold leaveConference
  by_cases h : isConference s b x = true
  · rw [if_pos h, leave_contributors]
    obtain ⟨y, hy, hyx⟩ := List.any_eq_true.mp h
    simp only [Bool.and_eq_true, decide_eq_true_eq] at hyx
    refine List.filter_congr fun c hc => ?_
    have hsame (hcx : c.source = x) : c.origin = .conference := by
      rw [List.inj_on_of_nodup_map hn hc hy (hcx.trans hyx.1.symm)]
      exact hyx.2
    by_cases hcx : c.source = x
    · simp [hcx, hsame hcx]
    · simp [hcx]
  · rw [if_neg h]
    refine (List.filter_eq_self.mpr fun c hc => ?_).symm
    have hno := List.any_eq_false.mp (Bool.eq_false_iff.mpr h) c hc
    simpa [imp_iff_not_or] using hno

theorem leaveConference_use (d : BridgeId) (x : SourceId) :
    ((leaveConference d x s).bridges.get b).use = (s.bridges.get b).use := by
  unfold leaveConference
  split
  · exact leave_use ..
  · rfl

theorem leaveConference_bridges {d : BridgeId} (h : d ≠ b) (x : SourceId) :
    (leaveConference b x s).bridges.get d = s.bridges.get d := by
  unfold leaveConference leave
  split
  · simp [h]
  · rfl

theorem each_leaveConference_contributors : ∀ (xs : List SourceId) (s : State),
    ((s.bridges.get b).contributors.map (·.source)).Nodup →
    ((s.each xs fun x => leaveConference b x).bridges.get b).contributors =
      (s.bridges.get b).contributors.filter fun c => ¬ (c.source ∈ xs ∧ c.origin = .conference)
  | [], s, _ => by simp
  | x :: xs, s, hn => by
    have hx := leaveConference_contributors hn x
    have hn' : (((leaveConference b x s).bridges.get b).contributors.map (·.source)).Nodup := by
      rw [hx]
      exact hn.sublist (List.filter_sublist.map _)
    rw [each_cons, each_leaveConference_contributors xs _ hn', hx, List.filter_filter]
    refine List.filter_congr fun c _ => ?_
    by_cases hcx : c.source = x
    · by_cases ho : c.origin = .conference <;> simp [hcx, ho]
    · simp [hcx]

/-- Every CONFERENCE entry leaves the bridge, and the OWNER entries stay. -/
theorem clearConference_contributors (hn : ((s.bridges.get b).contributors.map (·.source)).Nodup) :
    ((clearConference b s).bridges.get b).contributors =
      (s.bridges.get b).contributors.filter fun c => c.origin = .owner := by
  rw [clearConference, each_leaveConference_contributors _ s hn]
  refine List.filter_congr fun c hc => ?_
  have hin : c.source ∈ (s.bridges.get b).contributors.map (·.source) := List.mem_map_of_mem hc
  cases ho : c.origin <;> simp [hin]

theorem clearConference_use (d : BridgeId) :
    ((clearConference d s).bridges.get b).use = (s.bridges.get b).use :=
  each_same (fun t : State => (t.bridges.get b).use) (fun x _ => leaveConference_use d x) _ s

theorem clearConference_bridges {d : BridgeId} (h : d ≠ b) :
    (clearConference b s).bridges.get d = s.bridges.get d :=
  each_same (fun t : State => t.bridges.get d) (fun x _ => leaveConference_bridges h x) _ s

theorem clearConference_only (b : BridgeId) (s : State) : { clearConference b s with bridges := s.bridges } = s :=
  each_same (fun t : State => ({ t with bridges := s.bridges } : State))
    (fun x t => by unfold leaveConference; split <;> rfl) _ s

/-- A line's own CONFERENCE entry leaves the bridge with the others of that line. -/
theorem endConferences_contributors (hn : ((s.bridges.get b).contributors.map (·.source)).Nodup) (L : LineId) :
    ((endConferences L s).bridges.get b).contributors = (s.bridges.get b).contributors.filter fun c =>
      ¬ (c.source = lineSource L ∧ c.origin = .conference) := by
  obtain ⟨u, hu, hend⟩ := each_own (fun t => t.bridges.get b) (f := fun d => leaveConference d (lineSource L)) (m := b)
    (fun d hd t => leaveConference_bridges (Ne.symm hd) _) (ids 96) s (List.nodup_finRange 96) (by simp)
  rw [endConferences, hend, leaveConference_contributors (by rw [hu]; exact hn), hu]

theorem endConferences_use (L : LineId) : ((endConferences L s).bridges.get b).use = (s.bridges.get b).use :=
  each_same (fun t : State => (t.bridges.get b).use) (fun d _ => leaveConference_use d _) _ s

/-- What is left of a parked line's bridge: the OWNER entries (R69). -/
theorem parked_contributors (hn : ((s.bridges.get b).contributors.map (·.source)).Nodup) (L : LineId) :
    ((clearConference b (endConferences L s)).bridges.get b).contributors =
      (s.bridges.get b).contributors.filter fun c => c.origin = .owner := by
  have hcs := endConferences_contributors hn L
  rw [clearConference_contributors (by rw [hcs]; exact hn.sublist (List.filter_sublist.map _)), hcs, List.filter_filter]
  refine List.filter_congr fun c _ => ?_
  cases c.origin <;> simp
end

end

end Sys2Proof.Machine

namespace Sys2Proof.Machine
open Sys2Proof

section

/-! # LINE_DROP and LINE_PARK (R66, R69) -/

/-- The channels without the one that an endpoint's binding held (R161). -/
def channelsFreed (s : State) (p : PosId) (e : Endpoint) : Tab (Option Channel) 64 :=
  match channelAt s p e with
  | some c => s.channels.set c none
  | none => s.channels

/-- Steps 1 to 4 of R66 have been taken for the holder (p, e) of line `L` on bridge `b`, which ends with cause NONE. -/
structure HolderLeft (s : State) (o : Option LinkId) (L : LineId) (p : PosId) (e : Endpoint) (b : BridgeId)
    (t : State) : Prop where
  lines : t.lines = s.lines.set L { s.lines.get L with holders := (s.lines.get L).holders.filter (· ≠ (p, e)) }
  positions : t.positions = s.positions.modify p fun x =>
    { x.setBinding e .none with mic := if (keyTalks s (p, e)).isSome then .none else x.mic }
  bridges : ∀ d, d ≠ b → t.bridges.get d = s.bridges.get d
  contributors : (t.bridges.get b).contributors = (s.bridges.get b).contributors.filter (staysBehind s (p, e))
  use : (t.bridges.get b).use = (s.bridges.get b).use
  channels : t.channels = channelsFreed s p e
  told : ToldAlike (talkEnded s o L .none (p, e) s) t
  frame : t.frame = (s.begin o).frame
  gens : t.gens = s.gens
  icm : t.icm = s.icm
  calls : t.calls = s.calls
  hoots : t.hoots = s.hoots

section
variable {s t : State} {o : Option LinkId} {L : LineId} {p : PosId} {e : Endpoint} {b : BridgeId}

theorem holderLeft (hb : (s.lines.get L).bridge = some b) (he : e ≠ .mic) (hx : s.binding p e = .holder L) :
    HolderLeft s o L p e b (releaseChan p e (detachHolder L (p, e) .none (s.begin o))) := by
  obtain ⟨hpos, hcs, huse⟩ := detachHolder_fields (s := s.begin o) hb he hx
  have hchan := detachHolder_channels L (p, e) .none (s.begin o)
  have hothers {d : BridgeId} (hd : d ≠ b) :=
    detachHolder_bridges (s := s.begin o) (d := d) (fun h => hd (Option.some.inj (h.symm.trans hb))) (p, e) .none
  have htold := (toldAlike_begin s o).detachHolder (s := s) (o := o) (L := L) (x := (p, e)) rfl rfl rfl hx .none
  have hframe := lineFrame_detachHolder L (p, e) .none (s.begin o)
  have hlines := detachHolder_lines L (p, e) .none (s.begin o)
  have hgens := detachHolder_gens L (p, e) .none (s.begin o)
  have hkept := (kept_detachHolder L (p, e) .none (s.begin o)).frame
  generalize detachHolder L (p, e) .none (s.begin o) = d at hpos hcs huse hchan hothers htold hframe hlines hgens hkept
  exact {
    lines := (releaseChan_lines ..).trans hlines
    positions := (releaseChan_positions ..).trans hpos
    bridges := fun c hc => by
      rw [releaseChan_bridges]
      exact hothers hc
    contributors := by
      rw [releaseChan_bridges]
      exact hcs
    use := by
      rw [releaseChan_bridges]
      exact huse
    channels := by
      have hat : channelAt d p e = channelAt s p e := channelAt_of_channels hchan p e
      unfold releaseChan channelsFreed
      rw [hat]
      cases channelAt s p e with
      | some c => exact congrArg (·.set c none) hchan
      | none => exact hchan
    told := htold.quiet (releaseChan_log ..) (releaseChan_links ..) (releaseChan_frame ..)
    frame := (releaseChan_frame ..).trans hkept
    gens := (releaseChan_gens ..).trans hgens
    icm := (releaseChan_icm ..).trans hframe.icm
    calls := (releaseChan_calls ..).trans hframe.calls
    hoots := (releaseChan_hoots ..).trans hframe.hoots }

theorem HolderLeft.get (h : HolderLeft s o L p e b t) : t.lines.get L =
    { s.lines.get L with holders := (s.lines.get L).holders.filter (· ≠ (p, e)) } := by rw [h.lines, Tab.get_set_self]

/-! ## While others stay -/

/-- The DISCONNECT of a holder that leaves with cause NONE (R66 step 5). -/
def leaverRecord (s : State) (L : LineId) (p : PosId) (e : Endpoint) (rest : List (PosId × Endpoint)) : Record :=
  { kind := .disconnect, line := some L, pos := some p, endpoint := some e, channel := channelAt s p e,
    cause := some .none, parties := some rest }

theorem endHolder_eq (L : LineId) (p : PosId) (e : Endpoint) (s : State) : endHolder L (p, e) .none false s =
    submit (leaverRecord s L p e ((s.lines.get L).holders.filter (· ≠ (p, e))))
      (releaseChan p e (detachHolder L (p, e) .none s)) := by
  have hchan : channelAt (detachHolder L (p, e) .none s) p e = channelAt s p e :=
    channelAt_of_channels (detachHolder_channels ..) p e
  have hrest : ((detachHolder L (p, e) .none s).lines.get L).holders =
      (s.lines.get L).holders.filter (· ≠ (p, e)) := by rw [detachHolder_lines, Tab.get_modify_self]
  unfold endHolder
  simp only [closingChannel, releaseUnless, hchan, hrest]
  rfl

/-- A holder drops a CONNECTED line that others hold (R66). -/
theorem dropHolder_leaves (hs : (s.lines.get L).state = .connected)
    (hrest : (s.lines.get L).holders.filter (· ≠ (p, e)) ≠ []) : dropHolder L (p, e) .none false s =
      reportLine L (submit (leaverRecord s L p e ((s.lines.get L).holders.filter (· ≠ (p, e))))
        (releaseChan p e (detachHolder L (p, e) .none s))) := by
  have hlines := endHolder_lines L (p, e) .none false s
  have hget : (endHolder L (p, e) .none false s).lines.get L =
      { s.lines.get L with holders := (s.lines.get L).holders.filter (· ≠ (p, e)) } := by
    rw [hlines, Tab.get_modify_self]
  unfold dropHolder
  dsimp only
  rw [hget, if_neg (by simpa using hs), if_neg (by simpa using hrest), endHolder_eq]

/-- With others on the line, parking is leaving (R69). -/
theorem parkHolder_leaves (hin : (p, e) ∈ (s.lines.get L).holders)
    (hrest : (s.lines.get L).holders.filter (· ≠ (p, e)) ≠ []) :
    parkHolder L (p, e) false s = dropHolder L (p, e) .none false s := by
  have hless : ((s.lines.get L).holders.filter (· ≠ (p, e))).length < (s.lines.get L).holders.length :=
    List.length_filter_lt_length_iff_exists.mpr ⟨(p, e), hin, by simp⟩
  have hsome := List.length_pos_iff.mpr hrest
  exact if_neg (by omega)

/-! ## The requests -/

section
variable {l : LinkId}

theorem exec_lineDrop (hmay : mayTake s l .lineDrop (some p)) (ho : (s.positions.get p).isOpen = true) :
    exec (.lineDrop l (idByte p) (endByte e)) s = .next (respond l (BitVec.ofNat 8 ReqKind.lineDrop.code)
      (lineDrop (endByte e) p (s.begin (some l)))) :=
  congrArg Host.Outcome.next (positionRequest_owner hmay {} (fun _ => ho) (by simp) {} (lineDrop (endByte e)))

theorem exec_linePark (hmay : mayTake s l .linePark (some p)) (ho : (s.positions.get p).isOpen = true) :
    exec (.linePark l (idByte p) (endByte e)) s = .next (respond l (BitVec.ofNat 8 ReqKind.linePark.code)
      (linePark (endByte e) p (s.begin (some l)))) :=
  congrArg Host.Outcome.next (positionRequest_owner hmay {} (fun _ => ho) (by simp) {} (linePark (endByte e)))

end

theorem lineDrop_holder (he : e ≠ .mic) (hx : s.binding p e = .holder L) :
    lineDrop (endByte e) p s = done [] (dropHolder L (p, e) .none false s) := by
  cases e <;> simp_all [lineDrop]

theorem lineDrop_monitor (he : e ≠ .mic) (hx : s.binding p e = .monitor L) :
    lineDrop (endByte e) p s = done [] (endMonitor L (p, e) .none s) := by
  cases e <;> simp_all [lineDrop]

theorem lineDrop_none (he : e ≠ .mic) (hx : s.binding p e = .none) : lineDrop (endByte e) p s = done [] s := by
  cases e <;> simp_all [lineDrop]

theorem lineDrop_notBound (he : e ≠ .mic) (hn : s.binding p e ≠ .none)
    (hx : ∀ L, s.binding p e ≠ .holder L ∧ s.binding p e ≠ .monitor L) :
    lineDrop (endByte e) p s = refuse .notBound s := by
  unfold lineDrop
  rw [endpointOf_endByte]
  split
  · rename_i h
    cases h
  · rename_i h
    exact absurd (Option.some.inj h) he
  · rename_i f _ hf
    cases hf
    split
    · rename_i h
      exact absurd h hn
    · rename_i M h
      exact absurd h (hx M).2
    · rename_i M h
      exact absurd h (hx M).1
    · rfl
    · rfl
    · rfl

theorem linePark_holder (he : e ≠ .mic) (hx : s.binding p e = .holder L) : linePark (endByte e) p s =
    done (b1 ((parkHolder L (p, e) false s).lines.get L).state.code) (parkHolder L (p, e) false s) := by
  cases e <;> simp_all [linePark]

theorem linePark_notBound (he : e ≠ .mic) (hx : ∀ L, s.binding p e ≠ .holder L) :
    linePark (endByte e) p s = refuse .notBound s := by
  cases e <;> simp_all [linePark]
end

end

end Sys2Proof.Machine

namespace Sys2Proof.Machine
open Sys2Proof

section

/-! # The last holder's LINE_PARK (R69) -/

/-- The record of a line that its last holder parks (R69). -/
def Line.heldFor (p : PosId) (r : Line) : Line := { r with
  holdOwner := some p
  state := .held
  timer := if r.recallS = 0 then none else some ⟨.recall, 1000 * r.recallS⟩ }

/-- The record of a line that nobody holds or monitors since its last holder parked it (R69). -/
def Line.parked (p : PosId) (r : Line) : Line := { r with
  state := .held
  holders := []
  monitors := []
  holdOwner := some p
  timer := if r.recallS = 0 then none else some ⟨.recall, 1000 * r.recallS⟩ }

/-- The HOLD record (R69). -/
def holdRecord (L : LineId) (p : PosId) (b : BridgeId) (ch : Option ChanId) : Record :=
  { kind := .hold, line := some L, bridge := some b, pos := some p, channel := ch }

/-- The bridge of a parked line loses its CONFERENCE entries, and the line's own leave every other bridge (R69). -/
def unconference (L : LineId) (b : BridgeId) (s : State) : State := clearConference b (endConferences L s)

section
variable {s t : State} {o : Option LinkId} {L : LineId} {p : PosId} {e : Endpoint} {b : BridgeId}

theorem unconference_only (L : LineId) (b : BridgeId) (s : State) :
    { unconference L b s with bridges := s.bridges } = s := by
  have hend : { endConferences L s with bridges := s.bridges } = s :=
    (congrArg (fun v : State => { v with bridges := s.bridges }) (endConferences_eq L s) :)
  have hclear := clearConference_only b (endConferences L s)
  unfold unconference
  generalize endConferences L s = v at hend hclear
  rw [← hend]
  exact (congrArg (fun w : State => { w with bridges := s.bridges }) hclear :)

theorem unconference_use : ((unconference L b s).bridges.get b).use = (s.bridges.get b).use :=
  (clearConference_use b).trans (endConferences_use L)

theorem unconference_bridges {d : BridgeId} (hd : d ≠ b) : unconferred s (unconference L b s) L d :=
  unconferred_congr rfl (clearConference_bridges hd) (endConferences_unconferred L s d)

/-- The last holder's park, step by step (R69). -/
theorem holdLine_steps (hb : (s.lines.get L).bridge = some b) : holdLine L (p, e) false s =
    reportChange [] L .connected .park (submit (holdRecord L p b (channelAt s p e))
      ((unconference L b (endMonitors L .monitorEnd (releaseChan p e (detachHolder L (p, e) .none s)))).modLine L
        (Line.heldFor p))) := by
  have hchan : channelAt (detachHolder L (p, e) .none s) p e = channelAt s p e :=
    channelAt_of_channels (detachHolder_channels ..) p e
  have hbridge : ((detachHolder L (p, e) .none s).lines.get L).bridge = some b := by
    rw [detachHolder_lines, Tab.get_modify_self, hb]
  unfold holdLine
  simp only [closingChannel, releaseUnless, hchan, hbridge]
  rfl

theorem endMonitors_bridges (L : LineId) (c : Cause) (s : State) : (endMonitors L c s).bridges = s.bridges :=
  each_same State.bridges (fun x t => by simp [endMonitor]) _ s

theorem endMonitors_channels (L : LineId) (c : Cause) (s : State) : (endMonitors L c s).channels = s.channels :=
  each_same State.channels (fun x t => by simp [endMonitor]) _ s

/-- A record aside, a call that is ending is ending. -/
theorem CallEnding.of_submit {done mdone : List (PosId × Endpoint)} {r : Record}
    (h : CallEnding s o L done mdone (Machine.submit r t)) : CallEnding s o L done mdone t where
  frame := by simpa using h.frame
  lines := by simpa using h.lines
  gens := by simpa using h.gens
  icm := by simpa using h.icm
  calls := by simpa using h.calls
  hoots := by simpa using h.hoots
  bridges d hd := by simpa using h.bridges d hd
  bindings := ⟨fun p e => (State.binding_congr (submit_positions r t) p e).symm.trans (h.bindings.1 p e),
    fun p => by simpa using h.bindings.2 p⟩
  channels c := by simpa using h.channels c

/-- What the leaving of the last holder and of every monitor leaves of a call (R65, R69). -/
theorem parkEnding (hcall : InCall s L) (hh : (s.lines.get L).holders = [(p, e)])
    (hleft : HolderLeft s o L p e b t) (ht : releaseChan p e (detachHolder L (p, e) .none (s.begin o)) = t) :
    CallEnding s o L [(p, e)] (s.lines.get L).monitors (endMonitors L .monitorEnd t) ∧
      ToldAlike (monitorsEnded s o L .monitorEnd (talkEnded s o L .none (p, e) s)) (endMonitors L .monitorEnd t) := by
  obtain ⟨hdone, -⟩ := (callEnding_begin s o L).endHolder (toldAlike_begin s o) (x := (p, e)) (rest := []) hh
    hcall.once.1 hcall.holders .none
  rw [endHolder_eq, ht] at hdone
  have hmon : (t.lines.get L).monitors = (s.lines.get L).monitors := by rw [hleft.get]
  have hend : endMonitors L .monitorEnd t =
      t.each (s.lines.get L).monitors fun x => endMonitor L x .monitorEnd := by rw [endMonitors, hmon]
  rw [hend]
  refine CallEnding.monitors (by simp) (s.lines.get L).monitors [] _ t (fun x hx => ?_) hcall.once.2 hdone.of_submit
    hleft.told
  obtain ⟨hxm, hxb⟩ := hcall.monitors x hx
  refine ⟨hxm, hxb, fun hin => ?_⟩
  have hheld := (hcall.holders x (hh ▸ hin)).2
  rw [hxb] at hheld
  cases hheld

theorem parkEnding_line (hh : (s.lines.get L).holders = [(p, e)])
    (h : CallEnding s o L [(p, e)] (s.lines.get L).monitors t) :
    (t.modLine L (Line.heldFor p)).lines = s.lines.set L (Line.parked p (s.lines.get L)) := by
  have hnone : (s.lines.get L).holders.filter (· ∉ [(p, e)]) = [] := by simp [hh]
  have hmon : (s.lines.get L).monitors.filter (· ∉ (s.lines.get L).monitors) = [] := by
    simp [List.filter_eq_nil_iff]
  rw [modLine_lines, h.lines, Tab.modify_modify]
  exact Tab.modify_congr (g := fun _ => _) (by simp only [Line.heldFor, Line.parked, hnone, hmon])

/-- LINE_STATE and WATCH of a parked line (R69, R85, R153). -/
def parkReported (s : State) (L : LineId) (p : PosId) (u : State) : State :=
  post (watchRoute (s.routes.get L)) (.watch L .connected .held .park)
    (post (lineRoute s L) (.lineState L .held 0 (some p) (s.lines.get L).camp.length) u)

/-- HOLD is recorded and the line's state told, once the line is HELD (R69). -/
theorem parkReported_told {u w v : State} {x : Record} (h : ToldAlike w u) (hf : u.frame = (s.begin o).frame)
    (hr : u.lines.get L = Line.parked p (s.lines.get L))
    (hv : reportChange [] L .connected .park (Machine.submit x u) = v) :
    ToldAlike (parkReported s L p (Machine.submit x w)) v ∧ { v with log := u.log, links := u.links } = u := by
  have hget : (Machine.submit x u).lines.get L = Line.parked p (s.lines.get L) := by rw [submit_lines, hr]
  have htold := (h.submit x).reportChange (s := s.begin o) (L := L) (new := .held) (old := .connected) (n := 0)
    (owner := some p) (m := (s.lines.get L).camp.length) ((submit_frame x u).trans hf) (by simp) (by rw [hget]; rfl)
    (by rw [hget]; rfl) (by rw [hget]; rfl) (by rw [hget]; rfl) .park
  rw [hv] at htold
  refine ⟨htold, ?_⟩
  rw [← hv, reportChange_eq, submit_eq]
end

/-- What LINE_PARK of the last holder (p, e) of line `L` on bridge `b` leaves (R69). -/
structure Parked (s : State) (o : Option LinkId) (L : LineId) (p : PosId) (e : Endpoint) (b : BridgeId) (v : State) :
    Prop where
  lines : v.lines = s.lines.set L (Line.parked p (s.lines.get L))
  bindings : unbound s v ((p, e) :: (s.lines.get L).monitors)
  channels : v.channels = channelsFreed s p e
  told : ToldAlike (parkReported s L p (submit (holdRecord L p b (channelAt s p e))
    (monitorsEnded s o L .monitorEnd (talkEnded s o L .none (p, e) s)))) v
  use : (v.bridges.get b).use = (s.bridges.get b).use
  contributors : ((s.bridges.get b).contributors.map (·.source)).Nodup → (v.bridges.get b).contributors =
    (s.bridges.get b).contributors.filter fun c => c.origin = .owner && staysBehind s (p, e) c
  bridges : ∀ d, d ≠ b → unconferred s v L d
  gens : v.gens = s.gens
  calls : v.calls = s.calls ∧ v.icm = s.icm ∧ v.hoots = s.hoots
  rest : onlyCalls s v

section
variable {s m v : State} {o : Option LinkId} {L : LineId} {p : PosId} {e : Endpoint} {b : BridgeId}

/-- The conference entries leave, and the line becomes HELD, once holder and monitors have left (R69). -/
theorem parked_of_ending (hh : (s.lines.get L).holders = [(p, e)])
    (hend : CallEnding s o L [(p, e)] (s.lines.get L).monitors m)
    (htold : ToldAlike (monitorsEnded s o L .monitorEnd (talkEnded s o L .none (p, e) s)) m)
    (hchan : m.channels = channelsFreed s p e) (hothers : ∀ d, d ≠ b → m.bridges.get d = s.bridges.get d)
    (hcs : (m.bridges.get b).contributors = (s.bridges.get b).contributors.filter (staysBehind s (p, e)))
    (huse : (m.bridges.get b).use = (s.bridges.get b).use) (hkept : Kept (s.begin o) v)
    (hv : reportChange [] L .connected .park (submit (holdRecord L p b (channelAt s p e))
      ((unconference L b m).modLine L (Line.heldFor p))) = v) : Parked s o L p e b v := by
  have honly := unconference_only L b m
  have hkuse := unconference_use (L := L) (b := b) (s := m)
  have hkbr {d : BridgeId} (hd : d ≠ b) : unconferred m (unconference L b m) L d := unconference_bridges hd
  have hkcs (hn : ((m.bridges.get b).contributors.map (·.source)).Nodup) :
      ((unconference L b m).bridges.get b).contributors =
        (m.bridges.get b).contributors.filter fun c => c.origin = .owner := parked_contributors hn L
  generalize unconference L b m = k at honly hkuse hkbr hkcs hv
  have hklines : k.lines = m.lines := (congrArg State.lines honly :)
  have hlines : (k.modLine L (Line.heldFor p)).lines = s.lines.set L (Line.parked p (s.lines.get L)) := by
    rw [modLine_lines, hklines, ← modLine_lines]
    exact parkEnding_line hh hend
  have hframe : k.frame = m.frame := (congrArg State.frame honly :)
  have hquiet : ToldAlike _ (k.modLine L (Line.heldFor p)) :=
    htold.quiet (congrArg State.log honly :) (congrArg State.links honly :) hframe
  obtain ⟨hvtold, hvu⟩ := parkReported_told hquiet (hframe.trans hend.frame) (by rw [hlines, Tab.get_set_self]) hv
  have hbridges : v.bridges = k.bridges := (congrArg State.bridges hvu :)
  have hpos : v.positions = m.positions := (congrArg State.positions hvu :).trans (congrArg State.positions honly :)
  exact {
    lines := (congrArg State.lines hvu :).trans hlines
    bindings := ⟨fun q f => (State.binding_congr hpos q f).trans (hend.bindings.1 q f),
      fun q => by rw [hpos, hend.bindings.2 q]⟩
    channels := ((congrArg State.channels hvu :).trans (congrArg State.channels honly :)).trans hchan
    told := hvtold
    use := by rw [hbridges, hkuse, huse]
    contributors := fun hn => by
      rw [hbridges, hkcs (by rw [hcs]; exact hn.sublist (List.filter_sublist.map _)), hcs, List.filter_filter]
    bridges := fun d hd => unconferred_congr (hothers d hd).symm (by rw [hbridges]) (hkbr hd)
    gens := ((congrArg State.gens hvu :).trans (congrArg State.gens honly :)).trans hend.gens
    calls := ⟨((congrArg State.calls hvu :).trans (congrArg State.calls honly :)).trans hend.calls,
      ((congrArg State.icm hvu :).trans (congrArg State.icm honly :)).trans hend.icm,
      ((congrArg State.hoots hvu :).trans (congrArg State.hoots honly :)).trans hend.hoots⟩
    rest := onlyCalls_of (frame_of_begin hkept.frame) hkept.posSet hkept.lineSet }

/-- The last holder parks the line (R69). -/
theorem parked_holdLine (hcall : InCall s L) (hh : (s.lines.get L).holders = [(p, e)])
    (hb : (s.lines.get L).bridge = some b) : Parked s o L p e b (holdLine L (p, e) false (s.begin o)) := by
  obtain ⟨hmic, hbind⟩ := hcall.holders (p, e) (by simp [hh])
  have hleft := holderLeft (o := o) hb hmic hbind
  have hkept := kept_holdLine L (p, e) false (s.begin o)
  have hsteps := holdLine_steps (s := s.begin o) (p := p) (e := e) hb
  generalize ht : releaseChan p e (detachHolder L (p, e) .none (s.begin o)) = t at hleft hsteps
  obtain ⟨hend, htold⟩ := parkEnding hcall hh hleft ht
  have hbr := endMonitors_bridges L .monitorEnd t
  exact parked_of_ending hh hend htold ((endMonitors_channels ..).trans hleft.channels)
    (fun d hd => by rw [hbr, hleft.bridges d hd]) (by rw [hbr, hleft.contributors]) (by rw [hbr, hleft.use]) hkept
    hsteps.symm
end

end

end Sys2Proof.Machine

namespace Sys2Proof.Machine
open Sys2Proof

section

/-! # O34, put together -/

section
variable {s : State} {l : LinkId} {L : LineId} {p : PosId} {e : Endpoint} {b : BridgeId}

/-- A monitor leaves its line, without a notice (R65). -/
theorem endMonitor_unbinds (he : e = .ha ∨ e = .hb) (hx : s.binding p e = .monitor L) :
    endMonitor L (p, e) .none s = (s.modLine L fun r => { r with monitors := r.monitors.filter (· ≠ (p, e)) }).modPos p
      (fun x => x.setBinding e .none) := by
  have hclear : Position.clear e = fun x => x.setBinding e .none := by rcases he with rfl | rfl <;> rfl
  have hbound : (s.modLine L fun r => { r with monitors := r.monitors.filter (· ≠ (p, e)) }).binding p e =
      .monitor L := hx
  unfold endMonitor unbind
  dsimp only
  rw [if_neg (by rw [hbound]; simp), if_pos rfl, hclear]

/-- A holder that leaves while others hold the line, by either request (R66, R69). -/
theorem dropHolder_left (hs : (s.lines.get L).state = .connected) (hb : (s.lines.get L).bridge = some b)
    (he : e ≠ .mic) (hx : s.binding p e = .holder L) {rest : List (PosId × Endpoint)}
    (hr : (s.lines.get L).holders.filter (· ≠ (p, e)) = rest) (hrest : rest ≠ []) {v : State}
    (hv : dropHolder L (p, e) .none false (s.begin (some l)) = v) :
    ToldAlike (post (lineRoute s L)
        (.lineState L .connected rest.length (s.lines.get L).holdOwner (s.lines.get L).camp.length)
        (holderEnded s (some l) L .none (p, e) rest s)) v ∧
      ∃ t, HolderLeft s (some l) L p e b t ∧ { v with log := t.log, links := t.links } = t := by
  have hleft := holderLeft (o := some l) hb he hx
  rw [dropHolder_leaves (s := s.begin (some l)) hs fun h => hrest (hr.symm.trans h)] at hv
  generalize releaseChan p e (detachHolder L (p, e) .none (s.begin (some l))) = t at hleft hv
  have hget := hleft.get
  rw [hr] at hget
  have htold := (hleft.told.submit (leaverRecord s L p e rest)).reportLine (s := s.begin (some l)) (L := L)
    ((submit_frame _ t).trans hleft.frame) ((congrArg (·.get L) (submit_lines _ t)).trans hget)
  have hv' : reportLine L (submit (leaverRecord s L p e rest) t) = v := by
    rw [← hr]
    exact hv
  rw [hv', hs] at htold
  refine ⟨htold, t, hleft, ?_⟩
  rw [← hv', reportLine, reportLineTo, submit_eq]
  rfl

/-- What either request leaves of a holder that goes while others stay (R66, R69). -/
theorem left_rest {v t : State} (h : HolderLeft s (some l) L p e b t)
    (hv : { v with log := t.log, links := t.links } = t) :
    { v with lines := s.lines, bridges := s.bridges, positions := s.positions, channels := s.channels, log := s.log
             links := s.links, origin := s.origin, released := s.released } = s :=
  takeRest ((congrArg State.frame hv :).trans h.frame) ((congrArg State.gens hv :).trans h.gens)
    ((congrArg State.icm hv :).trans h.icm) ((congrArg State.calls hv :).trans h.calls)
    ((congrArg State.hoots hv :).trans h.hoots)

end

end

/-- Settles O34: a leaving holder is `dropHolder_left`, the last one's drop a release (`released_endHolders`), its park
`parked_holdLine`. -/
theorem lineDropPark : Obligations.LineDropPark := by
  intro l p e s hopen he v drop
  refine ⟨fun hmay => ⟨fun hv => ?_, fun hv hno => ?_, fun L hv hh => ?_⟩, fun hmay hno => ?_, ?_⟩
  · have hexec := exec_lineDrop (e := e) hmay hopen
    rw [lineDrop_none (s := s.begin (some l)) he hv] at hexec
    exact ⟨_, hexec, rfl, (noNotice.refl s).respond l _, answered_respond ..⟩
  · have hexec := exec_lineDrop (e := e) hmay hopen
    rw [lineDrop_notBound (s := s.begin (some l)) he hv hno] at hexec
    exact ⟨_, hexec, rfl, (noNotice.refl s).respond l _, answered_respond ..⟩
  · have hexec := exec_lineDrop (e := e) hmay hopen
    rw [lineDrop_monitor (s := s.begin (some l)) he hv, endMonitor_unbinds (s := s.begin (some l)) hh hv] at hexec
    exact ⟨_, hexec, (noNotice.refl s).respond l _, answered_respond .., rfl, rfl, rfl⟩
  · have hexec := exec_linePark (e := e) hmay hopen
    rw [linePark_notBound (s := s.begin (some l)) he hno] at hexec
    exact ⟨_, hexec, rfl, (noNotice.refl s).respond l _, answered_respond ..⟩
  intro L b hv r hs hb hin rest ch talks freed stays
  refine ⟨fun hrest park hmay => ?_, fun hh hcall => ⟨fun hmay => ?_, fun hmay => ?_⟩⟩
  · intro u
    generalize ht : dropHolder L (p, e) .none false (s.begin (some l)) = t
    obtain ⟨htold, t', hleft, htt⟩ := dropHolder_left hs hb he hv rfl hrest ht
    have hlines : t.lines = s.lines.set L { r with holders := rest } := (congrArg State.lines htt :).trans hleft.lines
    have hbridges : t.bridges = t'.bridges := (congrArg State.bridges htt :)
    have hexec : exec (if park then .linePark l (idByte p) (endByte e) else .lineDrop l (idByte p) (endByte e)) s =
        .next (respond l (BitVec.ofNat 8 (if park then ReqKind.linePark else .lineDrop).code)
          (done (if park then [5#8] else []) t)) := by
      cases park with
      | false =>
        have h := exec_lineDrop (e := e) hmay hopen
        rw [lineDrop_holder (s := s.begin (some l)) he hv, ht] at h
        exact h
      | true =>
        have h := exec_linePark (e := e) hmay hopen
        rw [linePark_holder (s := s.begin (some l)) he hv, parkHolder_leaves (s := s.begin (some l)) hin hrest, ht,
          hlines, Tab.get_set_self, show r.state = .connected from hs] at h
        exact h
    refine ⟨_, hexec, answered_respond .., (congrArg State.positions htt :).trans hleft.positions,
      (congrArg State.channels htt :).trans hleft.channels, hlines, htold.log, fun d hd => ?_, ?_,
      noNotice.respond (x := (t, _)) htold.notices l _, left_rest hleft htt⟩
    · exact (congrArg (·.get d) hbridges).trans (hleft.bridges d hd)
    · exact (congrArg (fun x => (x.get b).contributors) hbridges).trans hleft.contributors
  · have hexec := exec_lineDrop (e := e) hmay hopen
    rw [lineDrop_holder (s := s.begin (some l)) he hv, dropHolder_alone (s := s.begin (some l)) hs hh] at hexec
    exact ⟨_, hexec, answered_respond .., (released_endHolders hcall.onCall hs (by simp)).respond l _ _⟩
  · intro w
    have hpark := parked_holdLine (o := some l) hcall hh hb
    have halone : parkHolder L (p, e) false (s.begin (some l)) = holdLine L (p, e) false (s.begin (some l)) :=
      if_pos (by simp [show (s.lines.get L).holders = [(p, e)] from hh])
    have hexec := exec_linePark (e := e) hmay hopen
    rw [linePark_holder (s := s.begin (some l)) he hv, halone] at hexec
    generalize holdLine L (p, e) false (s.begin (some l)) = t at hpark hexec
    rw [hpark.lines, Tab.get_set_self] at hexec
    obtain ⟨hcalls, hicm, hhoots⟩ := hpark.calls
    exact ⟨_, hexec, answered_respond .., hpark.lines, hpark.bindings, hpark.channels, hpark.gens, hpark.told.log,
      hpark.use, hpark.contributors, hpark.bridges, hcalls, hicm, hhoots, hpark.rest,
      noNotice.respond (x := (t, _)) hpark.told.notices l _⟩

end Sys2Proof.Machine

namespace Sys2Proof.Machine
open Sys2Proof

section

/-! # The line block takes a ring whatever the detectors hold (R95)

Every operation that a ring leads to commutes with a change of the detectors (`State.withRings`). -/

/-- The state with other ring detectors. -/
def State.withRings (s : State) (R : Tab RingDet 192) : State := { s with rings := R }

section
variable (s : State) (R : Tab RingDet 192)

@[simp] theorem withRings_lines : (s.withRings R).lines = s.lines := rfl
@[simp] theorem withRings_log : (s.withRings R).log = s.log := rfl
@[simp] theorem withRings_binding (p : PosId) (e : Endpoint) : (s.withRings R).binding p e = s.binding p e := rfl
@[simp] theorem talksOn_withRings (p : PosId) (k : KeyId) : talksOn (s.withRings R) p k = talksOn s p k := rfl
@[simp] theorem isConference_withRings (b : BridgeId) (x : SourceId) :
    isConference (s.withRings R) b x = isConference s b x := rfl
@[simp] theorem channelAt_withRings (p : PosId) (e : Endpoint) : channelAt (s.withRings R) p e = channelAt s p e := rfl
@[simp] theorem closingChannel_withRings (keep : Bool) (p : PosId) (e : Endpoint) :
    closingChannel (s.withRings R) keep p e = closingChannel s keep p e := rfl
@[simp] theorem lineRoute_withRings (L : LineId) : lineRoute (s.withRings R) L = lineRoute s L := rfl
@[simp] theorem posRoute_withRings (ps : List PosId) : posRoute (s.withRings R) ps = posRoute s ps := rfl

@[simp] theorem modLine_withRings (L : LineId) (f : Line → Line) :
    (s.withRings R).modLine L f = (s.modLine L f).withRings R := rfl
@[simp] theorem modGen_withRings (L : LineId) (f : Generator → Generator) :
    (s.withRings R).modGen L f = (s.modGen L f).withRings R := rfl
@[simp] theorem modPos_withRings (p : PosId) (f : Position → Position) :
    (s.withRings R).modPos p f = (s.modPos p f).withRings R := rfl
@[simp] theorem post_withRings (dest : LinkId → Bool) (n : Notice) :
    post dest n (s.withRings R) = (post dest n s).withRings R := rfl
@[simp] theorem reportLineTo_withRings (extra : List PosId) (L : LineId) :
    reportLineTo extra L (s.withRings R) = (reportLineTo extra L s).withRings R := rfl
@[simp] theorem reportWatch_withRings (L : LineId) (old new : LineState) (c : Cause) :
    reportWatch L old new c (s.withRings R) = (reportWatch L old new c s).withRings R := rfl
@[simp] theorem startTimer_withRings (L : LineId) (k : TimerKind) (ms : Nat) :
    startTimer L k ms (s.withRings R) = (startTimer L k ms s).withRings R := rfl
@[simp] theorem stopTimer_withRings (L : LineId) : stopTimer L (s.withRings R) = (stopTimer L s).withRings R := rfl
@[simp] theorem leave_withRings (b : BridgeId) (x : SourceId) :
    leave b x (s.withRings R) = (leave b x s).withRings R := rfl
@[simp] theorem setLevel_withRings (new : LogLevel) :
    setLevel new (s.withRings R) = (setLevel new s).withRings R := rfl
@[simp] theorem admitRecord_withRings (r : Record) :
    admitRecord r (s.withRings R) = (admitRecord r s).withRings R := rfl
@[simp] theorem lose_withRings (r : Record) : lose r (s.withRings R) = (lose r s).withRings R := rfl

/-- A fold of steps that look at no detector. -/
theorem each_withRings {α : Type} {f : α → State → State} (h : ∀ x t, f x (t.withRings R) = (f x t).withRings R)
    (xs : List α) : (s.withRings R).each xs f = (s.each xs f).withRings R := by
  induction xs generalizing s with
  | nil => rfl
  | cons x xs ih =>
    calc (s.withRings R).each (x :: xs) f = (f x (s.withRings R)).each xs f := rfl
      _ = ((f x s).withRings R).each xs f := by rw [h]
      _ = (s.each (x :: xs) f).withRings R := ih _

/-! ## Records, reports and offers -/

@[simp] theorem throttle_withRings : throttle (s.withRings R) = (throttle s).withRings R := by
  by_cases h : s.log.level = .normal ∧ s.log.hw ≤ s.log.fill <;> simp [throttle, h]

@[simp] theorem submit_withRings (r : Record) : submit r (s.withRings R) = (submit r s).withRings R := by
  unfold submit
  cases h : s.log.level with
  | normal => simp [h]
  | throttled =>
    by_cases hk : r.kind.suppressible
    · simp [h, hk]
    · by_cases hf : s.log.fill < Config.logCapacity <;> simp [h, hk, hf]
  | lost => simp [h]

@[simp] theorem reportChange_withRings (extra : List PosId) (L : LineId) (old : LineState) (c : Cause) :
    reportChange extra L old c (s.withRings R) = (reportChange extra L old c s).withRings R := by
  by_cases h : (s.lines.get L).state = old <;> simp [reportChange, h]

@[simp] theorem enterStateTo_withRings (extra : List PosId) (L : LineId) (new : LineState) (c : Cause) :
    enterStateTo extra L new c (s.withRings R) = (enterStateTo extra L new c s).withRings R := by simp [enterStateTo]

@[simp] theorem enterState_withRings (L : LineId) (new : LineState) (c : Cause) :
    enterState L new c (s.withRings R) = (enterState L new c s).withRings R := enterStateTo_withRings s R [] L new c

@[simp] theorem enterAlerting_withRings (L : LineId) :
    enterAlerting L (s.withRings R) = (enterAlerting L s).withRings R := by simp [enterAlerting]

@[simp] theorem makeOffer_withRings (L : LineId) : makeOffer L (s.withRings R) = (makeOffer L s).withRings R := by
  simp only [makeOffer, withRings_lines]
  split <;> rfl

@[simp] theorem offerOrIdle_withRings (L : LineId) (c : Cause) :
    offerOrIdle L c (s.withRings R) = (offerOrIdle L c s).withRings R := by
  by_cases h : (s.lines.get L).camp = [] <;> simp [offerOrIdle, h]

@[simp] theorem endClearing_withRings (L : LineId) :
    endClearing L (s.withRings R) = (endClearing L s).withRings R := by
  by_cases h : (s.lines.get L).pendingRing <;> simp [endClearing, h]

@[simp] theorem abandon_withRings (L : LineId) : abandon L (s.withRings R) = (abandon L s).withRings R := by
  simp [abandon]

/-! ## The end of a call -/

@[simp] theorem unbind_withRings (p : PosId) (e : Endpoint) (c : Cause) :
    unbind p e c (s.withRings R) = (unbind p e c s).withRings R := by
  by_cases h : s.binding p e = .none
  · simp [unbind, h]
  · by_cases hc : c = .none <;> simp [unbind, h, hc]

@[simp] theorem leaveEndpoint_withRings (p : PosId) (e : Endpoint) (b : BridgeId) :
    leaveEndpoint p e b (s.withRings R) = (leaveEndpoint p e b s).withRings R := by
  unfold leaveEndpoint
  split <;> rfl

@[simp] theorem endLineTalk_withRings (p : PosId) (k : KeyId) (L : LineId) (c d : Cause) :
    endLineTalk p k L c d (s.withRings R) = (endLineTalk p k L c d s).withRings R := by
  by_cases ht : talksOn s p k
  · cases h : (s.lines.get L).bridge <;> simp [endLineTalk, ht, h]
  · simp [endLineTalk, ht]

@[simp] theorem endTalkOfEndpoint_withRings (p : PosId) (e : Endpoint) (L : LineId) (c : Cause) :
    endTalkOfEndpoint p e L c (s.withRings R) = (endTalkOfEndpoint p e L c s).withRings R := by
  cases e with
  | key k => exact endLineTalk_withRings ..
  | ha | hb | mic => rfl

@[simp] theorem releaseChan_withRings (p : PosId) (e : Endpoint) :
    releaseChan p e (s.withRings R) = (releaseChan p e s).withRings R := by
  simp only [releaseChan, channelAt_withRings]
  split <;> rfl

@[simp] theorem releaseUnless_withRings (keep : Bool) (p : PosId) (e : Endpoint) :
    releaseUnless keep p e (s.withRings R) = (releaseUnless keep p e s).withRings R := by
  cases keep <;> simp [releaseUnless]

@[simp] theorem detachHolder_withRings (L : LineId) (x : PosId × Endpoint) (c : Cause) :
    detachHolder L x c (s.withRings R) = (detachHolder L x c s).withRings R := by
  simp only [detachHolder, modLine_withRings, withRings_lines]
  split <;> simp

@[simp] theorem endHolder_withRings (L : LineId) (x : PosId × Endpoint) (c : Cause) (keep : Bool) :
    endHolder L x c keep (s.withRings R) = (endHolder L x c keep s).withRings R := by simp [endHolder]

@[simp] theorem endHolders_withRings (L : LineId) (c : Cause) :
    endHolders L c (s.withRings R) = (endHolders L c s).withRings R :=
  each_withRings s R (fun _ _ => endHolder_withRings ..) _

@[simp] theorem endMonitor_withRings (L : LineId) (x : PosId × Endpoint) (c : Cause) :
    endMonitor L x c (s.withRings R) = (endMonitor L x c s).withRings R := by simp [endMonitor]

@[simp] theorem endMonitors_withRings (L : LineId) (c : Cause) :
    endMonitors L c (s.withRings R) = (endMonitors L c s).withRings R :=
  each_withRings s R (fun _ _ => endMonitor_withRings ..) _

@[simp] theorem leaveConference_withRings (b : BridgeId) (x : SourceId) :
    leaveConference b x (s.withRings R) = (leaveConference b x s).withRings R := by
  by_cases h : isConference s b x <;> simp [leaveConference, h]

@[simp] theorem endConferences_withRings (L : LineId) :
    endConferences L (s.withRings R) = (endConferences L s).withRings R :=
  each_withRings s R (fun _ _ => leaveConference_withRings ..) _

@[simp] theorem dropLineBridge_withRings (L : LineId) :
    dropLineBridge L (s.withRings R) = (dropLineBridge L s).withRings R := by
  simp only [dropLineBridge, withRings_lines]
  split <;> rfl

@[simp] theorem vacate_withRings (L : LineId) (c : Cause) :
    vacate L c (s.withRings R) = (vacate L c s).withRings R := by simp [vacate]

@[simp] theorem enterClearing_withRings (extra : List PosId) (L : LineId) (c : Cause) :
    enterClearing extra L c (s.withRings R) = (enterClearing extra L c s).withRings R := by
  by_cases h : (s.lines.get L).guardMs = 0 <;> simp [enterClearing, h]

@[simp] theorem releaseLine_withRings (extra : List PosId) (L : LineId) (c m : Cause) :
    releaseLine extra L c m (s.withRings R) = (releaseLine extra L c m s).withRings R := by simp [releaseLine]

@[simp] theorem releaseHold_withRings (L : LineId) (c : Cause) :
    releaseHold L c (s.withRings R) = (releaseHold L c s).withRings R := by
  simp only [releaseHold, withRings_lines]
  split <;> simp

@[simp] theorem teardownLine_withRings (L : LineId) (c : Cause) :
    teardownLine L c (s.withRings R) = (teardownLine L c s).withRings R := by
  simp only [teardownLine, withRings_lines]
  split <;> simp

/-! ## A ring taken by the line block -/

theorem takeRingStart_withRings (L : LineId) :
    takeRingStart L (s.withRings R) = (takeRingStart L s).withRings R := by
  unfold takeRingStart
  cases h : (s.lines.get L).state with
  | offered => cases hq : (s.lines.get L).camp <;> simp [h, hq]
  | alerting | connected | held => by_cases ht : (s.lines.get L).ltype = .mr <;> simp [h, ht]
  | idle | clearing | disabled | outOfService => simp [h]

theorem takeRingEnd_withRings (L : LineId) : takeRingEnd L (s.withRings R) = (takeRingEnd L s).withRings R := by
  by_cases ht : (s.lines.get L).ltype = .ar
  · cases h : (s.lines.get L).state with
    | connected | held => by_cases hf : (s.lines.get L).farPresent <;> simp [takeRingEnd, ht, h, hf]
    | alerting | clearing | idle | offered | disabled | outOfService => simp [takeRingEnd, ht, h]
  · simp [takeRingEnd, ht]

theorem deliverRing_withRings (L : LineId) (started : Bool) :
    deliverRing L started (s.withRings R) = (deliverRing L started s).withRings R := by
  cases started
  · exact takeRingEnd_withRings s R L
  · exact takeRingStart_withRings s R L
end

end

end Sys2Proof.Machine

namespace Sys2Proof.Machine
open Sys2Proof

section

/-! # A signalling sample and the ring it raises (R88, R95) -/

/-! ## What a passed sample can raise (R92 to R94) -/

namespace RingDet

/-- The filter passes samples of the raw sample's own value, and leaves the state of the detector (R90). -/
theorem filter_passes (b : Bool) (d : RingDet) :
    (∃ n, (d.filter b).1 = List.replicate n b) ∧ (d.filter b).2.state = d.state := by
  cases b with
  | true =>
    by_cases hl : d.lastPresent
    · exact ⟨⟨1, by simp [filter, hl]⟩, by simp [filter, hl]⟩
    · by_cases hh : d.held
      · exact ⟨⟨2, by simp [filter, hl, hh]⟩, by simp [filter, hl, hh]⟩
      · exact ⟨⟨0, by simp [filter, hl, hh]⟩, by simp [filter, hl, hh]⟩
  | false =>
    by_cases hh : d.held
    · exact ⟨⟨2, by simp [filter, hh]⟩, by simp [filter, hh]⟩
    · exact ⟨⟨1, by simp [filter, hh]⟩, by simp [filter, hh]⟩

theorem toQuiet_rings (P n : Nat) (d : RingDet) : (d.toQuiet P n).rings = false := by
  by_cases h : P ≤ n <;> simp [toQuiet, rings, h]

/-- A passed sample raises RING_START when it is present and RING_END when it is absent, if anything (R92 to R94). -/
theorem step_raises {g : SigParams} {p e : Bool} {d : RingDet} {es : List Bool} (h : e ∈ (step g (d, es) p).2) :
    e ∈ es ∨ e = p := by
  have hpresent : (d.present g).2 ≠ some false := by
    unfold present
    cases d.state with
    | burst => by_cases h : samplesOf g.minBurst ≤ d.burst + 1 <;> simp [h]
    | quiet | armed | ringing | tail => simp
  have habsent : (d.absent g).2 ≠ some true := by
    unfold absent
    cases d.state with
    | burst => by_cases h : d.gap + 1 ≤ samplesOf g.gapAllow <;> simp [h]
    | tail => by_cases h : samplesOf g.postQuiet ≤ d.tail + 1 <;> simp [h]
    | quiet | armed | ringing => simp
  refine (List.mem_append.mp h).imp_right fun hy => ?_
  cases p with
  | true => cases e with
    | true => rfl
    | false => exact absurd (Option.mem_toList.mp hy) hpresent
  | false => cases e with
    | true => exact absurd (Option.mem_toList.mp hy) habsent
    | false => rfl

/-- While a ring goes on, presence raises nothing, and without a ring absence raises nothing (R92 to R94). -/
theorem step_of_rings {g : SigParams} {p : Bool} {d : RingDet} (es : List Bool) (h : d.rings = p) :
    ∃ d', step g (d, es) p = (d', es) ∧ d'.rings = p := by
  cases p with
  | true =>
    rcases rings_iff.mp h with hs | hs
    · exact ⟨d, by simp [step, present, hs], h⟩
    · exact ⟨{ d with state := .ringing, tail := 0 }, by simp [step, present, hs], rfl⟩
  | false =>
    cases hs : d.state with
    | quiet => exact ⟨_, by simp [step, absent, hs]; rfl, toQuiet_rings ..⟩
    | armed => exact ⟨d, by simp [step, absent, hs], h⟩
    | burst =>
      by_cases hg : d.gap + 1 ≤ samplesOf g.gapAllow
      · exact ⟨{ d with gap := d.gap + 1 }, by simp [step, absent, hs, hg], h⟩
      · exact ⟨_, by simp [step, absent, hs, hg]; rfl, toQuiet_rings ..⟩
    | ringing | tail => simp [rings, hs] at h

theorem passes_raise {g : SigParams} {p e : Bool} (n : Nat) {x : RingDet × List Bool}
    (h : e ∈ ((List.replicate n p).foldl (step g) x).2) : e ∈ x.2 ∨ e = p := by
  induction n generalizing x with
  | zero => exact .inl h
  | succ n ih => exact (ih h).elim step_raises .inr

theorem passes_of_rings {g : SigParams} {p : Bool} (n : Nat) {d : RingDet} (es : List Bool) (h : d.rings = p) :
    ((List.replicate n p).foldl (step g) (d, es)).2 = es := by
  induction n generalizing d with
  | zero => rfl
  | succ n ih =>
    obtain ⟨d', he, hd'⟩ := step_of_rings (g := g) es h
    rw [List.replicate_succ, List.foldl_cons, he]
    exact ih hd'

/-- A raw sample raises events of its own value alone. -/
theorem sample_raises {g : SigParams} {b e : Bool} {d : RingDet} (h : e ∈ (d.sample g b).2) : e = b := by
  obtain ⟨⟨n, hn⟩, -⟩ := filter_passes b d
  rw [sample, hn] at h
  exact (passes_raise n h).resolve_left List.not_mem_nil

/-- A present sample raises nothing while a ring goes on, and an absent one nothing without a ring. -/
theorem sample_of_rings {g : SigParams} {b : Bool} {d : RingDet} (h : d.rings = b) : (d.sample g b).2 = [] := by
  obtain ⟨⟨n, hn⟩, hs⟩ := filter_passes b d
  have hrings : (d.filter b).2.rings = d.rings := by simp only [rings, hs]
  rw [sample, hn]
  exact passes_of_rings n [] (hrings.trans h)

/-- A raw sample that raises one event: a RING_START where no ring goes on, or the RING_END of one that does. -/
theorem rings_of_sample {g : SigParams} {b e : Bool} {d : RingDet} (h : (d.sample g b).2 = [e]) : d.rings = !e := by
  have he : e = b := sample_raises (by rw [h]; exact List.mem_singleton_self e)
  have hne : d.rings ≠ b := fun hr => by simp [sample_of_rings hr] at h
  rw [he]
  exact Bool.eq_not.mpr hne

end RingDet

/-! ## The events of a sample, taken one after another -/

theorem inFreeOrder_nil {α : Type} (f : α → State → State) (s : State) : s.inFreeOrder [] f = s := rfl

theorem inFreeOrder_singleton {α : Type} (x : α) (f : α → State → State) (s : State) :
    s.inFreeOrder [x] f = f x s := rfl

/-- What one entry of a list contributes, where the others contribute nothing. -/
theorem flatMap_of_only {α β : Type} {xs : List α} (hn : xs.Nodup) {a : α} (ha : a ∈ xs) {f : α → List β}
    (hf : ∀ b, b ≠ a → f b = []) : xs.flatMap f = f a := by
  obtain ⟨l, r, rfl⟩ := List.append_of_mem ha
  have hl : l.flatMap f = [] := List.flatMap_eq_nil_iff.mpr fun b hb => hf b fun h =>
    (List.nodup_append.mp hn).2.2 b hb a List.mem_cons_self h
  have hr : r.flatMap f = [] := List.flatMap_eq_nil_iff.mpr fun b hb => hf b fun h =>
    (List.nodup_cons.mp (List.nodup_append.mp hn).2.1).1 (h ▸ hb)
  rw [List.flatMap_append, List.flatMap_cons, hl, hr, List.nil_append, List.append_nil]

section
variable {s : State} {heard : HwId → Bool} {bits : BitVec 192}

/-- What a line makes of a sample that every highway brings (R88). -/
theorem sampleOf_heard (s : State) (bits : BitVec 192) (L : LineId) : sampleOf s (fun _ => true) bits L =
    if ((s.lines.get L).ltype = .mr ∨ (s.lines.get L).ltype = .ar) ∧ s.lineUp L = true then
      (s.rings.get L).sample (s.lines.get L).sig (bits.getLsbD L.val)
    else (s.rings.get L, []) := by
  unfold sampleOf
  exact if_congr (by rw [Bool.and_true, detectorRuns_iff]) rfl rfl

theorem ringEvents_none (h : ∀ L, (sampleOf s heard bits L).2 = []) : ringEvents s heard bits = [] :=
  List.flatMap_eq_nil_iff.mpr fun L _ => by rw [h, List.map_nil]

theorem ringEvents_one {L : LineId} {e : Bool} (h : (sampleOf s heard bits L).2 = [e])
    (hothers : ∀ M, M ≠ L → (sampleOf s heard bits M).2 = []) : ringEvents s heard bits = [(L, e)] := by
  have hnodup : (ids 192).Nodup := List.nodup_finRange 192
  rw [ringEvents, flatMap_of_only hnodup (mem_ids L) fun M hM => by rw [hothers M hM, List.map_nil], h,
    List.map_singleton]

/-- The detectors after a sample. -/
def sampledRings (s : State) (heard : HwId → Bool) (bits : BitVec 192) : Tab RingDet 192 :=
  Tab.ofFn fun L => (sampleOf s heard bits L).1

theorem signallingSample_eq : signallingSample heard bits s =
    (s.withRings (sampledRings s heard bits)).inFreeOrder (ringEvents s heard bits) fun x => deliverRing x.1 x.2 := rfl

theorem deliverRing_rings (L : LineId) (e : Bool) (s : State) : (deliverRing L e s).rings = s.rings := by
  cases e
  · exact takeRingEnd_rings
  · exact takeRingStart_rings

/-- The line block's part leaves every detector as the sample has put it (R95). -/
theorem signallingSample_rings : (signallingSample heard bits s).rings = sampledRings s heard bits :=
  each_same State.rings (fun _ _ => deliverRing_rings ..) _ _

theorem signallingSample_none (h : ∀ L, (sampleOf s heard bits L).2 = []) :
    signallingSample heard bits s = s.withRings (sampledRings s heard bits) := by
  rw [signallingSample_eq, ringEvents_none h, inFreeOrder_nil]

theorem signallingSample_one {L : LineId} {e : Bool} (h : (sampleOf s heard bits L).2 = [e])
    (hothers : ∀ M, M ≠ L → (sampleOf s heard bits M).2 = []) :
    signallingSample heard bits s = (deliverRing L e s).withRings (sampledRings s heard bits) := by
  rw [signallingSample_eq, ringEvents_one h hothers, inFreeOrder_singleton, deliverRing_withRings]

/-- The event of a ring, as the line block takes it, beside the move of the detector. -/
theorem exec_ringEvent {L : LineId} {e : Bool}
    (hruns : ((s.lines.get L).ltype = .mr ∨ (s.lines.get L).ltype = .ar) ∧ s.lineUp L = true)
    (hrings : (s.rings.get L).rings = !e) :
    ∃ R, exec (if e then .ringStart L else .ringEnd L) s = .next ((deliverRing L e (s.begin none)).withRings R) := by
  cases e with
  | true =>
    have hno : ¬ ((s.rings.get L).state = .ringing ∨ (s.rings.get L).state = .tail) := by
      simp [← RingDet.rings_iff, hrings]
    exact ⟨_, congrArg Host.Outcome.next ((raiseRing_raised (s := s.begin none) hruns hno).trans
      (takeRingStart_withRings (s.begin none) _ L))⟩
  | false =>
    exact ⟨_, congrArg Host.Outcome.next ((endRing_over (s := s.begin none) hruns (RingDet.rings_iff.mp hrings)).trans
      (takeRingEnd_withRings (s.begin none) _ L))⟩
end

/-- The effect of a signalling sample: every detector that runs takes its bit, and one ring has the effect of its event
(R88, R95). -/
theorem signallingSample_taken (bits : BitVec 192) (s : State) :
    ∃ t, exec (.signallingSample bits) s = .next t ∧
      (∀ L, t.rings.get L = (sampleOf s (fun _ => true) bits L).1) ∧
      ((∀ L, (sampleOf s (fun _ => true) bits L).2 = []) →
        { t with rings := s.rings, origin := s.origin, released := s.released } = s) ∧
      ∀ L e, (sampleOf s (fun _ => true) bits L).2 = [e] →
        (∀ M, M ≠ L → (sampleOf s (fun _ => true) bits M).2 = []) →
        ∃ u, exec (if e then .ringStart L else .ringEnd L) s = .next u ∧ { t with rings := u.rings } = u := by
  refine ⟨signallingSample (fun _ => true) bits (s.begin none), rfl, fun L => ?_, fun h => ?_,
    fun L e h hothers => ?_⟩
  · rw [signallingSample_rings, sampledRings, Tab.get_ofFn]
    rfl
  · rw [signallingSample_none (s := s.begin none) (heard := fun _ => true) (bits := bits) h]
    rfl
  · have hone := signallingSample_one (s := s.begin none) (heard := fun _ => true) (bits := bits) h hothers
    rw [sampleOf_heard] at h
    by_cases hruns : ((s.lines.get L).ltype = .mr ∨ (s.lines.get L).ltype = .ar) ∧ s.lineUp L = true
    · rw [if_pos hruns] at h
      obtain ⟨R, hexec⟩ := exec_ringEvent hruns (RingDet.rings_of_sample h)
      exact ⟨_, hexec, by rw [hone]; rfl⟩
    · rw [if_neg hruns] at h
      cases h

end

end Sys2Proof.Machine

namespace Sys2Proof.Machine
open Sys2Proof

section

/-! # Runs of raw samples (R90 to R94)

A run of equal raw samples moves a detector along one of four courses: `quieted` counts the quiet, `counted` the burst,
`gapped` a gap in it and `tailed` the post-quiet. Each course is one step lemma and an induction on the run
(`run_replicate`). -/

namespace RingDet

/-- Raw samples taken one after another by a detector that has raised some events. -/
def run (g : SigParams) (bits : List Bool) (x : RingDet × List Bool) : RingDet × List Bool :=
  bits.foldl (fun y b => ((y.1.sample g b).1, y.2 ++ (y.1.sample g b).2)) x

variable {g : SigParams}

theorem run_append (bs cs : List Bool) (x : RingDet × List Bool) : run g (bs ++ cs) x = run g cs (run g bs x) :=
  List.foldl_append

/-- A course `f` that every sample of a run follows. -/
theorem run_replicate {f : Nat → RingDet × List Bool} {b : Bool} {n : Nat}
    (h : ∀ i < n, run g [b] (f i) = f (i + 1)) : run g (List.replicate n b) (f 0) = f n := by
  induction n with
  | zero => rfl
  | succ n ih => rw [List.replicate_succ', run_append, ih fun i hi => h i (by omega), h n (by omega)]

/-! ## Detectors that hold no sample

`last` is the last sample that the filter has passed. -/

def inQuiet (n : Nat) (last : Bool) : RingDet := ⟨.quiet, n, 0, 0, 0, false, last⟩
def inArmed (last : Bool) : RingDet := ⟨.armed, 0, 0, 0, 0, false, last⟩
def inBurst (k gap : Nat) (last : Bool) : RingDet := ⟨.burst, 0, k, gap, 0, false, last⟩
def inRinging : RingDet := ⟨.ringing, 0, 0, 0, 0, false, true⟩
def inTail (n : Nat) : RingDet := ⟨.tail, 0, 0, 0, n, false, false⟩

/-- After `n` absent samples, toward the pre-quiet (R91, R92). -/
def quieted (g : SigParams) (n : Nat) : RingDet :=
  if samplesOf g.preQuiet ≤ n then inArmed false else inQuiet n false

/-- After `k` present samples of a burst, and what they raised (R93). -/
def counted (g : SigParams) (k : Nat) : RingDet × List Bool :=
  if samplesOf g.minBurst ≤ k then (inRinging, [true]) else (inBurst k 0 true, [])

/-- After `n` absent samples in a burst of `k` present ones (R93). -/
def gapped (g : SigParams) (k n : Nat) : RingDet :=
  if n ≤ samplesOf g.gapAllow then inBurst k n (decide (n = 0)) else quieted g n

/-- After `n` absent samples in a ring, before the post-quiet is complete (R94). -/
def tailed (n : Nat) : RingDet := if n = 0 then inRinging else inTail n

theorem start_eq_quieted : start (samplesOf g.preQuiet) = quieted g 0 := by
  by_cases h : samplesOf g.preQuiet = 0 <;> simp [start, quieted, h, inArmed, inQuiet]

/-! ## One raw sample -/

/-- An absent raw sample is passed by a filter that holds none (R90). -/
theorem run_absent {d : RingDet} (h : d.held = false) (es : List Bool) : run g [false] (d, es) =
    ((({ d with lastPresent := false } : RingDet).absent g).1,
      es ++ (({ d with lastPresent := false } : RingDet).absent g).2.toList) := by
  simp [run, sample, filter, step, h]

/-- A present raw sample is passed after a present one (R90). -/
theorem run_present {d : RingDet} (h : d.lastPresent = true) (es : List Bool) : run g [true] (d, es) =
    ((d.present g).1, es ++ (d.present g).2.toList) := by
  simp [run, sample, filter, step, h]

/-- A present raw sample after an absent one is held, until the next tells what it was (R90). -/
theorem run_held {d : RingDet} (hh : d.held = false) (hl : d.lastPresent = false) (es : List Bool) :
    run g [true] (d, es) = ({ d with held := true }, es) := by
  simp [run, sample, filter, hh, hl]

/-- Two present raw samples after an absent one are passed together (R90). -/
theorem run_pair {d : RingDet} (hh : d.held = false) (hl : d.lastPresent = false) (es : List Bool) :
    run g [true, true] (d, es) = [true, true].foldl (step g) ({ d with lastPresent := true }, es) := by
  simp [run, sample, filter, step, hh, hl]

theorem run_absent_quieted (n : Nat) (es : List Bool) :
    run g [false] (quieted g n, es) = (quieted g (n + 1), es) := by
  by_cases h : samplesOf g.preQuiet ≤ n
  · have h' : samplesOf g.preQuiet ≤ n + 1 := by omega
    simp [quieted, h, h', run_absent, inArmed, absent]
  · by_cases h' : samplesOf g.preQuiet ≤ n + 1 <;>
      simp [quieted, h, h', run_absent, inQuiet, inArmed, absent, toQuiet]

theorem run_absent_gapped (k n : Nat) (es : List Bool) :
    run g [false] (gapped g k n, es) = (gapped g k (n + 1), es) := by
  by_cases h : n ≤ samplesOf g.gapAllow
  · by_cases h' : n + 1 ≤ samplesOf g.gapAllow
    · simp [gapped, h, h', run_absent, inBurst, absent]
    · by_cases hP : samplesOf g.preQuiet ≤ n + 1 <;>
        simp [gapped, quieted, h, h', hP, run_absent, inBurst, inArmed, inQuiet, absent, toQuiet]
  · have h' : ¬ n + 1 ≤ samplesOf g.gapAllow := by omega
    rw [gapped, gapped, if_neg h, if_neg h', run_absent_quieted]

theorem run_absent_tailed {n : Nat} (h : n + 1 < samplesOf g.postQuiet) (es : List Bool) :
    run g [false] (tailed n, es) = (tailed (n + 1), es) := by
  by_cases hn : n = 0
  · simp [tailed, hn, run_absent, inRinging, inTail, absent]
  · simp [tailed, hn, run_absent, inTail, absent, Nat.not_le.mpr h]

/-- The last sample of the post-quiet (R94). -/
theorem run_absent_tailed_last {n : Nat} (hn : n ≠ 0) (h : samplesOf g.postQuiet ≤ n + 1) (es : List Bool) :
    (run g [false] (tailed n, es)).2 = es ++ [false] := by
  simp [tailed, hn, run_absent, inTail, absent, h]

theorem run_present_counted (k : Nat) : run g [true] (counted g k) = counted g (k + 1) := by
  by_cases h : samplesOf g.minBurst ≤ k
  · have h' : samplesOf g.minBurst ≤ k + 1 := by omega
    simp [counted, h, h', run_present, inRinging, present]
  · by_cases h' : samplesOf g.minBurst ≤ k + 1 <;>
      simp [counted, h, h', run_present, inBurst, inRinging, present]

theorem run_present_ringing (es : List Bool) : run g [true] (inRinging, es) = (inRinging, es) := by
  simp [inRinging, run_present, present]

theorem run_present_quiet (h : 0 < samplesOf g.preQuiet) (es : List Bool) :
    run g [true] (inQuiet 0 true, es) = (inQuiet 0 true, es) := by
  simp [inQuiet, run_present, present, toQuiet, Nat.ne_of_gt h]

/-! ## Runs -/

theorem run_absents_quieted (n m : Nat) (es : List Bool) :
    run g (List.replicate n false) (quieted g m, es) = (quieted g (m + n), es) :=
  run_replicate (f := fun i => (quieted g (m + i), es)) fun i _ => run_absent_quieted (m + i) es

theorem run_absents_gapped (k n : Nat) (es : List Bool) :
    run g (List.replicate n false) (inBurst k 0 true, es) = (gapped g k n, es) :=
  run_replicate (f := fun i => (gapped g k i, es)) fun i _ => run_absent_gapped k i es

theorem run_absents_ringing {n : Nat} (h : n < samplesOf g.postQuiet) (es : List Bool) :
    run g (List.replicate n false) (inRinging, es) = (tailed n, es) :=
  run_replicate (f := fun i => (tailed i, es)) fun i hi => run_absent_tailed (by omega) es

theorem run_presents_counted (k n : Nat) :
    run g (List.replicate n true) (counted g k) = counted g (k + n) :=
  run_replicate (f := fun i => counted g (k + i)) fun i _ => run_present_counted (k + i)

theorem run_presents_ringing (n : Nat) (es : List Bool) :
    run g (List.replicate n true) (inRinging, es) = (inRinging, es) :=
  run_replicate (f := fun _ => (inRinging, es)) fun _ _ => run_present_ringing es

theorem run_presents_quiet (h : 0 < samplesOf g.preQuiet) (n : Nat) (es : List Bool) :
    run g (List.replicate n true) (inQuiet 0 true, es) = (inQuiet 0 true, es) :=
  run_replicate (f := fun _ => (inQuiet 0 true, es)) fun _ _ => run_present_quiet h es

/-- A present run of two samples or more begins with a pair. -/
theorem run_presents_pair (n : Nat) (x : RingDet × List Bool) :
    run g (List.replicate (n + 2) true) x = run g (List.replicate n true) (run g [true, true] x) := by
  rw [← run_append, Nat.add_comm n 2, List.replicate_add]
  rfl

/-! ## A present run after absence -/

/-- A detector in QUIET whose pre-quiet is not complete (R92). -/
theorem run_presents_quieted {n : Nat} (h : n < samplesOf g.preQuiet) (k : Nat) (es : List Bool) :
    run g (List.replicate (k + 2) true) (quieted g n, es) = (inQuiet 0 true, es) := by
  have hpair : run g [true, true] (quieted g n, es) = (inQuiet 0 true, es) := by
    have h0 : 0 < samplesOf g.preQuiet := by omega
    simp [quieted, Nat.not_le.mpr h, run_pair, inQuiet, step, present, toQuiet, Nat.ne_of_gt h0]
  rw [run_presents_pair, hpair, run_presents_quiet (by omega)]

/-- An ARMED detector begins a burst (R92, R93). -/
theorem run_presents_armed (k : Nat) :
    run g (List.replicate (k + 2) true) (inArmed false, []) = counted g (k + 2) := by
  have hpair : run g [true, true] (inArmed false, []) = counted g 2 := by
    by_cases h : samplesOf g.minBurst ≤ 2 <;>
      simp [counted, h, run_pair, inArmed, inBurst, inRinging, step, present]
  rw [run_presents_pair, hpair, run_presents_counted, Nat.add_comm]

/-- A burst goes on after a gap (R93). -/
theorem run_presents_burst {k : Nat} (h : k + 1 < samplesOf g.minBurst) (gap n : Nat) :
    run g (List.replicate (n + 2) true) (inBurst k gap false, []) = counted g (k + (n + 2)) := by
  have hpair : run g [true, true] (inBurst k gap false, []) = counted g (k + 2) := by
    by_cases h' : samplesOf g.minBurst ≤ k + 2 <;>
      simp [counted, h', Nat.not_le.mpr h, run_pair, inBurst, inRinging, step, present]
  rw [run_presents_pair, hpair, run_presents_counted, Nat.add_assoc, Nat.add_comm 2]

/-- A ring goes on within its post-quiet (R94). -/
theorem run_presents_tailed (n k : Nat) (es : List Bool) :
    run g (List.replicate (k + 2) true) (tailed n, es) = (inRinging, es) := by
  by_cases hn : n = 0
  · rw [tailed, if_pos hn, run_presents_ringing]
  · have hpair : run g [true, true] (tailed n, es) = (inRinging, es) := by
      simp [tailed, hn, run_pair, inTail, inRinging, step, present]
    rw [run_presents_pair, hpair, run_presents_ringing]

/-! ## What a ring takes, from the starting state on -/

theorem quieted_complete : quieted g (samplesOf g.preQuiet) = inArmed false := if_pos le_rfl

theorem counted_short {k : Nat} (h : k < samplesOf g.minBurst) : counted g k = (inBurst k 0 true, []) :=
  if_neg (Nat.not_le.mpr h)

theorem counted_complete : counted g (samplesOf g.minBurst) = (inRinging, [true]) := if_pos le_rfl

/-- The pre-quiet, taken whole (R91, R92). -/
theorem run_preQuiet : run g (List.replicate (samplesOf g.preQuiet) false) (start (samplesOf g.preQuiet), []) =
    (inArmed false, []) := by
  rw [start_eq_quieted, run_absents_quieted, Nat.zero_add, quieted_complete]

/-- Presence before the pre-quiet is complete (R92). -/
theorem run_preQuiet_broken {n : Nat} (h : n < samplesOf g.preQuiet) (k : Nat) :
    run g (List.replicate n false ++ List.replicate (k + 2) true) (start (samplesOf g.preQuiet), []) =
      (inQuiet 0 true, []) := by
  rw [run_append, start_eq_quieted, run_absents_quieted, Nat.zero_add, run_presents_quieted h]

/-- A run shorter than a minimum burst raises nothing (R93). -/
theorem run_presents_short {k : Nat} (h : k < samplesOf g.minBurst) :
    (run g (List.replicate k true) (inArmed false, [])).2 = [] := by
  match k with
  | 0 => rfl
  | 1 => exact congrArg Prod.snd (run_held (d := inArmed false) rfl rfl [])
  | k + 2 => rw [run_presents_armed, counted_short h]

/-- A present run of two samples or more, one short of a minimum burst at most, is a burst. -/
theorem run_presents_begun {k : Nat} (h2 : 2 ≤ k) (h : k < samplesOf g.minBurst) :
    run g (List.replicate k true) (inArmed false, []) = (inBurst k 0 true, []) := by
  obtain ⟨k, rfl⟩ := Nat.exists_eq_add_of_le' h2
  rw [run_presents_armed, counted_short h]

/-- A minimum burst rings (R93). -/
theorem run_minBurst (h : 2 ≤ samplesOf g.minBurst) :
    run g (List.replicate (samplesOf g.minBurst) true) (inArmed false, []) = (inRinging, [true]) := by
  obtain ⟨k, hk⟩ := Nat.exists_eq_add_of_le' h
  rw [hk, run_presents_armed, ← hk, counted_complete]

/-- A burst that a gap within the gap allowance has interrupted counts on (R93). -/
theorem run_presents_gapped {k n j : Nat} (hn : 0 < n) (hG : n ≤ samplesOf g.gapAllow) (hj : 2 ≤ j)
    (h : k + j ≤ samplesOf g.minBurst) : run g (List.replicate j true) (gapped g k n, []) = counted g (k + j) := by
  obtain ⟨j, rfl⟩ := Nat.exists_eq_add_of_le' hj
  rw [gapped, if_pos hG, decide_eq_false (Nat.ne_of_gt hn), run_presents_burst (by omega)]

/-- The post-quiet, taken whole, ends the ring (R94). -/
theorem run_postQuiet (h : 2 ≤ samplesOf g.postQuiet) (es : List Bool) :
    (run g (List.replicate (samplesOf g.postQuiet) false) (inRinging, es)).2 = es ++ [false] := by
  obtain ⟨n, hn⟩ := Nat.exists_eq_add_of_le' h
  rw [hn, List.replicate_succ', run_append, run_absents_ringing (by omega),
    run_absent_tailed_last (by omega) (by omega)]

/-- A sample that the filter holds is passed with the next one, with that one's value (R90). -/
theorem filter_held {d : RingDet} (hh : d.held = false) (hl : d.lastPresent = false) :
    (d.filter true).1 = [] ∧ ∀ b, ((d.filter true).2.filter b).1 = [b, b] := by
  simp [filter, hh, hl]

end RingDet

end

/-- Settles O57: the sample is `signallingSample_taken`; a run of samples follows the courses `quieted`, `counted`,
`gapped` and `tailed`. -/
theorem ringDetection : Obligations.RingDetection := by
  unfold Obligations.RingDetection
  refine ⟨fun bits s => ?_, fun g hM hQ => ?_, fun d hh hl => ?_⟩
  · have h := signallingSample_taken bits s
    simp only [sampleOf_heard] at h
    exact h
  · intro run absent present P M G Q armed rung
    have hrun (bits : List Bool) (x : RingDet × List Bool) : run bits x = RingDet.run g bits x := rfl
    have happend (bs cs : List Bool) (x : RingDet × List Bool) : run (bs ++ cs) x = run cs (run bs x) :=
      RingDet.run_append bs cs x
    have harmed : armed = (.inArmed false, []) := RingDet.run_preQuiet
    have hrung : rung = (.inRinging, [true]) :=
      (congrArg (run (present M)) harmed).trans (RingDet.run_minBurst hM)
    have htail (n : Nat) (hn : n < Q) : run (absent n) rung = (.tailed n, [true]) :=
      (congrArg (run (absent n)) hrung).trans (RingDet.run_absents_ringing hn [true])
    refine ⟨by rw [harmed], by rw [harmed]; rfl, fun n hn k => ?_, fun k hk => ?_, by rw [hrung], by rw [hrung]; rfl,
      fun k n h2 hk => ?_, fun n hn => ⟨by rw [htail n hn], fun j hj => ?_⟩, ?_⟩
    · intro x
      have hx : x = (.inQuiet 0 true, []) := RingDet.run_preQuiet_broken hn k
      rw [hx]
      exact ⟨rfl, rfl, rfl⟩
    · rw [harmed]
      exact RingDet.run_presents_short hk
    · intro x
      have hx : x = (.gapped g k n, []) := calc
        x = run (absent n) (run (present k) (.inArmed false, [])) := by rw [← harmed]; exact happend ..
        _ = run (absent n) (.inBurst k 0 true, []) := congrArg _ (RingDet.run_presents_begun h2 hk)
        _ = (.gapped g k n, []) := RingDet.run_absents_gapped k n []
      rw [hx]
      refine ⟨rfl, fun hn hG => ⟨?_, fun j hj => ⟨fun hlt => ?_, fun heq => ?_⟩⟩, fun hG => ?_⟩
      · simp only [RingDet.gapped, if_pos (show n ≤ samplesOf g.gapAllow from hG), RingDet.inBurst]
      · rw [hrun, RingDet.run_presents_gapped hn hG hj hlt.le, RingDet.counted_short hlt]
      · rw [hrun, RingDet.run_presents_gapped hn hG hj heq.le, heq, RingDet.counted_complete]
      · rw [RingDet.gapped, if_neg (Nat.not_le.mpr hG), RingDet.quieted]
        by_cases hP : P ≤ n
        · rw [if_pos hP, if_pos hP, if_pos hP]
          exact ⟨rfl, rfl, rfl⟩
        · rw [if_neg hP, if_neg hP, if_neg hP]
          exact ⟨rfl, rfl, rfl⟩
    · obtain ⟨j, rfl⟩ := Nat.exists_eq_add_of_le' hj
      have hring : run (absent n ++ present (j + 2)) rung = (.inRinging, [true]) := by
        rw [happend, htail n hn]
        exact RingDet.run_presents_tailed n j [true]
      rw [hring]
      exact ⟨rfl, rfl⟩
    · rw [hrung]
      exact RingDet.run_postQuiet hQ [true]
  · obtain ⟨hnone, hboth⟩ := RingDet.filter_held hh hl
    exact ⟨hnone, hboth false, hboth true⟩

end Sys2Proof.Machine

namespace Sys2Proof
open Machine

section

/-! # Tables in which a list of entries is changed -/

/-- Every entry that a list names is changed by `f`, in list order. -/
def Tab.modifyEach {α : Type} {n : Nat} (f : α → α) (xs : List (Fin n)) (t : Tab α n) : Tab α n :=
  xs.foldl (fun t i => t.modify i f) t

@[simp] theorem Tab.modifyEach_nil {α : Type} {n : Nat} (f : α → α) (t : Tab α n) : t.modifyEach f [] = t := rfl

@[simp] theorem Tab.modifyEach_cons {α : Type} {n : Nat} (f : α → α) (i : Fin n) (xs : List (Fin n)) (t : Tab α n) :
    t.modifyEach f (i :: xs) = (t.modify i f).modifyEach f xs := rfl

/-- A change that does no more the second time leaves each entry that is named changed once. -/
theorem Tab.get_modifyEach {α : Type} {n : Nat} {f : α → α} (hf : ∀ a, f (f a) = f a) (i : Fin n) :
    ∀ (xs : List (Fin n)) (t : Tab α n), (t.modifyEach f xs).get i = if i ∈ xs then f (t.get i) else t.get i
  | [], t => by simp
  | x :: xs, t => by
    rw [Tab.modifyEach_cons, Tab.get_modifyEach hf i xs, Tab.get_modify]
    by_cases hx : i = x
    · simp [hx, hf]
    · simp [hx]

/-- An entry that is present, changed. -/
theorem Tab.modify_map_some {α : Type} {n : Nat} {t : Tab (Option α) n} {i : Fin n} {a : α} (h : t.get i = some a)
    (f : α → α) : t.modify i (Option.map f) = t.set i (some (f a)) := by simp [Tab.modify, h]

end

end Sys2Proof

namespace Sys2Proof.Machine
open Sys2Proof

section

/-! # What the intercom's operations change, write and tell (R102, R107 to R116)

The operations of the intercom block change six tables; what else they do is write records and send notices. `IcmStep`
has one rule for each of them. -/

/-- The tables that the operations of the intercom block change, and the channels released so far. -/
structure IcmTables where
  positions : Tab Position 48
  bridges : Tab Bridge 96
  icm : Tab IcmPos 48
  calls : Tab (Option Call) 96
  channels : Tab (Option Channel) 64
  released : List ChanId

def State.icmTables (s : State) : IcmTables :=
  ⟨s.positions, s.bridges, s.icm, s.calls, s.channels, s.released⟩

def State.withIcmTables (s : State) (v : IcmTables) : State :=
  { s with positions := v.positions, bridges := v.bridges, icm := v.icm, calls := v.calls, channels := v.channels,
           released := v.released }

/-- From `s` on, only those tables, the log and the links have changed: the tables are `v` now, the time base stands, and
what was written and told is as in `u`. -/
structure IcmStep (s : State) (v : IcmTables) (u t : State) : Prop where
  only : { t with positions := s.positions, bridges := s.bridges, icm := s.icm, calls := s.calls, channels := s.channels,
                  log := s.log, links := s.links, released := s.released } = s
  tables : t.icmTables = v
  time : t.log.time = s.log.time
  told : ToldAlike u t

theorem icmStep_begin (s : State) (o : Option LinkId) : IcmStep (s.begin o) (s.begin o).icmTables s (s.begin o) :=
  ⟨rfl, rfl, rfl, toldAlike_begin s o⟩

section
variable {s u t : State} {v : IcmTables}

theorem IcmStep.frame (h : IcmStep s v u t) : t.frame = s.frame := (congrArg State.frame h.only :)
theorem IcmStep.icmRecord (h : IcmStep s v u t) : t.icmRecord = s.icmRecord := (congrArg State.icmRecord h.only :)
theorem IcmStep.icmAlertS (h : IcmStep s v u t) : t.icmAlertS = s.icmAlertS := (congrArg State.icmAlertS h.only :)
theorem IcmStep.timeValid (h : IcmStep s v u t) : t.timeValid = s.timeValid := (congrArg State.timeValid h.only :)
theorem IcmStep.positions (h : IcmStep s v u t) : t.positions = v.positions := congrArg IcmTables.positions h.tables
theorem IcmStep.bridges (h : IcmStep s v u t) : t.bridges = v.bridges := congrArg IcmTables.bridges h.tables
theorem IcmStep.icm (h : IcmStep s v u t) : t.icm = v.icm := congrArg IcmTables.icm h.tables
theorem IcmStep.calls (h : IcmStep s v u t) : t.calls = v.calls := congrArg IcmTables.calls h.tables
theorem IcmStep.channels (h : IcmStep s v u t) : t.channels = v.channels := congrArg IcmTables.channels h.tables
theorem IcmStep.released (h : IcmStep s v u t) : t.released = v.released := congrArg IcmTables.released h.tables

/-- Everything else is as before the request that began the step. -/
theorem IcmStep.rest {s : State} {o : Option LinkId} (h : IcmStep (s.begin o) v u t) :
    { t with positions := s.positions, bridges := s.bridges, icm := s.icm, calls := s.calls, channels := s.channels,
             log := s.log, links := s.links, origin := s.origin, released := s.released } = s :=
  (congrArg (fun w : State => { w with origin := s.origin, released := s.released }) h.only :)

/-! ## Changes of the tables -/

theorem IcmStep.change (h : IcmStep s v u t) (f : IcmTables → IcmTables) :
    IcmStep s (f v) u (t.withIcmTables (f t.icmTables)) :=
  ⟨h.only, congrArg f h.tables, h.time, h.told.quiet rfl rfl rfl⟩

theorem IcmStep.modPos (h : IcmStep s v u t) (p : PosId) (f : Position → Position) :
    IcmStep s { v with positions := v.positions.modify p f } u (t.modPos p f) :=
  h.change fun v => { v with positions := v.positions.modify p f }

theorem IcmStep.modBridge (h : IcmStep s v u t) (b : BridgeId) (f : Bridge → Bridge) :
    IcmStep s { v with bridges := v.bridges.modify b f } u (t.modBridge b f) :=
  h.change fun v => { v with bridges := v.bridges.modify b f }

theorem IcmStep.modIcm (h : IcmStep s v u t) (p : PosId) (f : IcmPos → IcmPos) :
    IcmStep s { v with icm := v.icm.modify p f } u (t.modIcm p f) :=
  h.change fun v => { v with icm := v.icm.modify p f }

theorem IcmStep.setIcm (h : IcmStep s v u t) (p : PosId) (st : IcmState) :
    IcmStep s { v with icm := v.icm.modify p fun x => { x with state := st } } u (Machine.setIcm p st t) := h.modIcm p _

theorem IcmStep.setWaiting (h : IcmStep s v u t) (p : PosId) (c : Option BridgeId) :
    IcmStep s { v with icm := v.icm.modify p fun x => { x with waiting := c } } u (Machine.setWaiting p c t) :=
  h.modIcm p _

theorem IcmStep.modCall (h : IcmStep s v u t) (c : BridgeId) (f : Call → Call) :
    IcmStep s { v with calls := v.calls.modify c (Option.map f) } u (t.modCall c f) :=
  h.change fun v => { v with calls := v.calls.modify c (Option.map f) }

theorem IcmStep.setCall (h : IcmStep s v u t) (c : BridgeId) (r : Option Call) :
    IcmStep s { v with calls := v.calls.set c r } u (t.setCall c r) :=
  h.change fun v => { v with calls := v.calls.set c r }

theorem IcmStep.setChan (h : IcmStep s v u t) (c : ChanId) (r : Option Channel) :
    IcmStep s { v with channels := v.channels.set c r } u (t.setChan c r) :=
  h.change fun v => { v with channels := v.channels.set c r }

/-! ## Sources (R22, R23) -/

theorem IcmStep.joinEndpoint (h : IcmStep s v u t) (p : PosId) (e : Endpoint) (b : BridgeId) :
    IcmStep s { v with bridges := (Machine.joinEndpoint p e b 0 t).bridges } u (Machine.joinEndpoint p e b 0 t) := by
  have hjoin : Machine.joinEndpoint p e b 0 t = { t with bridges := (Machine.joinEndpoint p e b 0 t).bridges } :=
    (congrArg (fun w : State => { w with bridges := (Machine.joinEndpoint p e b 0 t).bridges })
      (joinEndpoint_only p e b t 0) :)
  rw [hjoin]
  exact h.change fun v => { v with bridges := (Machine.joinEndpoint p e b 0 t).bridges }

theorem IcmStep.leaveEndpoint (h : IcmStep s v u t) (p : PosId) (e : Endpoint) (b : BridgeId) :
    IcmStep s { v with bridges := (Machine.leaveEndpoint p e b t).bridges } u (Machine.leaveEndpoint p e b t) := by
  have hleave : Machine.leaveEndpoint p e b t = { t with bridges := (Machine.leaveEndpoint p e b t).bridges } := by
    unfold Machine.leaveEndpoint
    split <;> rfl
  rw [hleave]
  exact h.change fun v => { v with bridges := (Machine.leaveEndpoint p e b t).bridges }

/-! ## Records and notices -/

theorem submit_time (r : Record) (s : State) : (submit r s).log.time = s.log.time :=
  (congrArg Log.time (kept_submit r s).logSet :)

theorem IcmStep.submit (h : IcmStep s v u t) (r : Record) : IcmStep s v (Machine.submit r u) (Machine.submit r t) where
  only := by
    rw [submit_eq]
    exact h.only
  tables := by
    rw [submit_eq]
    exact h.tables
  time := (submit_time r t).trans h.time
  told := h.told.submit r

theorem IcmStep.postPos (h : IcmStep s v u t) (p : PosId) (n : Notice) :
    IcmStep s v (post (posRoute s [p]) n u) (Machine.postPos p n t) :=
  ⟨h.only, h.tables, h.time, h.told.post (posRoute_of_frame h.frame _) n⟩

theorem IcmStep.postIcmState (h : IcmStep s v u t) (p : PosId) (cause : Cause) :
    IcmStep s v (post (posRoute s [p]) (.icmState p (t.icmState p) cause (partyCount t p)) u)
      (Machine.postIcmState p cause t) := h.postPos p _

/-- The response is of the link's own transaction (R180). -/
theorem IcmStep.respond (h : IcmStep s v u t) (l : LinkId) (kind : Byte) (r : Response) :
    IcmStep s v u (Machine.respond l kind (t, r)) :=
  ⟨h.only, h.tables, h.time, h.told.log, h.told.time, h.told.notices.respond l kind⟩

theorem partyCount_idle {p : PosId} (h : t.icmState p = .idle) : partyCount t p = 0 := by
  rw [partyCount, h]
  rfl

theorem partyCount_active {p : PosId} {c : BridgeId} {r : Call} (h : t.icmState p = .active c)
    (hr : t.calls.get c = some r) : partyCount t p = r.parties.length := by
  rw [partyCount, h]
  simp [IcmState.call, hr]

/-! ## A position returns to IDLE (R102) -/

theorem promoteWaiting_none {p : PosId} (h : t.waiting p = none) : promoteWaiting p t = t := by
  rw [promoteWaiting, h]

/-- The intercom of a position that is in no call. -/
def IcmPos.home : IcmPos := ⟨.idle, none⟩

/-- A position whose intercom tap is not fed. -/
def Position.unfed (r : Position) : Position := { r with feed := none }

/-- A position at which no call waits returns to IDLE. -/
theorem IcmStep.returnIdle (h : IcmStep s v u t) {p : PosId} (hw : (v.icm.get p).waiting = none) (cause : Cause) :
    IcmStep s { v with icm := v.icm.modify p fun _ => .home, positions := v.positions.modify p Position.unfed }
      (post (posRoute s [p]) (.icmState p .idle cause 0) u) (Machine.returnIdle p cause t) := by
  have hidle : v.icm.modify p (fun x => { x with state := .idle }) = v.icm.modify p fun _ => .home :=
    Tab.modify_congr (by rw [hw]; rfl)
  have hset := (h.setIcm p .idle).modPos p Position.unfed
  rw [hidle] at hset
  generalize hx : (Machine.setIcm p .idle t).modPos p Position.unfed = x at hset
  have hhome : x.icm.get p = .home := by simp [hset.icm]
  have hstate : x.icmState p = .idle := congrArg IcmPos.state hhome
  have hpost := hset.postIcmState p cause
  rw [hstate, partyCount_idle hstate] at hpost
  have he : Machine.returnIdle p cause t = promoteWaiting p (Machine.postIcmState p cause x) := by rw [← hx]; rfl
  rw [he, promoteWaiting_none (t := Machine.postIcmState p cause x) (congrArg IcmPos.waiting hhome :)]
  exact hpost

/-! ## Presentations (R103, R107, R108, R113) -/

/-- A call that no longer presents to `q`; the alert timer stops when it presents to nobody (R103). -/
def Call.unpresented (q : PosId) (r : Call) : Call := { r with
  presented := r.presented.filter fun x => x.pos ≠ q
  alert := if (r.presented.filter fun x => x.pos ≠ q).isEmpty then none else r.alert }

theorem IcmStep.unpresent (h : IcmStep s v u t) (c : BridgeId) (q : PosId) :
    IcmStep s { v with calls := v.calls.modify c (Option.map (Call.unpresented q)) } u (Machine.unpresent c q t) :=
  h.modCall c (Call.unpresented q)

/-- The call once it presents to none of `xs`. -/
def Call.unpresentedEach (xs : List Presented) (r : Call) : Call := xs.foldl (fun r x => r.unpresented x.pos) r

/-- Nothing is left of what a call presents when each of it is withdrawn. -/
theorem Call.unpresentedEach_all : ∀ (xs : List Presented) (r : Call), (∀ y ∈ r.presented, y ∈ xs) →
    (r.presented = [] → r.alert = none) → r.unpresentedEach xs = { r with presented := [], alert := none }
  | [], r, hall, halert => by
    have hnil : r.presented = [] := List.eq_nil_iff_forall_not_mem.mpr fun y hy => List.not_mem_nil (hall y hy)
    have hstop := halert hnil
    cases r
    cases hnil
    cases hstop
    rfl
  | x :: xs, r, hall, halert => by
    refine (Call.unpresentedEach_all xs (r.unpresented x.pos) (fun y hy => ?_) fun hnil => ?_).trans rfl
    · obtain ⟨hmem, hne⟩ := List.mem_filter.mp hy
      rcases List.mem_cons.mp (hall y hmem) with rfl | hxs
      · simp at hne
      · exact hxs
    · exact if_pos (List.isEmpty_iff.mpr hnil)

/-- The notices of presentations withdrawn, in list order (R113 step 2). -/
def withdrawnTold (s : State) (xs : List Presented) (cause : Cause) (u : State) : State :=
  xs.foldl (fun u x => post (posRoute s [x.pos]) (.icmState x.pos .idle cause 0) u) u

/-- Current presentations withdrawn from positions at which no call waits. -/
theorem IcmStep.withdrawEach (c : BridgeId) (cause : Cause) : ∀ (xs : List Presented) {v : IcmTables} {u t : State},
    IcmStep s v u t → (∀ x ∈ xs, x.waiting = false ∧ (v.icm.get x.pos).waiting = none) →
    IcmStep s { v with positions := v.positions.modifyEach Position.unfed (xs.map (·.pos))
                       icm := v.icm.modifyEach (fun _ => .home) (xs.map (·.pos))
                       calls := v.calls.modify c (Option.map (Call.unpresentedEach xs)) }
      (withdrawnTold s xs cause u) (t.each xs fun x => withdraw c x cause)
  | [], v, u, t, h, _ => by
    have hid : v.calls.modify c (Option.map (Call.unpresentedEach [])) = v.calls :=
      Tab.modify_eq_self (by cases v.calls.get c <;> rfl)
    simp only [hid]
    exact h
  | x :: xs, v, u, t, h, hx => by
    obtain ⟨hcurrent, hslot⟩ := hx x List.mem_cons_self
    have hone := (h.unpresent c x.pos).returnIdle hslot cause
    have hrest := IcmStep.withdrawEach c cause xs hone fun y hy => by
      obtain ⟨hy', hyslot⟩ := hx y (List.mem_cons_of_mem x hy)
      refine ⟨hy', ?_⟩
      simp only [Tab.get_modify]
      split
      · rfl
      · exact hyslot
    have hcalls : (v.calls.modify c (Option.map (Call.unpresented x.pos))).modify c (Option.map (Call.unpresentedEach xs)) =
        v.calls.modify c (Option.map (Call.unpresentedEach (x :: xs))) := by
      rw [Tab.modify_modify]
      simp only [Option.map_map]
      rfl
    have hwithdraw : withdraw c x cause t = Machine.returnIdle x.pos cause (Machine.unpresent c x.pos t) := by
      rw [withdraw, if_neg (by simp [hcurrent])]
    rw [each_cons, hwithdraw, ← hcalls]
    exact hrest

/-! ## Recording (R116, R156) -/

/-- The channel that an endpoint holds once it is a party: the lowest FREE one that the request has not released, when
the policy asks for one, and what it holds otherwise. -/
def channelDue (t : State) (p : PosId) (e : Endpoint) (ch : Option ChanId) : Prop :=
  if t.icmRecord then channelAt t p e = none ∧ freeChannel t = ch else channelAt t p e = ch

theorem freeChannel_begin {s : State} {ch : Option ChanId} (h : lowestFree s ch) (o : Option LinkId) :
    freeChannel (s.begin o) = ch := by
  cases ch with
  | none => exact freeChannel_eq_none (s := s.begin o) h
  | some d => exact freeChannel_eq (s := s.begin o) rfl h.1 h.2

theorem channelDue_begin {s : State} {p : PosId} {e : Endpoint} {ch : Option ChanId}
    (h : getsChannel s s.icmRecord p e ch) (o : Option LinkId) : channelDue (s.begin o) p e ch := by
  unfold getsChannel at h
  unfold channelDue
  rw [begin_icmRecord]
  split at h
  · rename_i hwant
    obtain ⟨hnone, hfree⟩ := h
    rw [if_pos hwant]
    exact ⟨hnone, freeChannel_begin hfree o⟩
  · rename_i hwant
    rw [if_neg hwant]
    exact h.symm

theorem channelDue_congr {s t : State} {p : PosId} {e : Endpoint} {ch : Option ChanId} (h : channelDue s p e ch)
    (hr : t.icmRecord = s.icmRecord) (hc : t.channels = s.channels) (hrel : t.released = s.released) :
    channelDue t p e ch := by
  have hfree : freeChannel t = freeChannel s := by simp only [freeChannel, hc, hrel]
  unfold channelDue
  rw [hr, channelAt_of_channels hc, hfree]
  exact h

/-- The UNRECORDED record of a party. -/
def partyUnrecorded (p : PosId) (e : Endpoint) (c : BridgeId) : Record :=
  { kind := .unrecorded, pos := some p, endpoint := some e, bridge := some c }

theorem IcmStep.recordParty (h : IcmStep s v u t) {p : PosId} {e : Endpoint} {ch : Option ChanId}
    (hch : channelDue t p e ch) (c : BridgeId) :
    IcmStep s { v with channels := withChannel s s.icmRecord ch (p, e) none c v.channels }
        (noteUnrecorded s.icmRecord ch (partyUnrecorded p e c) u) (Machine.recordParty p e c t) ∧
      channelAt (Machine.recordParty p e c t) p e = ch := by
  unfold channelDue at hch
  rw [h.icmRecord] at hch
  unfold Machine.recordParty noteUnrecorded withChannel
  rw [h.icmRecord]
  by_cases hwant : s.icmRecord = true
  · rw [if_pos hwant] at hch ⊢
    obtain ⟨hnone, hfree⟩ := hch
    unfold assign
    rw [hfree]
    have hsince : since t = if s.timeValid then some s.log.time else none := by
      rw [since, h.time, h.timeValid]
    cases ch with
    | none =>
      simp only [hwant, and_self, if_true]
      exact ⟨h.submit _, (channelAt_of_channels (submit_channels _ t) p e).trans hnone⟩
    | some d =>
      simp only [hwant, hsince, if_true, reduceCtorEq, and_false, if_false]
      exact ⟨h.setChan d _, channelAt_of_set hnone rfl rfl rfl⟩
  · rw [if_neg hwant] at hch ⊢
    refine ⟨?_, hch⟩
    cases ch <;> simpa [hwant] using h

end

end

end Sys2Proof.Machine

namespace Sys2Proof.Machine
open Sys2Proof

section

/-! # Calls placed (R106 to R108) -/

section
variable {s u t : State} {v : IcmTables}

/-- A party's position: the endpoint stands in the call, and with the MIC the intercom tap hears it (R107 step 2, R109
step 2). -/
def Position.inCall (e : Endpoint) (c : BridgeId) (otherwise : Option BridgeId) (r : Position) : Position :=
  { r.setBinding e (.icm c) with feed := if e = .mic then some c else otherwise }

/-- The record of a new call (R103, R107 step 3). -/
def newCall (s : State) (p : PosId) (e : Endpoint) (mode : CallMode) (group : Option GroupId)
    (presented : List Presented) : Call :=
  { mode := mode, group := group, caller := (p, e), presented := presented, parties := [(p, e)], active := false,
    alert := some (1000 * s.icmAlertS) }

/-- The bridge of a new call claimed, and the caller's source on it (R107 steps 1 and 2). -/
def callerJoined (p : PosId) (e : Endpoint) (c : BridgeId) (s : State) : State :=
  joinEndpoint p e c 0 (claimBridge c .icm 0 .both s)

theorem callerJoined_other {c d : BridgeId} (hd : d ≠ c) (p : PosId) (e : Endpoint) (s : State) :
    (callerJoined p e c s).bridges.get d = s.bridges.get d :=
  (joinEndpoint_bridges p e c _ hd 0).trans (Tab.get_modify_ne _ _ hd)

theorem callerJoined_use (p : PosId) (e : Endpoint) (c : BridgeId) (s : State) :
    ((callerJoined p e c s).bridges.get c).use = .icm :=
  (joinEndpoint_use p e c _ c 0).trans (by simp [claimBridge])

/-- The caller's source, alone. -/
theorem callerJoined_contributors (p : PosId) (e : Endpoint) (c : BridgeId) (s : State) :
    ((callerJoined p e c s).bridges.get c).contributors = endpointEntry p e (s.positions.get p) := by
  have hempty : ((claimBridge c .icm 0 .both s).bridges.get c).contributors = [] := by simp [claimBridge, Bridge.reset]
  have hjoin := joinEndpoint_contributors (p := p) (e := e) (b := c) (s := claimBridge c .icm 0 .both s)
    (fun x _ => by rw [Bridge.has, hempty]; rfl) (by rw [hempty]; exact Nat.zero_lt_succ 11)
  rw [hempty] at hjoin
  exact hjoin

theorem IcmStep.openCall (h : IcmStep s v u t) (c : BridgeId) (p : PosId) (e : Endpoint) (mode : CallMode)
    (group : Option GroupId) (presented : List Presented) :
    IcmStep s { v with positions := v.positions.modify p fun r => r.inCall e c r.feed
                       bridges := (callerJoined p e c t).bridges
                       icm := v.icm.modify p fun x => { x with state := .calling c }
                       calls := v.calls.set c (some (newCall s p e mode group presented)) }
      u (Machine.openCall c p e mode group presented t) := by
  have hbound := ((h.modBridge c fun _ => { Bridge.reset with use := .icm, period := 0, mask := .both }).joinEndpoint p e
    c).modPos p fun r => r.setBinding e (.icm c)
  have hfed : IcmStep s { v with positions := v.positions.modify p fun r => r.inCall e c r.feed
                                 bridges := (callerJoined p e c t).bridges } u
      ((if e = .mic then setFeed p (some c) else id) (bind p e (.icm c) (callerJoined p e c t))) := by
    by_cases he : e = .mic
    · have hmic := hbound.modPos p fun r => { r with feed := some c }
      simp only [Tab.modify_modify] at hmic
      simp only [Position.inCall, if_pos he]
      exact hmic
    · have hfeed : (fun r : Position => r.inCall e c r.feed) = fun r => r.setBinding e (.icm c) := by
        funext r
        simp only [Position.inCall, if_neg he]
        cases e <;> rfl
      rw [hfeed, if_neg he]
      exact hbound
  have hset := (hfed.setIcm p (.calling c)).setCall c (some (newCall s p e mode group presented))
  unfold newCall at hset ⊢
  rw [← h.icmAlertS] at hset ⊢
  exact hset

/-- A position that hears call `c`, when `voice` holds. -/
def Position.hears (c : BridgeId) (voice : Bool) (r : Position) : Position :=
  if voice then { r with feed := some c } else r

theorem Position.hears_twice (c : BridgeId) (voice : Bool) (r : Position) :
    Position.hears c voice (Position.hears c voice r) = Position.hears c voice r := by cases voice <;> rfl

@[simp] theorem Position.feed_hears (c : BridgeId) (voice : Bool) (r : Position) :
    (Position.hears c voice r).feed = if voice then some c else r.feed := by cases voice <;> rfl

/-- A call presented to a position (R107 step 4, R108). -/
theorem IcmStep.present (h : IcmStep s v u t) (c : BridgeId) (r : Call) (voice : Bool) (q : PosId) :
    IcmStep s { v with positions := v.positions.modify q (Position.hears c voice)
                       icm := v.icm.modify q fun x => { x with state := .alerted c } }
      (post (posRoute s [q]) (.icmAlert c r.caller r.mode voice) u) (Machine.present c r voice q t) := by
  refine IcmStep.postPos ?_ q _
  cases voice with
  | true => exact (h.setIcm q (.alerted c)).modPos q _
  | false =>
    have hid : v.positions.modify q (Position.hears c false) = v.positions := Tab.modify_eq_self rfl
    rw [hid]
    exact h.setIcm q (.alerted c)

/-- A call presented to each of a list, in list order (R108). -/
theorem IcmStep.presentEach (c : BridgeId) (r : Call) (voice : Bool) : ∀ (qs : List PosId) {v : IcmTables} {u t : State},
    IcmStep s v u t →
    IcmStep s { v with positions := v.positions.modifyEach (Position.hears c voice) qs
                       icm := v.icm.modifyEach (fun x => { x with state := .alerted c }) qs }
      (qs.foldl (fun u q => post (posRoute s [q]) (.icmAlert c r.caller r.mode voice) u) u)
      (t.each qs (Machine.present c r voice))
  | [], _, _, _, h => h
  | q :: qs, _, _, _, h => IcmStep.presentEach c r voice qs (h.present c r voice q)

/-- The recording step and the ICM_START record of a new call (R107 steps 6 and 7). -/
theorem IcmStep.startRecord (h : IcmStep s v u t) {p : PosId} {e : Endpoint} {ch : Option ChanId}
    (hch : channelDue t p e ch) (c : BridgeId) (group : Option GroupId) :
    IcmStep s { v with channels := withChannel s s.icmRecord ch (p, e) none c v.channels }
        (Machine.submit { kind := .icmStart, bridge := some c, pos := some p, endpoint := some e, group := group,
                          channel := ch, parties := some [(p, e)] }
          (noteUnrecorded s.icmRecord ch (partyUnrecorded p e c) u))
        (Machine.startRecord c p e group t) ∧
      channelAt (Machine.startRecord c p e group t) p e = ch := by
  obtain ⟨hstep, hat⟩ := h.recordParty hch c
  have hrec := hstep.submit
    { kind := .icmStart, bridge := some c, pos := some p, endpoint := some e, group := group,
      channel := channelAt (Machine.recordParty p e c t) p e, parties := some [(p, e)] }
  rw [hat] at hrec
  unfold Machine.startRecord
  simp only [hat]
  exact ⟨hrec, (channelAt_of_channels (submit_channels _ _) p e).trans hat⟩

end

/-! ## The checks of R106 and R108 -/

section
variable {l : LinkId} {p q : PosId} {e : Endpoint} {s : State}

theorem icmEndpoint_eq (he : e = .ha ∨ e = .hb ∨ e = .mic) : icmEndpoint (endByte e) = .ok e := by
  rcases he with rfl | rfl | rfl <;> rfl

theorem callerAnswer_pass (ho : (s.positions.get p).isOpen = true) (hu : s.posUp p = true) (hb : s.binding p e = .none)
    (hi : s.icmState p = .idle) : callerAnswer s p e = none := by
  simp [callerAnswer, freeAnswer, placeAnswer, ho, hu, hb, hi]

/-- An ICM_DIAL that passes checks 1 to 6 of R106. -/
theorem exec_icmDial (hmay : mayTake s l .icmDial (some p)) (ho : (s.positions.get p).isOpen = true)
    (hu : s.posUp p = true) (hp : (s.perms.get p).icm = true) (he : e = .ha ∨ e = .hb ∨ e = .mic)
    (hcaller : callerAnswer (s.begin (some l)) p e = none) (hq : (s.perms.get q).icm = true)
    (hqo : (s.positions.get q).isOpen = true) (hne : q ≠ p) (voice : Bool) :
    exec (.icmDial l (idByte p) (endByte e) (idByte q) (if voice then 0#8 else 1#8)) s =
      .next (respond l (BitVec.ofNat 8 ReqKind.icmDial.code)
        (dial p e q (if voice then .voice else .tone) (s.begin (some l)))) := by
  refine congrArg Host.Outcome.next ((positionRequest_owner hmay _ (fun _ => ho) (fun _ => hu) _ _).trans ?_)
  have hmode : directModeOf (if voice then 0#8 else 1#8) = some (if voice then .voice else .tone) := by cases voice <;> rfl
  have hcheck : dialCheck l p e q (s.begin (some l)) = none := by
    simp [dialCheck, mayIcm, hp, hq, hqo, hcaller, hne]
  simp [icmDial, icmEndpoint_eq he, hmode, hcheck]

/-- A call committed on the lowest FREE bridge, presented or waiting (R106 check 9, R107). -/
theorem dial_commits {c : BridgeId} (hc : freeBridge s = some c) (hu : s.posUp q = true) {waits : Bool}
    (hw : waitsAt s q = some waits) (mode : CallMode) :
    dial p e q mode s = done (b1 c.val ++ bYes waits ++ bChan (channelAt (commitDial c p e q mode waits s) p e))
      (commitDial c p e q mode waits s) := by
  simp [dial, hc, hu, hw]

theorem dial_busy {c : BridgeId} (hc : freeBridge s = some c) (hu : s.posUp q = true) (hw : waitsAt s q = none)
    (mode : CallMode) : dial p e q mode s = refuse .busy s := by
  simp [dial, hc, hu, hw]

/-- An ICM_GROUP that passes checks 1 to 4 of R108. -/
theorem exec_icmGroup (hmay : mayTake s l .icmGroup (some p)) (ho : (s.positions.get p).isOpen = true)
    (hu : s.posUp p = true) (he : e = .ha ∨ e = .hb ∨ e = .mic) (g : GroupId) (conf : Bool) :
    exec (.icmGroup l (idByte p) (endByte e) (idByte g) (if conf then 1#8 else 0#8)) s =
      .next (respond l (BitVec.ofNat 8 ReqKind.icmGroup.code)
        (groupCall l p e g (if conf then .conference else .announceFirst) (s.begin (some l)))) := by
  refine congrArg Host.Outcome.next ((positionRequest_owner hmay _ (fun _ => ho) (fun _ => hu) _ _).trans ?_)
  have hmode : groupModeOf (if conf then 1#8 else 0#8) = some (if conf then .conference else .announceFirst) := by
    cases conf <;> rfl
  have hgroup : groupOf (idByte g) = some g := idOf_idByte g (by decide)
  simp [icmGroup, icmEndpoint_eq he, hmode, hgroup]

/-- The members of a group to whom its call can be presented (R108 check 5). -/
def groupMembers (s : State) (g : GroupId) (p : PosId) : List PosId :=
  ((s.groups.get g).filter (· ≠ p)).filter (available s)

theorem groupCall_commits (hp : (s.perms.get p).icm = true) (hcaller : callerAnswer s p e = none) {c : BridgeId}
    (hc : freeBridge s = some c) {g : GroupId} (hm : groupMembers s g p ≠ []) (mode : CallMode) :
    groupCall l p e g mode s =
      done (b1 c.val ++ b2 (groupMembers s g p).length ++
          b2 (((s.groups.get g).filter (· ≠ p)).length - (groupMembers s g p).length) ++
          bChan (channelAt (commitGroup c p e g mode (groupMembers s g p) s) p e))
        (commitGroup c p e g mode (groupMembers s g p) s) := by
  have hne : (groupMembers s g p).isEmpty = false := by simpa using hm
  unfold groupCall
  simp only [mayIcm, hp, hcaller, hc]
  exact if_neg (Bool.eq_false_iff.mp hne)

theorem groupCall_busy (hp : (s.perms.get p).icm = true) (hcaller : callerAnswer s p e = none) {c : BridgeId}
    (hc : freeBridge s = some c) {g : GroupId} (hm : groupMembers s g p = []) (mode : CallMode) :
    groupCall l p e g mode s = (s, ⟨.busy, b2 ((s.groups.get g).filter (· ≠ p)).length⟩) := by
  have hbody : groupCall l p e g mode s = (s, ⟨.busy, b2 (((s.groups.get g).filter (· ≠ p)).length -
      (groupMembers s g p).length)⟩) := by
    unfold groupCall
    simp only [mayIcm, hp, hcaller, hc]
    exact if_pos (List.isEmpty_iff.mpr hm)
  rw [hbody, hm]
  rfl

end

/-! ## A call opened, and whoever it is then presented to -/

/-- The tables once the caller is in its new call; of positions and their intercom only the caller's are spoken of. -/
structure CallOpened (s : State) (p : PosId) (e : Endpoint) (c : BridgeId) (r : Call) (w : IcmTables) : Prop where
  caller : w.positions.get p = (s.positions.get p).inCall e c (s.positions.get p).feed
  calling : (w.icm.get p).state = .calling c
  bridges : w.bridges = (callerJoined p e c s).bridges
  calls : w.calls = s.calls.set c (some r)
  channels : w.channels = s.channels
  released : w.released = s.released

section
variable {s u t : State} {p : PosId} {e : Endpoint} {c : BridgeId} {r : Call} {w : IcmTables}

theorem CallOpened.dueOf (h : CallOpened s p e c r w) (ht : IcmStep s w u t) {ch : Option ChanId}
    (hch : channelDue s p e ch) : channelDue t p e ch :=
  channelDue_congr hch ht.icmRecord (ht.channels.trans h.channels) (ht.released.trans h.released)

theorem CallOpened.binding (h : CallOpened s p e c r w) (ht : t.positions = w.positions) : t.binding p e = .icm c := by
  rw [State.binding, ht, h.caller]
  exact (Position.binding_setBinding ..).trans (if_pos rfl)

end

/-- A new call, presented to others than its caller. -/
theorem callOpened_presented {mode : CallMode} {group : Option GroupId} {presented : List Presented} {qs : List PosId}
    {s : State} {p : PosId} (hp : p ∉ qs) (e : Endpoint) (c : BridgeId) (voice : Bool) :
    CallOpened s p e c (newCall s p e mode group presented) { s.icmTables with
      positions := (s.positions.modify p fun r => r.inCall e c r.feed).modifyEach (Position.hears c voice) qs
      bridges := (callerJoined p e c s).bridges
      icm := (s.icm.modify p fun x => { x with state := .calling c }).modifyEach (fun x => { x with state := .alerted c }) qs
      calls := s.calls.set c (some (newCall s p e mode group presented)) } where
  caller := by simp [Tab.get_modifyEach (Position.hears_twice c voice), hp]
  calling := by simp [Tab.get_modifyEach (f := fun x : IcmPos => { x with state := .alerted c }) fun _ => rfl, hp]
  bridges := rfl
  calls := rfl
  channels := rfl
  released := rfl

/-- A new call that waits at another position. -/
theorem callOpened_waiting {mode : CallMode} {presented : List Presented} {s : State} {p q : PosId} (hq : q ≠ p)
    (e : Endpoint) (c : BridgeId) :
    CallOpened s p e c (newCall s p e mode none presented) { s.icmTables with
      positions := s.positions.modify p fun r => r.inCall e c r.feed
      bridges := (callerJoined p e c s).bridges
      icm := (s.icm.modify p fun x => { x with state := .calling c }).modify q fun x => { x with waiting := some c }
      calls := s.calls.set c (some (newCall s p e mode none presented)) } where
  caller := by simp
  calling := by simp [hq.symm]
  bridges := rfl
  calls := rfl
  channels := rfl
  released := rfl

/-- The call record that a new call's presentations read (R107 step 4). -/
theorem openCall_get (c : BridgeId) (p : PosId) (e : Endpoint) (mode : CallMode) (group : Option GroupId)
    (presented : List Presented) (s : State) :
    (openCall c p e mode group presented s).calls.get c = some (newCall s p e mode group presented) := by
  simp [openCall, newCall]

theorem commitDial_presents (c : BridgeId) (p : PosId) (e : Endpoint) (q : PosId) (mode : CallMode) (s : State) :
    commitDial c p e q mode false s = startRecord c p e none
      (present c (newCall s p e mode none [⟨q, false⟩]) (mode = .voice) q (openCall c p e mode none [⟨q, false⟩] s)) := by
  simp [commitDial, openCall_get]

theorem commitDial_waits (c : BridgeId) (p : PosId) (e : Endpoint) (q : PosId) (mode : CallMode) (s : State) :
    commitDial c p e q mode true s = startRecord c p e none
      (postPos q (.icmWaiting c (p, e)) (setWaiting q (some c) (openCall c p e mode none [⟨q, true⟩] s))) := by
  simp [commitDial]

theorem commitGroup_presents (c : BridgeId) (p : PosId) (e : Endpoint) (g : GroupId) (mode : CallMode)
    (members : List PosId) (s : State) :
    commitGroup c p e g mode members s = startRecord c p e (some g)
      ((openCall c p e mode (some g) (members.map fun q => ⟨q, false⟩) s).each members
        (present c (newCall s p e mode (some g) (members.map fun q => ⟨q, false⟩)) true)) := by
  simp [commitGroup, openCall_get]

end

/-- Settles O43: a call is opened, presented to each of its positions or put into a waiting slot, and recorded; each
step is a rule of `IcmStep`. -/
theorem icmCallsPlaced : Obligations.IcmCallsPlaced := by
  intro l p e c held s hopen hup hicm he hbind hidle hfree hlow hheld ch tell placed
  have hcaller : callerAnswer (s.begin (some l)) p e = none :=
    callerAnswer_pass (s := s.begin (some l)) hopen hup hbind hidle
  have hbridge : freeBridge (s.begin (some l)) = some c := freeBridge_eq (s := s.begin (some l)) hfree hlow
  have hat {group : Option GroupId} {told x : State} {w : IcmTables} {r : Call} (h : IcmStep (s.begin (some l)) w told x)
      (hw : CallOpened (s.begin (some l)) p e c r w) : channelAt (startRecord c p e group x) p e = held :=
    (h.startRecord (hw.dueOf h (channelDue_begin hheld (some l))) c group).2
  have hplaced {mode : CallMode} {group : Option GroupId} {presented : List Presented} {told x : State} {w : IcmTables}
      (h : IcmStep (s.begin (some l)) w told x)
      (hw : CallOpened (s.begin (some l)) p e c (newCall (s.begin (some l)) p e mode group presented) w)
      (kind : Byte) (r : Response) :
      let t := respond l kind (startRecord c p e group x, r)
      placed t mode group presented told ∧ t.positions = w.positions ∧ t.icm = w.icm := by
    have ht := (h.startRecord (hw.dueOf h (channelDue_begin hheld (some l))) c group).1.respond l kind r
    refine ⟨⟨ht.told.notices, ht.told.log, ?_, ht.calls.trans hw.calls, hw.binding ht.positions, ?_, ?_, fun d hd => ?_,
      ?_, ?_, ht.rest⟩, ht.positions, ht.icm⟩
    · rw [ht.channels, hw.channels]
      rfl
    · rw [State.icmState, ht.icm]
      exact hw.calling
    · rw [ht.positions, hw.caller]
      rfl
    · rw [ht.bridges, hw.bridges]
      exact callerJoined_other hd p e _
    · rw [ht.bridges, hw.bridges]
      exact callerJoined_use p e c _
    · rw [ht.bridges, hw.bridges]
      exact callerJoined_contributors p e c _
  constructor
  · intro q voice hmay hne hqopen hqup hqicm mode r
    have hr : r = .next (respond l (BitVec.ofNat 8 ReqKind.icmDial.code) (dial p e q mode (s.begin (some l)))) :=
      exec_icmDial hmay hopen hup hicm he hcaller hqicm hqopen hne voice
    have hpq : p ∉ [q] := by simpa using hne.symm
    refine ⟨fun hq => ?_, fun hq hslot => ?_, fun hq hslot => ?_⟩
    · have hwaits : waitsAt (s.begin (some l)) q = some false := if_pos hq
      have hvoice : decide (mode = .voice) = voice := by cases voice <;> rfl
      rw [dial_commits hbridge hqup hwaits, commitDial_presents, hvoice] at hr
      have hstep := ((icmStep_begin s (some l)).openCall c p e mode none [⟨q, false⟩]).present c
        (newCall (s.begin (some l)) p e mode none [⟨q, false⟩]) voice q
      have hw := callOpened_presented (s := s.begin (some l)) (mode := mode) (group := none) (presented := [⟨q, false⟩])
        (qs := [q]) (by simpa using hne.symm) e c voice
      rw [hat hstep hw] at hr
      obtain ⟨hput, hpos, hicms⟩ := hplaced hstep hw (BitVec.ofNat 8 ReqKind.icmDial.code) _
      exact ⟨_, hr, answered_respond .., hput,
        (congrArg (fun T : Tab IcmPos 48 => (T.get q).state) hicms).trans (by simp),
        (congrArg (fun T : Tab IcmPos 48 => (T.get q).waiting) hicms).trans (by simp [hne, State.icmTables, State.waiting]),
        (congrArg (fun T : Tab Position 48 => (T.get q).feed) hpos).trans (by simp [hne, State.icmTables])⟩
    · have hwaits : waitsAt (s.begin (some l)) q = some true :=
        (if_neg hq).trans (if_pos (Option.isNone_iff_eq_none.mpr hslot))
      rw [dial_commits hbridge hqup hwaits, commitDial_waits] at hr
      have hstep := (((icmStep_begin s (some l)).openCall c p e mode none [⟨q, true⟩]).setWaiting q (some c)).postPos q
        (.icmWaiting c (p, e))
      have hw := callOpened_waiting (s := s.begin (some l)) (mode := mode) (presented := [⟨q, true⟩]) hne e c
      rw [hat hstep hw] at hr
      obtain ⟨hput, -, hicms⟩ := hplaced hstep hw (BitVec.ofNat 8 ReqKind.icmDial.code) _
      exact ⟨_, hr, answered_respond .., hput,
        (congrArg (fun T : Tab IcmPos 48 => (T.get q).state) hicms).trans (by simp [hne, State.icmTables, State.icmState]),
        (congrArg (fun T : Tab IcmPos 48 => (T.get q).waiting) hicms).trans (by simp)⟩
    · have hwaits : waitsAt (s.begin (some l)) q = none :=
        (if_neg hq).trans (if_neg (mt Option.isNone_iff_eq_none.mp hslot))
      rw [dial_busy hbridge hqup hwaits] at hr
      exact ⟨_, hr, rfl, (noNotice.refl s).respond l _, answered_respond ..⟩
  · intro g conf hmay others members mode r
    have hr : r = .next (respond l (BitVec.ofNat 8 ReqKind.icmGroup.code) (groupCall l p e g mode (s.begin (some l)))) :=
      exec_icmGroup hmay hopen hup he g conf
    have hmem : groupMembers (s.begin (some l)) g p = members := rfl
    refine ⟨fun hm => ?_, fun hm => ?_⟩
    · rw [groupCall_commits (s := s.begin (some l)) hicm hcaller hbridge hm, commitGroup_presents, hmem] at hr
      have hstep := IcmStep.presentEach c (newCall (s.begin (some l)) p e mode (some g) (members.map fun q => ⟨q, false⟩))
        true members ((icmStep_begin s (some l)).openCall c p e mode (some g) (members.map fun q => ⟨q, false⟩))
      have hp : p ∉ members := fun h => by simpa using (List.mem_filter.mp (List.mem_filter.mp h).1).2
      have hw := callOpened_presented (s := s.begin (some l)) (mode := mode) (group := some g)
        (presented := members.map fun q => ⟨q, false⟩) hp e c true
      rw [hat hstep hw] at hr
      obtain ⟨hput, hpos, hicms⟩ := hplaced hstep hw (BitVec.ofNat 8 ReqKind.icmGroup.code) _
      refine ⟨_, hr, ?_, hput, fun q hq => ⟨?_, ?_⟩⟩
      · rw [List.append_assoc, List.append_assoc]
        exact answered_respond ..
      · refine (congrArg (fun T : Tab IcmPos 48 => (T.get q).state) hicms).trans ?_
        simp [Tab.get_modifyEach (f := fun x : IcmPos => { x with state := .alerted c }) fun _ => rfl, hq]
      · refine (congrArg (fun T : Tab Position 48 => (T.get q).feed) hpos).trans ?_
        simp [Tab.get_modifyEach (Position.hears_twice c true), hq]
    · rw [groupCall_busy (s := s.begin (some l)) hicm hcaller hbridge hm] at hr
      exact ⟨_, hr, rfl, (noNotice.refl s).respond l _, answered_respond ..⟩

end Sys2Proof.Machine

namespace Sys2Proof.Machine
open Sys2Proof

section

/-! # Calls answered (R109, R110) -/

/-- The presentations that the answer of `q` withdraws: those of an ANNOUNCE_FIRST call (R110). -/
def Call.gone (q : PosId) (r : Call) : List Presented :=
  if r.mode = .announceFirst then r.presented.filter fun x => x.pos ≠ q else []

/-- The presentations that stay beside the answer of `q`. -/
def Call.left (q : PosId) (r : Call) : List Presented :=
  if r.mode = .announceFirst then [] else r.presented.filter fun x => x.pos ≠ q

/-- A call that `q` has answered (R109 steps 1, 3 to 5). -/
def Call.answered (q : PosId) (e : Endpoint) (r : Call) : Call := { r with
  parties := r.parties ++ [(q, e)]
  presented := r.left q
  active := true
  alert := if (r.left q).isEmpty then none else r.alert }

/-- The intercom records once `q` has answered: it is ACTIVE, and so is the caller of a call that was PRESENTING (R109
step 3). -/
def answeredIcm (c : BridgeId) (q : PosId) (r : Call) (I : Tab IcmPos 48) : Tab IcmPos 48 :=
  if r.active then I.modify q fun x => { x with state := .active c }
  else (I.modify q fun x => { x with state := .active c }).modify r.caller.1 fun x => { x with state := .active c }

/-- The tables once `q` has answered call `c`; `B` are the bridges with its source (R109, R110, R116). -/
def answeredTables (s : State) (c : BridgeId) (q : PosId) (e : Endpoint) (r : Call) (ch : Option ChanId)
    (B : Tab Bridge 96) (v : IcmTables) : IcmTables := { v with
  positions := (v.positions.modify q (Position.inCall e c none)).modifyEach Position.unfed ((r.gone q).map (·.pos))
  bridges := B
  icm := (answeredIcm c q r v.icm).modifyEach (fun _ => .home) ((r.gone q).map (·.pos))
  calls := v.calls.set c (some (r.answered q e))
  channels := withChannel s s.icmRecord ch (q, e) none c v.channels }

/-- What an answer writes and tells before the ICM_STATE of its two parties (R109 steps 4 to 7). -/
def connectTold (s : State) (c : BridgeId) (q : PosId) (e : Endpoint) (r : Call) (ch : Option ChanId) (u : State) :
    State :=
  submit { kind := .connect, bridge := some c, pos := some q, endpoint := some e, channel := ch,
           parties := some (r.answered q e).parties }
    (noteUnrecorded s.icmRecord ch (partyUnrecorded q e c) (withdrawnTold s (r.gone q) .answeredElsewhere u))

/-- ICM_STATE of a position as it stands in `w`. -/
def stateTold (s w : State) (cause : Cause) (p : PosId) (u : State) : State :=
  post (posRoute s [p]) (.icmState p (w.icmState p) cause (partyCount w p)) u

section
variable {s u t : State} {v : IcmTables} {c : BridgeId} {q : PosId} {e : Endpoint} {r : Call} {ch : Option ChanId}

theorem answeredIcm_waiting (I : Tab IcmPos 48) (p : PosId) :
    ((answeredIcm c q r I).get p).waiting = (I.get p).waiting := by
  have hset (J : Tab IcmPos 48) (x : PosId) :
      ((J.modify x fun y => { y with state := .active c }).get p).waiting = (J.get p).waiting := by
    rw [Tab.get_modify]
    split
    · rename_i h
      rw [h]
    · rfl
  unfold answeredIcm
  split
  · exact hset I q
  · exact (hset _ _).trans (hset I q)

theorem IcmStep.activate (h : IcmStep s v u t) (hr : v.calls.get c = some r) (q : PosId) :
    IcmStep s { v with icm := answeredIcm c q r v.icm
                       calls := v.calls.modify c (Option.map fun r => { r with active := true }) }
      u (Machine.activate c q t) := by
  have hget : t.calls.get c = some r := by rw [h.calls, hr]
  unfold Machine.activate answeredIcm
  simp only [hget]
  by_cases hact : r.active = true
  · have hcalls : v.calls.modify c (Option.map fun r => { r with active := true }) = v.calls :=
      Tab.modify_eq_self (by rw [hr, Option.map_some, ← hact])
    rw [if_pos hact, if_pos hact, hcalls]
    exact h.setIcm q (.active c)
  · rw [if_neg hact, if_neg hact]
    exact ((h.setIcm q (.active c)).setIcm r.caller.1 (.active c)).modCall c _

theorem applyMode_eq (hr : t.calls.get c = some r) : applyMode c t =
    t.each (if r.mode = .announceFirst then r.presented else []) fun x => withdraw c x .answeredElsewhere := by
  unfold applyMode withdrawAll
  simp only [hr]
  split <;> rfl

/-- A call answered: `q` off the list, among the parties, and ACTIVE. -/
theorem Call.unpresentedEach_gone (q : PosId) (e : Endpoint) (r : Call) :
    Call.unpresentedEach (r.gone q) { r.unpresented q with parties := r.parties ++ [(q, e)], active := true } =
      r.answered q e := by
  by_cases hm : r.mode = .announceFirst
  · have hgone : r.gone q = r.presented.filter fun x => x.pos ≠ q := if_pos hm
    have hleft : r.left q = [] := if_pos hm
    rw [Call.unpresentedEach_all]
    · simp [Call.answered, Call.unpresented, hleft]
    · rw [hgone]
      exact fun y hy => hy
    · exact fun h => if_pos (List.isEmpty_iff.mpr h)
  · have hgone : r.gone q = [] := if_neg hm
    have hleft : r.left q = r.presented.filter fun x => x.pos ≠ q := if_neg hm
    rw [hgone, Call.answered, hleft]
    rfl

/-- `q` off the presented list and among the parties, its source on the bridge and its endpoint in the call (R109 steps 1
and 2). -/
def answerSeated (q : PosId) (e : Endpoint) (c : BridgeId) (t : State) : State :=
  (joinEndpoint q e c 0 (unpresent c q t)).modCall c (fun r => { r with parties := r.parties ++ [(q, e)] })
    |> bind q e (.icm c)
    |> setFeed q (if e = .mic then some c else none)

/-- An answer up to its recording step (R109 steps 1 to 6). -/
def answerMade (q : PosId) (e : Endpoint) (c : BridgeId) (t : State) : State :=
  recordParty q e c (applyMode c (activate c q (answerSeated q e c t)))

theorem IcmStep.answerSeated (h : IcmStep s v u t) (hr : v.calls.get c = some r) :
    IcmStep s { v with positions := v.positions.modify q (Position.inCall e c none)
                       bridges := (Machine.joinEndpoint q e c 0 t).bridges
                       calls := v.calls.set c (some { r.unpresented q with parties := r.parties ++ [(q, e)] }) }
      u (Machine.answerSeated q e c t) := by
  have hstep := ((((h.unpresent c q).joinEndpoint q e c).modCall c fun r => { r with
    parties := r.parties ++ [(q, e)] }).modPos q fun x => x.setBinding e (.icm c)).modPos q fun x => { x with
    feed := if e = .mic then some c else none }
  have hbridges : (Machine.joinEndpoint q e c 0 (Machine.unpresent c q t)).bridges =
      (Machine.joinEndpoint q e c 0 t).bridges :=
    joinEndpoint_congr (t := Machine.unpresent c q t) q e c t rfl rfl rfl 0
  have hcalls : (v.calls.modify c (Option.map (Call.unpresented q))).modify c (Option.map fun r => { r with
      parties := r.parties ++ [(q, e)] }) =
      v.calls.set c (some { r.unpresented q with parties := r.parties ++ [(q, e)] }) := by
    rw [Tab.modify_modify]
    exact congrArg (v.calls.set c) (by rw [hr]; rfl)
  simp only [hbridges, hcalls, Tab.modify_modify] at hstep
  exact hstep

theorem IcmStep.answerMade (h : IcmStep s v u t) (hr : v.calls.get c = some r)
    (hgone : ∀ x ∈ r.gone q, x.waiting = false ∧ (v.icm.get x.pos).waiting = none) (hch : channelDue t q e ch) :
    IcmStep s (answeredTables s c q e r ch (Machine.joinEndpoint q e c 0 t).bridges v)
        (noteUnrecorded s.icmRecord ch (partyUnrecorded q e c) (withdrawnTold s (r.gone q) .answeredElsewhere u))
        (Machine.answerMade q e c t) ∧
      channelAt (Machine.answerMade q e c t) q e = ch := by
  have hactive := (h.answerSeated (q := q) (e := e) hr).activate (Tab.get_set_self ..) q
  have hcalls : (v.calls.set c (some { r.unpresented q with parties := r.parties ++ [(q, e)] })).modify c
      (Option.map fun r => { r with active := true }) =
      v.calls.set c (some { r.unpresented q with parties := r.parties ++ [(q, e)], active := true }) := by
    apply Tab.ext_get
    intro d
    simp only [Tab.get_modify, Tab.get_set, if_true, Option.map_some]
    split <;> rfl
  simp only [hcalls] at hactive
  generalize hx : Machine.activate c q (Machine.answerSeated q e c t) = x at hactive
  have hget : x.calls.get c = some { r.unpresented q with parties := r.parties ++ [(q, e)], active := true } := by
    rw [hactive.calls]
    exact Tab.get_set_self ..
  have hmode : applyMode c x = x.each (r.gone q) fun y => withdraw c y .answeredElsewhere := applyMode_eq hget
  have halone := IcmStep.withdrawEach c .answeredElsewhere (r.gone q) hactive fun y hy =>
    ⟨(hgone y hy).1, (answeredIcm_waiting v.icm y.pos).trans (hgone y hy).2⟩
  rw [← hmode] at halone
  have hrec := halone.recordParty (channelDue_congr hch (halone.icmRecord.trans h.icmRecord.symm)
    (halone.channels.trans h.channels.symm) (halone.released.trans h.released.symm)) c
  have hanswered : (v.calls.set c (some { r.unpresented q with parties := r.parties ++ [(q, e)], active := true })).modify c
      (Option.map (Call.unpresentedEach (r.gone q))) = v.calls.set c (some (r.answered q e)) := by
    rw [← Call.unpresentedEach_gone q e r]
    apply Tab.ext_get
    intro d
    simp only [Tab.get_modify, Tab.get_set, if_true, Option.map_some]
    split <;> rfl
  simp only [hanswered] at hrec
  have hmade : Machine.answerMade q e c t = Machine.recordParty q e c (applyMode c x) := by rw [← hx]; rfl
  rw [hmade]
  exact hrec

/-- An answer, where no call waits at a position whose presentation it withdraws (R109, R110, R116). -/
theorem IcmStep.answer (h : IcmStep s v u t) (hr : v.calls.get c = some r)
    (hgone : ∀ x ∈ r.gone q, x.waiting = false ∧ (v.icm.get x.pos).waiting = none) (hch : channelDue t q e ch) :
    let w := Machine.answer q e c t
    IcmStep s (answeredTables s c q e r ch (Machine.joinEndpoint q e c 0 t).bridges v)
        (stateTold s w .none r.caller.1 (stateTold s w .none q (connectTold s c q e r ch u))) w ∧
      channelAt w q e = ch := by
  obtain ⟨hmade, hat⟩ := h.answerMade hr hgone hch
  generalize hx : Machine.answerMade q e c t = x at hmade hat
  have hget : x.calls.get c = some (r.answered q e) := by
    rw [hmade.calls]
    exact Tab.get_set_self ..
  have hconnect := hmade.submit { kind := .connect, bridge := some c, pos := some q, endpoint := some e, channel := ch,
                                  parties := some (r.answered q e).parties }
  generalize hy : Machine.submit _ x = y at hconnect
  have hcalls : y.calls.get c = some (r.answered q e) := by
    rw [hconnect.calls]
    exact Tab.get_set_self ..
  have hw : Machine.answer q e c t = Machine.postIcmState r.caller.1 .none (Machine.postIcmState q .none y) := by
    have hbegun : Machine.answer q e c t =
        (let z := Machine.submit { kind := .connect, bridge := some c, pos := some q, endpoint := some e,
                                   channel := channelAt x q e, parties := (x.calls.get c).map (·.parties) } x
         match z.calls.get c with
         | some r => Machine.postIcmState r.caller.1 .none (Machine.postIcmState q .none z)
         | none => z) := by rw [← hx]; rfl
    rw [hbegun]
    simp only [hat, hget, Option.map_some, hy, hcalls]
    rfl
  dsimp only
  rw [hw]
  exact ⟨(hconnect.postIcmState q .none).postIcmState r.caller.1 .none,
    (channelAt_of_channels (hconnect.channels.trans hmade.channels.symm) q e).trans hat⟩

end

end

end Sys2Proof.Machine

namespace Sys2Proof.Machine
open Sys2Proof

section

/-! # ICM_PICKUP (R109) -/

section
variable {s : State} {l : LinkId} {c : BridgeId} {q : PosId} {e : Endpoint} {r : Call}

theorem exec_icmPickup (hmay : mayTake s l .icmPickup (some q)) (ho : (s.positions.get q).isOpen = true)
    (hu : s.posUp q = true) (choice : Byte) :
    exec (.icmPickup l (idByte q) (endByte e) choice) s = .next (respond l (BitVec.ofNat 8 ReqKind.icmPickup.code)
      (icmPickup (endByte e) choice q (s.begin (some l)))) :=
  congrArg Host.Outcome.next (positionRequest_owner hmay { needsUp := true } (fun _ => ho) (fun _ => hu) {}
    (icmPickup (endByte e) choice))

theorem placeAnswer_pass (ho : (s.positions.get q).isOpen = true) (hu : s.posUp q = true) : placeAnswer s q = none := by
  simp [placeAnswer, ho, hu]

theorem callFull_of (hr : s.calls.get c = some r) (hroom : r.mode = .conference → r.parties.length < 12) :
    callFull s c = false := by
  by_cases hm : r.mode = .conference
  · have hlt := hroom hm
    have hle : ¬12 ≤ r.parties.length := by omega
    simp [callFull, hr, Config.maxParties, hm, hle]
  · simp [callFull, hr, hm]

/-- The current presentation picked up (R109). -/
theorem icmPickup_current (he : e = .ha ∨ e = .hb ∨ e = .mic) (hc : s.icmState q = .alerted c)
    (hplace : placeAnswer s q = none) (hb : s.binding q e = .none) (hfull : callFull s c = false) :
    icmPickup (endByte e) 0#8 q s = done (callStateBody (answer q e c s) c q e) (answer q e c s) := by
  have hchoice : choiceOf 0#8 = some false := rfl
  simp [icmPickup, icmEndpoint_eq he, hchoice, pickupCall, hc, pickupAnswer, hplace, hb, hfull]

theorem icmPickup_notBound (he : e = .ha ∨ e = .hb ∨ e = .mic) (hc : ∀ c, s.icmState q ≠ .alerted c) :
    icmPickup (endByte e) 0#8 q s = refuse .notBound s := by
  have hchoice : choiceOf 0#8 = some false := rfl
  have hcall : pickupCall s q false = none := by
    unfold pickupCall
    split
    · contradiction
    · split
      · rename_i c h
        exact absurd h (hc c)
      · rfl
  simp [icmPickup, icmEndpoint_eq he, hchoice, hcall]

theorem callStateBody_answered {t : State} {ch : Option ChanId} (hr : t.calls.get c = some (r.answered q e))
    (hch : channelAt t q e = ch) :
    callStateBody t c q e = 1#8 :: (b2 (r.answered q e).parties.length ++ bOpt (ch.map (·.val))) := by
  subst hch
  simp only [callStateBody, hr]
  rfl

/-! ## The records of an answered call's positions -/

theorem Call.mem_gone {x : Presented} (h : x ∈ r.gone q) : x ∈ r.presented ∧ x.pos ≠ q := by
  unfold Call.gone at h
  split at h
  · simpa using h
  · exact absurd h List.not_mem_nil

theorem answeredIcm_caller (hne : r.caller.1 ≠ q) (I : Tab IcmPos 48) : (answeredIcm c q r I).get r.caller.1 =
    ⟨if r.active then (I.get r.caller.1).state else .active c, (I.get r.caller.1).waiting⟩ := by
  unfold answeredIcm
  split <;> simp [hne]

theorem answeredIcm_other {p : PosId} (hp : p ≠ r.caller.1) (I : Tab IcmPos 48) : (answeredIcm c q r I).get p =
    if p = q then ⟨.active c, (I.get q).waiting⟩ else I.get p := by
  unfold answeredIcm
  split
  · exact Tab.get_modify ..
  · rw [Tab.get_modify_ne _ _ hp, Tab.get_modify]

theorem not_mem_gone : q ∉ (r.gone q).map (·.pos) := fun h => by
  obtain ⟨x, hx, hpos⟩ := List.mem_map.mp h
  exact (Call.mem_gone hx).2 hpos

section
variable {v : IcmTables} {ch : Option ChanId} {B : Tab Bridge 96}

theorem answeredTables_icm_caller (hne : r.caller.1 ≠ q) (hfar : r.caller.1 ∉ (r.gone q).map (·.pos)) :
    (answeredTables s c q e r ch B v).icm.get r.caller.1 =
      ⟨if r.active then (v.icm.get r.caller.1).state else .active c, (v.icm.get r.caller.1).waiting⟩ :=
  (Tab.get_modifyEach (f := fun _ => IcmPos.home) (fun _ => rfl) _ _ _).trans
    ((if_neg hfar).trans (answeredIcm_caller hne _))

theorem answeredTables_icm {p : PosId} (hp : p ≠ r.caller.1) : (answeredTables s c q e r ch B v).icm.get p =
    if p = q then ⟨.active c, (v.icm.get q).waiting⟩ else if p ∈ (r.gone q).map (·.pos) then .home else v.icm.get p := by
  refine (Tab.get_modifyEach (f := fun _ => IcmPos.home) (fun _ => rfl) _ _ _).trans ?_
  rw [answeredIcm_other hp]
  by_cases h : p = q
  · subst h
    simp [not_mem_gone]
  · simp [h]

theorem answeredTables_position (p : PosId) : (answeredTables s c q e r ch B v).positions.get p =
    if p = q then (v.positions.get q).inCall e c none
    else if p ∈ (r.gone q).map (·.pos) then (v.positions.get p).unfed else v.positions.get p := by
  refine (Tab.get_modifyEach (f := Position.unfed) (fun _ => rfl) _ _ _).trans ?_
  rw [Tab.get_modify]
  by_cases h : p = q
  · subst h
    simp [not_mem_gone]
  · simp [h]

end

/-- The endpoint's source joins the bridge of a call that has room for it (R109 step 1). -/
theorem joinEndpoint_sources (he : e = .ha ∨ e = .hb ∨ e = .mic) (h : ∀ y, endpointSource q e = some y →
    (s.bridges.get c).has y = false ∧ (s.bridges.get c).contributors.length < 12) :
    ((joinEndpoint q e c 0 s).bridges.get c).contributors =
      (s.bridges.get c).contributors ++ endpointEntry q e (s.positions.get q) := by
  obtain ⟨y, hy⟩ : ∃ y, endpointSource q e = some y := by rcases he with rfl | rfl | rfl <;> exact ⟨_, rfl⟩
  exact joinEndpoint_contributors (fun x hx => (h x hx).1) (h y hy).2

end

/-! # What a call's end leaves of the slots of positions (R102, R113)

Of a position's intercom the end of a call only ends what stands, but that it may present the call that waits. -/

/-- From `s` to `t` the slot of `q` stands or is emptied, and its state and feed stand, end, or are of the call that
waited there. -/
structure IcmPromotes (q : PosId) (s t : State) : Prop where
  waiting : t.waiting q = s.waiting q ∨ t.waiting q = none
  state : t.icmState q = s.icmState q ∨ t.icmState q = .idle ∨ ∃ d, s.waiting q = some d ∧ t.icmState q = .alerted d
  feed : (t.positions.get q).feed = (s.positions.get q).feed ∨ (t.positions.get q).feed = none ∨
    ∃ d, s.waiting q = some d ∧ (t.positions.get q).feed = some d

section
variable {q : PosId} {s t u : State}

theorem IcmPromotes.refl (q : PosId) (s : State) : IcmPromotes q s s := ⟨.inl rfl, .inl rfl, .inl rfl⟩

theorem IcmPromotes.waited (h : IcmPromotes q s t) {d : BridgeId} (hd : t.waiting q = some d) : s.waiting q = some d := by
  rcases h.waiting with e | e
  · rw [← e, hd]
  · rw [e] at hd
    cases hd

theorem IcmPromotes.trans (h : IcmPromotes q s t) (g : IcmPromotes q t u) : IcmPromotes q s u where
  waiting := by
    rcases g.waiting with e | e
    · exact e ▸ h.waiting
    · exact .inr e
  state := by
    rcases g.state with e | e | ⟨d, hd, e⟩
    · exact e ▸ h.state
    · exact .inr (.inl e)
    · exact .inr (.inr ⟨d, h.waited hd, e⟩)
  feed := by
    rcases g.feed with e | e | ⟨d, hd, e⟩
    · exact e ▸ h.feed
    · exact .inr (.inl e)
    · exact .inr (.inr ⟨d, h.waited hd, e⟩)

theorem IcmPromotes.each {α : Type} {f : α → State → State} (h : ∀ x s, IcmPromotes q s (f x s)) (xs : List α)
    (s : State) : IcmPromotes q s (s.each xs f) := each_rel (IcmPromotes.refl q) IcmPromotes.trans h xs s

theorem IcmPromotes.ite {c : Prop} [Decidable c] (h : IcmPromotes q s t) (k : IcmPromotes q s u) :
    IcmPromotes q s (if c then t else u) := by split <;> assumption

/-- A step that leaves the intercom records and the feeds. -/
theorem IcmPromotes.of_eq (hi : t.icm = s.icm) (hf : (t.positions.get q).feed = (s.positions.get q).feed) :
    IcmPromotes q s t := ⟨.inl (by simp only [State.waiting, hi]), .inl (by simp only [State.icmState, hi]), .inl hf⟩

/-- A step that leaves the position of `q` and its intercom record. -/
theorem IcmPromotes.of_get (hi : t.icm.get q = s.icm.get q) (hp : t.positions.get q = s.positions.get q) :
    IcmPromotes q s t :=
  ⟨.inl (by simp only [State.waiting, hi]), .inl (by simp only [State.icmState, hi]), .inl (by rw [hp])⟩

theorem icmPromotes_emptyWaiting (q p : PosId) (s : State) : IcmPromotes q s (setWaiting p none s) := by
  by_cases h : q = p
  · subst h
    exact ⟨.inr (by simp [State.waiting, setWaiting]), .inl (by simp [State.icmState, setWaiting]), .inl rfl⟩
  · exact .of_get (by simp [setWaiting, h]) rfl

/-- The state after `promoteWaiting`, for the position itself. -/
theorem icmPromotes_promoteWaiting (q p : PosId) (s : State) : IcmPromotes q s (promoteWaiting p s) := by
  unfold promoteWaiting
  split
  · rename_i d hd
    split
    · rename_i r _
      refine (IcmPromotes.refl q s).ite ?_
      by_cases h : q = p
      · subst h
        refine ⟨.inr ?_, .inr (.inr ⟨d, hd, ?_⟩), ?_⟩
        · unfold present
          split <;> simp [State.waiting, setIcm, setWaiting]
        · unfold present
          split <;> simp [State.icmState, setIcm, setWaiting]
        · unfold present
          split
          · exact .inr (.inr ⟨d, hd, by simp⟩)
          · exact .inl rfl
      · refine .of_get ?_ ?_
        · unfold present
          split <;> simp [setIcm, setWaiting, h]
        · unfold present
          split <;> simp [setIcm, setWaiting, h]
    · exact icmPromotes_emptyWaiting q p s
  · exact IcmPromotes.refl q s

theorem icmPromotes_modCall (q : PosId) (c : BridgeId) (f : Call → Call) (s : State) : IcmPromotes q s (s.modCall c f) :=
  .of_eq rfl rfl

theorem icmPromotes_postIcmState (q p : PosId) (c : Cause) (s : State) : IcmPromotes q s (postIcmState p c s) :=
  .of_eq rfl rfl

/-- A position IDLE, its tap not fed, before a waiting call is looked for (R102). -/
def idled (p : PosId) (cause : Cause) (s : State) : State := postIcmState p cause (setFeed p none (setIcm p .idle s))

theorem icmPromotes_idled (q p : PosId) (cause : Cause) (s : State) : IcmPromotes q s (idled p cause s) := by
  by_cases h : q = p
  · subst h
    exact ⟨.inl (by simp [State.waiting, idled, postIcmState, setIcm]),
      .inr (.inl (by simp [State.icmState, idled, postIcmState, setIcm])),
      .inr (.inl (by simp [idled, postIcmState, setIcm]))⟩
  · exact .of_get (by simp [idled, postIcmState, setIcm, h]) (by simp [idled, postIcmState, setIcm, h])

theorem icmPromotes_returnIdle (q p : PosId) (cause : Cause) (s : State) : IcmPromotes q s (returnIdle p cause s) :=
  (icmPromotes_idled q p cause s).trans (icmPromotes_promoteWaiting q p _)

theorem icmPromotes_withdraw (q : PosId) (c : BridgeId) (x : Presented) (d : Cause) (s : State) :
    IcmPromotes q s (withdraw c x d s) :=
  have hcall := icmPromotes_modCall q c (Call.unpresented x.pos) s
  ((hcall.trans (icmPromotes_emptyWaiting q x.pos _)).trans (icmPromotes_postIcmState ..)).ite
    (hcall.trans (icmPromotes_returnIdle ..))

theorem icmPromotes_endParty (q : PosId) (c : BridgeId) (d : Ending) (x : PosId × Endpoint) (s : State) :
    IcmPromotes q s (endParty c d x s) :=
  IcmPromotes.trans (.of_eq (by simp) (by simp)) (icmPromotes_returnIdle q x.1 d.cause _)

theorem icmPromotes_submit (q : PosId) (v : Record) (s : State) : IcmPromotes q s (submit v s) :=
  .of_eq (by simp) (by simp)

theorem icmPromotes_releaseUnless (q : PosId) (keep : Bool) (p : PosId) (e : Endpoint) (s : State) :
    IcmPromotes q s (releaseUnless keep p e s) := (IcmPromotes.refl q s).ite (.of_eq (by simp) (by simp))

theorem icmPromotes_post (q : PosId) (dest : LinkId → Bool) (n : Notice) (s : State) : IcmPromotes q s (post dest n s) :=
  .of_eq rfl rfl

theorem icmPromotes_callClosed (q : PosId) (c : BridgeId) (d : Ending) (r : Call) (s : State) :
    IcmPromotes q s (callClosed c d r s) := by
  have hchans := IcmPromotes.each (q := q) (f := fun (x : PosId × Endpoint) => releaseUnless (d.keep = some x.1) x.1 x.2)
    (fun x t => icmPromotes_releaseUnless q _ x.1 x.2 t) r.parties s
  have hrecord (v : Record) := hchans.trans (icmPromotes_submit q v _)
  exact ((hrecord _).trans (icmPromotes_post q _ _ _)).ite (hrecord _)

/-! ## Positions that have returned to IDLE -/

/-- A position that has returned to IDLE: since then, it can only have been ALERTED by a call of `W`, those that waited
there (R102). -/
structure IcmHomed (W : BridgeId → Prop) (q : PosId) (t : State) : Prop where
  state : t.icmState q = .idle ∨ ∃ d, W d ∧ t.icmState q = .alerted d
  feed : (t.positions.get q).feed = none ∨ ∃ d, W d ∧ (t.positions.get q).feed = some d
  waiting : ∀ d, t.waiting q = some d → W d

theorem IcmHomed.promotes {W : BridgeId → Prop} (h : IcmHomed W q s) (g : IcmPromotes q s t) : IcmHomed W q t where
  state := by
    rcases g.state with e | e | ⟨d, hd, e⟩
    · rw [e]
      exact h.state
    · exact .inl e
    · exact .inr ⟨d, h.waiting d hd, e⟩
  feed := by
    rcases g.feed with e | e | ⟨d, hd, e⟩
    · rw [e]
      exact h.feed
    · exact .inl e
    · exact .inr ⟨d, h.waiting d hd, e⟩
  waiting d hd := h.waiting d (g.waited hd)

theorem IcmHomed.not_inCall {W : BridgeId → Prop} (h : IcmHomed W q t) (c : BridgeId) :
    t.icmState q ≠ .calling c ∧ t.icmState q ≠ .active c := by
  rcases h.state with e | ⟨d, -, e⟩ <;> simp [e]

theorem IcmHomed.not_alerted {W : BridgeId → Prop} (h : IcmHomed W q t) {c : BridgeId} (hc : ¬W c) :
    t.icmState q ≠ .alerted c ∧ (t.positions.get q).feed ≠ some c := by
  constructor
  · rcases h.state with e | ⟨d, hd, e⟩ <;> rw [e]
    · exact nofun
    · rintro ⟨⟩
      exact hc hd
  · rcases h.feed with e | ⟨d, hd, e⟩ <;> rw [e]
    · exact nofun
    · rintro ⟨⟩
      exact hc hd

theorem IcmHomed.idle {W : BridgeId → Prop} (h : IcmHomed W q t) (hW : ∀ d, ¬W d) :
    t.icmState q = .idle ∧ (t.positions.get q).feed = none :=
  ⟨h.state.resolve_right fun ⟨d, hd, _⟩ => hW d hd, h.feed.resolve_right fun ⟨d, hd, _⟩ => hW d hd⟩

theorem icmHomed_returnIdle {W : BridgeId → Prop} (hw : ∀ d, s.waiting q = some d → W d) (cause : Cause) :
    IcmHomed W q (returnIdle q cause s) := by
  have hidled : IcmHomed W q (idled q cause s) :=
    ⟨.inl (by simp [State.icmState, idled, postIcmState, setIcm]), .inl (by simp [idled, postIcmState, setIcm]),
      fun d hd => hw d ((icmPromotes_idled q q cause s).waited hd)⟩
  exact hidled.promotes (icmPromotes_promoteWaiting q q _)

/-- What the withdrawal of a presentation establishes for good: an empty slot, or a position returned to IDLE. -/
structure Withdrawn (s : State) (x : Presented) (t : State) : Prop where
  slot : x.waiting = true → t.waiting x.pos = none
  current : x.waiting = false → IcmHomed (fun d => s.waiting x.pos = some d) x.pos t

theorem Withdrawn.promotes {x : Presented} (h : Withdrawn s x t) (g : ∀ q, IcmPromotes q t u) : Withdrawn s x u where
  slot hx := by
    rcases (g x.pos).waiting with e | e
    · rw [e, h.slot hx]
    · exact e
  current hx := (h.current hx).promotes (g x.pos)

theorem withdrawn_withdraw {x : Presented} (hw : ∀ q d, t.waiting q = some d → s.waiting q = some d) (c : BridgeId)
    (d : Cause) : Withdrawn s x (withdraw c x d t) := by
  unfold withdraw
  split
  · rename_i hx
    exact ⟨fun _ => by simp [State.waiting, postIcmState, setWaiting], fun h => by rw [h] at hx; cases hx⟩
  · rename_i hx
    exact ⟨fun h => absurd h hx, fun _ => icmHomed_returnIdle (s := unpresent c x.pos t) (hw x.pos) d⟩

/-! ## A call that ends whole (R113) -/

section
variable {c : BridgeId} {d : Ending} {r : Call}

theorem icmPromotes_ended (q : PosId) (c : BridgeId) (d : Ending) (r : Call) (t : State) :
    IcmPromotes q t ((dropBridge c (callClosed c d r t)).setCall c none) :=
  (icmPromotes_callClosed q c d r t).trans (.of_eq rfl rfl)

/-- Everything that an ended call presented has been withdrawn. -/
theorem endCall_withdrawn (hr : s.calls.get c = some r) {x : Presented} (hx : x ∈ r.presented) :
    Withdrawn s x (endCall c d s) := by
  have hget : (s.modCall c fun r => { r with alert := none }).calls.get c = some { r with alert := none } := by simp [hr]
  have hout : Withdrawn s x (withdrawAll c d.cause (s.modCall c fun r => { r with alert := none })) := by
    unfold withdrawAll
    simp only [hget]
    exact each_establishes (R := fun t u => ∀ q, IcmPromotes q t u)
      (I := fun t => ∀ q d, t.waiting q = some d → s.waiting q = some d)
      (fun y t q => icmPromotes_withdraw q c y d.cause t) (fun t u h hw q d hd => hw q d ((h q).waited hd))
      (fun y t hw => withdrawn_withdraw hw c d.cause) (fun y t u h hy => hy.promotes h) r.presented
      (s.modCall c fun r => { r with alert := none }) (fun q d hd => hd) x hx
  rw [endCall_eq hr]
  exact hout.promotes fun q => (IcmPromotes.each (icmPromotes_endParty q c d) r.parties _).trans (icmPromotes_ended ..)

/-- Every party of an ended call has returned to IDLE. -/
theorem endCall_homed (hr : s.calls.get c = some r) {x : PosId × Endpoint} (hx : x ∈ r.parties) :
    IcmHomed (fun _ => True) x.1 (endCall c d s) := by
  have hout : IcmHomed (fun _ => True) x.1 (partiesOut c d r s) :=
    each_establishes (R := fun t u => ∀ q, IcmPromotes q t u) (I := fun _ => True)
      (P := fun (y : PosId × Endpoint) t => IcmHomed (fun _ => True) y.1 t)
      (fun y t q => icmPromotes_endParty q c d y t) (fun _ _ _ => id)
      (fun y t _ => icmHomed_returnIdle (fun _ _ => trivial) d.cause) (fun y t u h hy => hy.promotes (h y.1)) r.parties _
      trivial x hx
  rw [endCall_eq hr]
  exact hout.promotes (icmPromotes_ended ..)

end

end

end

end Sys2Proof.Machine

namespace Sys2Proof.Machine
open Sys2Proof

section

/-! # ICM_HANGUP (R112) -/

section
variable {s : State} {l : LinkId} {p : PosId} {c : BridgeId} {r : Call}

theorem exec_icmHangup (hmay : mayTake s l .icmHangup (some p)) (ho : (s.positions.get p).isOpen = true) :
    exec (.icmHangup l (idByte p)) s =
      .next (respond l (BitVec.ofNat 8 ReqKind.icmHangup.code) (icmHangup p (s.begin (some l)))) :=
  congrArg Host.Outcome.next (positionRequest_owner hmay {} (fun _ => ho) (fun h => nomatch h) {} icmHangup)

/-- The hangup of a position that is in a call. -/
theorem icmHangup_of_call (h : (s.icmState p).call = some c) :
    icmHangup p s = done (hangupBody (leaveCall p .own false s) (some c)) (leaveCall p .own false s) := by
  rw [icmHangup, h]

/-- The hangup of a position that is in no call. -/
theorem icmHangup_idle (h : s.icmState p = .idle) : icmHangup p s = done [2#8] s := by
  have hleave : leaveCall p .own false s = s := by simp [leaveCall, h]
  rw [icmHangup, hleave, h]
  rfl

/-- The hangup of a caller (R112). -/
theorem leaveCall_caller (hr : s.calls.get c = some r)
    (h : s.icmState p = .calling c ∨ s.icmState p = .active c ∧ r.caller.1 = p) :
    leaveCall p .own false s = endCall c (callerEnding .own p none) s := by
  rcases h with h | ⟨h, hp⟩
  · simp [leaveCall, h]
  · simp [leaveCall, h, hr, hp]

theorem hangupBody_gone (h : s.calls.get c = none) : hangupBody s (some c) = [2#8] := by
  rw [hangupBody, h]
  rfl

theorem hangupBody_call (h : s.calls.get c = some r) : hangupBody s (some c) = [if r.active then 1#8 else 0#8] := by
  simp only [hangupBody, h]
  cases r.active <;> rfl

theorem icmHangup_caller (hr : s.calls.get c = some r)
    (h : s.icmState p = .calling c ∨ s.icmState p = .active c ∧ r.caller.1 = p) :
    icmHangup p s = done [2#8] (endCall c (callerEnding .own p none) s) := by
  have hcall : (s.icmState p).call = some c := by rcases h with h | ⟨h, -⟩ <;> rw [h] <;> rfl
  rw [icmHangup_of_call hcall, leaveCall_caller hr h, hangupBody_gone (endCall_gone hr).1]

end

end

/-- Settles O44: an answer is the rule `IcmStep.answer`; what a call's end leaves of its parties and of the positions it
was presented to stands through the steps after it (`IcmHomed`, `Withdrawn`). -/
theorem icmAnswerHangup : Obligations.IcmAnswerHangup := by
  constructor
  · intro l q e s hmay hopen hup he
    constructor
    · intro hnone
      have hr := exec_icmPickup (e := e) hmay hopen hup 0#8
      rw [icmPickup_notBound (s := s.begin (some l)) he hnone] at hr
      exact ⟨_, hr, rfl, (noNotice.refl s).respond l _, answered_respond ..⟩
    · intro c r ch hc hcall hbind hheld hroom hne rest gone hgone left new tell u
      have hr := exec_icmPickup (e := e) hmay hopen hup 0#8
      have hplace : placeAnswer (s.begin (some l)) q = none := placeAnswer_pass (s := s.begin (some l)) hopen hup
      have hfull : callFull (s.begin (some l)) c = false := callFull_of (s := s.begin (some l)) hcall hroom
      rw [icmPickup_current (s := s.begin (some l)) he hc hplace hbind hfull] at hr
      obtain ⟨hstep, hat⟩ := (icmStep_begin s (some l)).answer (q := q) (e := e) (c := c) (r := r) hcall
        (fun x hx => ⟨(hgone x hx).1, (hgone x hx).2.2⟩) (channelDue_begin hheld (some l))
      have hnew : (answer q e c (s.begin (some l))).calls.get c = some (r.answered q e) := by
        rw [hstep.calls]
        exact Tab.get_set_self ..
      rw [callStateBody_answered hnew hat] at hr
      have ht := hstep.respond l (BitVec.ofNat 8 ReqKind.icmPickup.code)
        ⟨.done, 1#8 :: (b2 (r.answered q e).parties.length ++ bOpt (ch.map (·.val)))⟩
      have hfar : r.caller.1 ∉ gone.map (·.pos) := fun hmem => by
        obtain ⟨x, hx, hpos⟩ := List.mem_map.mp hmem
        exact (hgone x hx).2.1 hpos
      refine ⟨_, hr, answered_respond .., ht.calls, ?_, fun p hp => ?_, fun p => ?_, ht.channels, fun hfree => ?_,
        ht.told.log, fun d hd => ?_, ht.told.notices, ht.rest⟩
      · exact (congrArg (fun T : Tab IcmPos 48 => T.get r.caller.1) ht.icm).trans (answeredTables_icm_caller hne hfar)
      · exact (congrArg (fun T : Tab IcmPos 48 => T.get p) ht.icm).trans (answeredTables_icm hp)
      · exact (congrArg (fun T : Tab Position 48 => T.get p) ht.positions).trans (answeredTables_position p)
      · exact (congrArg (fun T : Tab Bridge 96 => (T.get c).contributors) ht.bridges).trans
          (joinEndpoint_sources he hfree)
      · exact (congrArg (fun T : Tab Bridge 96 => T.get d) ht.bridges).trans (joinEndpoint_bridges q e c _ hd 0)
  · intro l p s hmay hopen
    have hr := exec_icmHangup hmay hopen
    constructor
    · intro hidle
      rw [icmHangup_idle (s := s.begin (some l)) hidle] at hr
      exact ⟨_, hr, rfl, (noNotice.refl s).respond l _, answered_respond ..⟩
    · intro c r hcall hcaller
      rw [icmHangup_caller (s := s.begin (some l)) hcall hcaller] at hr
      have hgone := endCall_gone (s := s.begin (some l)) (d := callerEnding .own p none) hcall
      have hframe := icmFrame_endCall c (callerEnding .own p none) (s.begin (some l))
      refine ⟨_, hr, answered_respond .., hgone.1, hgone.2, (kept_endCall c _ _).onlyCalls_begin, hframe.lines,
        hframe.hoots, fun x hx => ⟨endCall_unbound (s := s.begin (some l)) hcall hx, ?_⟩, fun x hx => ?_⟩
      · exact (endCall_homed (s := s.begin (some l)) (d := callerEnding .own p none) hcall hx).not_inCall c
      · obtain ⟨hslot, hcurrent⟩ := endCall_withdrawn (s := s.begin (some l)) (d := callerEnding .own p none) hcall hx
        refine ⟨hslot, fun hx' => (hcurrent hx').not_alerted, fun hx' hnone => (hcurrent hx').idle fun d hd => ?_⟩
        cases hnone.symm.trans hd

end Sys2Proof.Machine

namespace Sys2Proof.Machine
open Sys2Proof

section

/-! # What the end of an intercom relation changes, writes and tells (R112, R113) -/

/-- The channels once `x` holds none (R161). -/
def freedChannels (s : State) (x : PosId × Endpoint) : Tab (Option Channel) 64 :=
  match channelAt s x.1 x.2 with
  | some d => s.channels.set d none
  | none => s.channels

/-- A party's position once it has left its call. -/
def Position.outOfCall (e : Endpoint) (r : Position) : Position := { r.setBinding e .none with feed := none }

/-- A call that `p` has left (R112). -/
def Call.without (p : PosId) (r : Call) : Call := { r with parties := r.parties.filter fun x => x.1 ≠ p }

/-- The DISCONNECT record of a party that leaves by its own hangup (R112). -/
def disconnect (s : State) (c : BridgeId) (p : PosId) (e : Endpoint) (r : Call) : Record :=
  { kind := .disconnect, bridge := some c, pos := some p, endpoint := some e, channel := channelAt s p e,
    cause := some .none, parties := some (r.without p).parties }

/-- The tables once `p` has left call `c`; `B` are the bridges without its source (R112). -/
def leftTables (s : State) (c : BridgeId) (p : PosId) (e : Endpoint) (r : Call) (B : Tab Bridge 96) (v : IcmTables) :
    IcmTables where
  positions := v.positions.modify p (Position.outOfCall e)
  bridges := B
  icm := v.icm.modify p fun _ => .home
  calls := v.calls.set c (some (r.without p))
  channels := freedChannels s (p, e)
  released := v.released ++ (channelAt s p e).toList

/-- What is written and told as a party leaves (R112). -/
def leftTold (s : State) (c : BridgeId) (p : PosId) (e : Endpoint) (r : Call) (u : State) : State :=
  post (posRoute s [p]) (.icmState p .idle .hungUp 0) (submit (disconnect s c p e r) u)

/-- What is written and told as a party leaves a call that goes on (R112). -/
def goesOnTold (s : State) (c : BridgeId) (p : PosId) (e : Endpoint) (r : Call) (u : State) : State :=
  post (posRoute s [r.caller.1]) (.icmState r.caller.1 (.active c) .partyLeft (r.without p).parties.length)
    (leftTold s c p e r u)

/-- What the only party of a declined call is told (R113 step 3). -/
def endedTold (s : State) (c : BridgeId) (a : PosId × Endpoint) (u : State) : State :=
  post (posRoute s [a.1]) (.icmState a.1 .idle .declined 0)
    (post (posRoute s [a.1]) (.bindingLost a.1 a.2 (.icm c) .ended) u)

/-- The ICM_END record of a declined call that only its caller was in (R113 step 5). -/
def declinedRecord (c : BridgeId) (a : PosId × Endpoint) : Record :=
  { kind := .icmEnd, bridge := some c, pos := some a.1, endpoint := some a.2, cause := some .declined,
    parties := some [a] }

/-- What is written and told as a declined call ends (R113). -/
def declinedTold (s : State) (c : BridgeId) (a : PosId × Endpoint) (u : State) : State :=
  post (posRoute s [a.1]) (.noAnswer c .declined) (submit (declinedRecord c a) (endedTold s c a u))

section
variable {s u t : State} {v : IcmTables} {c : BridgeId} {p : PosId} {e : Endpoint} {r : Call}

/-! ## An endpoint and its channel -/

theorem Position.clear_eq (he : e = .ha ∨ e = .hb ∨ e = .mic) (x : Position) : x.clear e = x.setBinding e .none := by
  rcases he with rfl | rfl | rfl <;> rfl

theorem IcmStep.unbindQuiet (h : IcmStep s v u t) (he : e = .ha ∨ e = .hb ∨ e = .mic)
    (hb : (v.positions.get p).binding e = .icm c) :
    IcmStep s { v with positions := v.positions.modify p fun x => x.setBinding e .none } u
      (unbind p e .none t) := by
  have hbind : t.binding p e = .icm c := by rw [State.binding, h.positions, hb]
  have hclear := h.modPos p (Position.clear e)
  rw [funext (Position.clear_eq he)] at hclear
  simpa [unbind, hbind, funext (Position.clear_eq he)] using hclear

theorem IcmStep.unbindEnded (h : IcmStep s v u t) (he : e = .ha ∨ e = .hb ∨ e = .mic)
    (hb : (v.positions.get p).binding e = .icm c) :
    IcmStep s { v with positions := v.positions.modify p fun x => x.setBinding e .none }
      (post (posRoute s [p]) (.bindingLost p e (.icm c) .ended) u) (unbind p e .ended t) := by
  have hbind : t.binding p e = .icm c := by rw [State.binding, h.positions, hb]
  have hclear := (h.modPos p (Position.clear e)).postPos p (.bindingLost p e (.icm c) .ended)
  rw [funext (Position.clear_eq he)] at hclear
  simpa [unbind, hbind, funext (Position.clear_eq he)] using hclear

theorem IcmStep.releaseChan (h : IcmStep s v u t) (hc : v.channels = s.channels) (p : PosId) (e : Endpoint) :
    IcmStep s { v with channels := freedChannels s (p, e), released := v.released ++ (channelAt s p e).toList } u
      (Machine.releaseChan p e t) := by
  have hat : channelAt t p e = channelAt s p e := channelAt_of_channels (h.channels.trans hc) p e
  unfold Machine.releaseChan freedChannels
  rw [hat, ← hc]
  cases channelAt s p e with
  | none => simpa using h
  | some d => exact h.change fun v => { v with channels := v.channels.set d none, released := v.released ++ [d] }

/-! ## A party leaves a call that goes on -/

theorem IcmStep.partyLeaves (h : IcmStep s v u t) (hr : v.calls.get c = some r) (hc : v.channels = s.channels)
    (he : e = .ha ∨ e = .hb ∨ e = .mic) (hb : (v.positions.get p).binding e = .icm c)
    (hw : (v.icm.get p).waiting = none) :
    IcmStep s (leftTables s c p e r (Machine.leaveEndpoint p e c t).bridges v)
      (leftTold s c p e r u)
      (Machine.partyLeaves p e c .own false t) := by
  have hout := ((h.leaveEndpoint p e c).modCall c (Call.without p)).unbindQuiet he hb
  rw [Tab.modify_map_some hr] at hout
  generalize hx : unbind p e .none _ = x at hout
  have hat : channelAt x p e = channelAt s p e := channelAt_of_channels (hout.channels.trans hc) p e
  have hrel := hout.releaseChan hc p e
  have hget : x.calls.get c = some (r.without p) := by
    rw [hout.calls]
    exact Tab.get_set_self ..
  have hidle := (hrel.submit (disconnect s c p e r)).returnIdle (p := p) hw .hungUp
  simp only [Tab.modify_modify] at hidle
  have hleaves : Machine.partyLeaves p e c .own false t =
      Machine.returnIdle p .hungUp (Machine.submit
        { kind := .disconnect, bridge := some c, pos := some p, endpoint := some e, channel := channelAt x p e,
          cause := some .none, parties := (x.calls.get c).map (·.parties) } (Machine.releaseChan p e x)) := by
    rw [← hx]
    rfl
  rw [hleaves, hat, hget]
  exact hidle

/-- A party of a GROUP call that goes on when the party leaves, with nothing waiting at its position. -/
structure GroupParty (v : IcmTables) (c : BridgeId) (p : PosId) (e : Endpoint) (r : Call) : Prop where
  call : v.calls.get c = some r
  endpoint : e = .ha ∨ e = .hb ∨ e = .mic
  bound : (v.positions.get p).binding e = .icm c
  slot : (v.icm.get p).waiting = none
  active : (v.icm.get p).state = .active c
  notCaller : r.caller.1 ≠ p
  listed : (r.parties.find? fun x => x.1 = p) = some (p, e)
  group : r.group.isSome
  caller : (v.icm.get r.caller.1).state = .active c
  stay : 2 ≤ (r.without p).parties.length

/-- A party of a GROUP call leaves it, and the call goes on (R112). -/
theorem IcmStep.leaveGroup (h : IcmStep s v u t) (hc : v.channels = s.channels) (hparty : GroupParty v c p e r) :
    IcmStep s (leftTables s c p e r (Machine.leaveEndpoint p e c t).bridges v)
      (goesOnTold s c p e r u)
      (leaveCall p .own false t) := by
  obtain ⟨hr, he, hb, hw, hactive, hne, hfind, hgroup, hcaller, hstay⟩ := hparty
  have hleft := h.partyLeaves hr hc he hb hw
  have hstate : t.icmState p = .active c := by rw [State.icmState, h.icm, hactive]
  have hget : t.calls.get c = some r := by rw [h.calls, hr]
  have hleave : leaveCall p .own false t = afterLeaving c .own (Machine.partyLeaves p e c .own false t) := by
    simp [leaveCall, hstate, hget, hne, hfind]
  rw [hleave]
  generalize Machine.partyLeaves p e c .own false t = x at hleft
  have hget' : x.calls.get c = some (r.without p) := by
    rw [hleft.calls]
    exact Tab.get_set_self ..
  have hcaller' : x.icmState r.caller.1 = .active c := by
    rw [State.icmState, hleft.icm]
    simp [leftTables, hne, hcaller]
  have hgoes : ¬((r.without p).group.isNone || decide ((r.without p).parties.length < 2)) = true := by
    have hnone : (r.without p).group.isNone = false := Option.isNone_eq_false_iff.mpr hgroup
    rw [hnone, Bool.false_or, decide_eq_true_iff]
    omega
  have hpost := hleft.postIcmState r.caller.1 .partyLeft
  rw [hcaller', partyCount_active hcaller' hget'] at hpost
  unfold afterLeaving
  simp only [hget', if_neg hgoes]
  exact hpost

/-! ## A call ends that only its caller is in -/

theorem IcmStep.endParty (h : IcmStep s v u t) (he : e = .ha ∨ e = .hb ∨ e = .mic)
    (hb : (v.positions.get p).binding e = .icm c) (hw : (v.icm.get p).waiting = none) :
    IcmStep s { v with positions := v.positions.modify p (Position.outOfCall e)
                       bridges := (Machine.leaveEndpoint p e c t).bridges
                       icm := v.icm.modify p fun _ => .home }
      (endedTold s c (p, e) u)
      (Machine.endParty c (declineEnding .own) (p, e) t) := by
  have hidle := ((h.leaveEndpoint p e c).unbindEnded he hb).returnIdle (p := p) hw .declined
  simp only [Tab.modify_modify] at hidle
  exact hidle

theorem IcmStep.declined (h : IcmStep s v u t) (hr : v.calls.get c = some r) (hc : v.channels = s.channels)
    (hpresented : r.presented = []) (hactive : r.active = false) (hparties : r.parties = [r.caller])
    (he : r.caller.2 = .ha ∨ r.caller.2 = .hb ∨ r.caller.2 = .mic)
    (hb : (v.positions.get r.caller.1).binding r.caller.2 = .icm c) (hw : (v.icm.get r.caller.1).waiting = none) :
    IcmStep s { v with positions := v.positions.modify r.caller.1 (Position.outOfCall r.caller.2)
                       bridges := v.bridges.set c Bridge.reset
                       icm := v.icm.modify r.caller.1 fun _ => .home
                       calls := v.calls.set c none
                       channels := freedChannels s r.caller
                       released := v.released ++ (channelAt s r.caller.1 r.caller.2).toList }
      (declinedTold s c r.caller u)
      (endCall c (declineEnding .own) t) := by
  have hget : t.calls.get c = some r := by rw [h.calls, hr]
  have hquiet := h.modCall c fun r => { r with alert := none }
  generalize hx : t.modCall c (fun r => { r with alert := none }) = x at hquiet
  have hgone : withdrawAll c .declined x = x := by
    have hxget : x.calls.get c = some { r with alert := none } := by simp [hquiet.calls, hr]
    simp [withdrawAll, hxget, hpresented]
  have hout := ((hquiet.endParty he hb hw).releaseChan hc r.caller.1 r.caller.2).submit (declinedRecord c r.caller)
  have hend := ((hout.postPos r.caller.1 (.noAnswer c .declined)).modBridge c fun _ => Bridge.reset).setCall c none
  have hparty : partiesOut c (declineEnding .own) r t = Machine.endParty c (declineEnding .own) r.caller x := by
    rw [partiesOut, hx, hparties]
    exact congrArg _ hgone
  have hclosed : endCall c (declineEnding .own) t = (dropBridge c (Machine.postPos r.caller.1 (.noAnswer c .declined)
      (Machine.submit (declinedRecord c r.caller) (Machine.releaseChan r.caller.1 r.caller.2
        (Machine.endParty c (declineEnding .own) r.caller x))))).setCall c none := by
    rw [endCall_eq hget, hparty]
    simp [callClosed, noAnswerDue, hactive, hparties, declineEnding, declinedRecord, releaseUnless]
  rw [hclosed]
  have hcalls : (v.calls.modify c (Option.map fun r => { r with alert := none })).set c none = v.calls.set c none := by
    apply Tab.ext_get
    intro d
    by_cases hd : d = c <;> simp [hd]
  have hbridges : (Machine.leaveEndpoint r.caller.1 r.caller.2 c x).bridges.modify c (fun _ => Bridge.reset) =
      v.bridges.set c Bridge.reset := by
    apply Tab.ext_get
    intro d
    by_cases hd : d = c
    · simp [hd]
    · simp [hd, leaveEndpoint_bridges _ _ _ _ hd, hquiet.bridges]
  simp only [hcalls, hbridges] at hend
  exact hend

/-! ## A presentation is declined (R112) -/

/-- A presentation declined at a position where no call waits. -/
theorem IcmStep.declines (h : IcmStep s v u t) (hr : v.calls.get c = some r) (hw : (v.icm.get p).waiting = none) :
    IcmStep s { v with positions := v.positions.modify p Position.unfed
                       icm := v.icm.modify p fun _ => .home
                       calls := v.calls.set c (some (r.unpresented p)) }
      (post (posRoute s [p]) (.icmState p .idle .declined 0) u)
      (Machine.returnIdle p .declined (Machine.unpresent c p t)) := by
  have hidle := (h.unpresent c p).returnIdle (p := p) hw .declined
  rw [Tab.modify_map_some hr] at hidle
  exact hidle

/-- The leaving of a position that a call is presented to is a decline (R112). -/
theorem leaveCall_alerted (ha : t.icmState p = .alerted c)
    (hr : (Machine.returnIdle p .declined (Machine.unpresent c p t)).calls.get c = some r) :
    leaveCall p .own false t =
      if r.presented = [] ∧ r.active = false then
        endCall c (declineEnding .own) (Machine.returnIdle p .declined (Machine.unpresent c p t))
      else Machine.returnIdle p .declined (Machine.unpresent c p t) := by
  simp [leaveCall, ha, decline, Leaving.causeOr, hr]

@[simp] theorem Call.caller_unpresented (p : PosId) (r : Call) : (r.unpresented p).caller = r.caller := rfl

/-- The decline of one of several presentations leaves the call. -/
theorem IcmStep.declineLeaves (h : IcmStep s v u t) (hr : v.calls.get c = some r)
    (hw : (v.icm.get p).waiting = none) (ha : (v.icm.get p).state = .alerted c)
    (hothers : (r.presented.filter fun x => x.pos ≠ p) ≠ []) :
    IcmStep s { v with positions := v.positions.modify p Position.unfed
                       icm := v.icm.modify p fun _ => .home
                       calls := v.calls.set c (some { r with presented := r.presented.filter fun x => x.pos ≠ p }) }
      (post (posRoute s [p]) (.icmState p .idle .declined 0) u) (leaveCall p .own false t) := by
  have hout := h.declines hr hw
  have hcall : r.unpresented p = { r with presented := r.presented.filter fun x => x.pos ≠ p } := by
    simp only [Call.unpresented, List.isEmpty_iff, if_neg hothers]
  have hstate : t.icmState p = .alerted c := by rw [State.icmState, h.icm, ha]
  rw [leaveCall_alerted hstate ((congrArg (Tab.get · c) hout.calls).trans (Tab.get_set_self ..)),
    if_neg fun hend => hothers hend.1, ← hcall]
  exact hout

/-- The decline of the last presentation of a call that only its caller is in ends it. -/
theorem IcmStep.declineEnds (h : IcmStep s v u t) (hr : v.calls.get c = some r) (hc : v.channels = s.channels)
    (hw : (v.icm.get p).waiting = none) (ha : (v.icm.get p).state = .alerted c) (hne : r.caller.1 ≠ p)
    (hothers : (r.presented.filter fun x => x.pos ≠ p) = []) (hactive : r.active = false)
    (hparties : r.parties = [r.caller]) (he : r.caller.2 = .ha ∨ r.caller.2 = .hb ∨ r.caller.2 = .mic)
    (hb : (v.positions.get r.caller.1).binding r.caller.2 = .icm c) (hw' : (v.icm.get r.caller.1).waiting = none) :
    IcmStep s { v with positions := (v.positions.modify p Position.unfed).modify r.caller.1
                         (Position.outOfCall r.caller.2)
                       bridges := v.bridges.set c Bridge.reset
                       icm := (v.icm.modify p fun _ => .home).modify r.caller.1 fun _ => .home
                       calls := v.calls.set c none
                       channels := freedChannels s r.caller
                       released := v.released ++ (channelAt s r.caller.1 r.caller.2).toList }
      (declinedTold s c r.caller (post (posRoute s [p]) (.icmState p .idle .declined 0) u))
      (leaveCall p .own false t) := by
  have hout := h.declines hr hw
  have hend := hout.declined (c := c) (r := r.unpresented p) (Tab.get_set_self ..) hc hothers hactive hparties he
    (by simpa [Tab.get_modify_ne, hne] using hb) (by simpa [hne] using hw')
  have hcalls : (v.calls.set c (some (r.unpresented p))).set c none = v.calls.set c none := by
    apply Tab.ext_get
    intro d
    by_cases hd : d = c <;> simp [hd]
  simp only [hcalls] at hend
  have hstate : t.icmState p = .alerted c := by rw [State.icmState, h.icm, ha]
  rw [leaveCall_alerted hstate ((congrArg (Tab.get · c) hout.calls).trans (Tab.get_set_self ..)),
    if_pos ⟨hothers, hactive⟩]
  exact hend

end

end

end Sys2Proof.Machine

namespace Sys2Proof.Machine
open Sys2Proof

section

/-! # ICM_PICKUP of the waiting call (R111) -/

section
variable {s t u : State} {v : IcmTables} {c d : BridgeId} {p : PosId} {e : Endpoint} {r w : Call} {ch : Option ChanId}

/-- A step, its tables read from the state it has led to. -/
theorem IcmStep.now (h : IcmStep s v u t) : IcmStep s t.icmTables u t := ⟨h.only, rfl, h.time, h.told⟩

/-- The waiting call picked up with the endpoint of the current one (R109 check 3, R111). -/
theorem icmPickup_waiting (he : e = .ha ∨ e = .hb ∨ e = .mic) (hw : s.waiting p = some d)
    (hplace : placeAnswer s p = none) (hb : s.binding p e = .icm c) (hc : s.icmState p = .active c)
    (hfull : callFull s d = false) :
    icmPickup (endByte e) 1#8 p s = done (callStateBody (pickupWaiting p e d s) d p e) (pickupWaiting p e d s) := by
  have hchoice : choiceOf 1#8 = some true := rfl
  simp [icmPickup, icmEndpoint_eq he, hchoice, pickupCall, hw, pickupAnswer, hplace, hb, hc, IcmState.call, hfull]

/-- An endpoint that held one channel at most holds none once that is released. -/
theorem channelAt_freed (hone : ∀ x y, s.channels.get x = some y → y.pos = p → y.endpoint = e → channelAt s p e = some x)
    (ht : t.channels = freedChannels s (p, e)) : channelAt t p e = none := by
  refine channelAt_eq_none.mpr fun x y hxy ⟨hp, he⟩ => ?_
  rw [ht, freedChannels] at hxy
  cases hat : channelAt s p e with
  | none =>
    simp only [hat] at hxy
    exact nomatch hat.symm.trans (hone x y hxy hp he)
  | some b =>
    simp only [hat, Tab.get_set] at hxy
    split at hxy
    · cases hxy
    · rename_i hne
      exact hne (Option.some.inj ((hone x y hxy hp he).symm.trans hat))

/-- A channel just released is not given again in the same request (R156). -/
theorem freeChannel_freed (hs : s.released = []) (ht : t.channels = freedChannels s (p, e))
    (hrel : t.released = (channelAt s p e).toList) : freeChannel t = freeChannel s := by
  unfold freeChannel
  congr 1
  funext x
  rw [ht, hrel, hs, freedChannels]
  cases hat : channelAt s p e with
  | none => rfl
  | some b =>
    obtain ⟨y, hy, -, -⟩ := channelAt_some hat
    by_cases hx : x = b
    · subst hx
      simp [hy]
    · simp [hx]

/-- The channel due to a party that has just released the only one it held. -/
theorem channelDue_freed
    (hone : ∀ x y, s.channels.get x = some y → y.pos = p → y.endpoint = e → channelAt s p e = some x)
    (hch : if s.icmRecord then lowestFree s ch else ch = none) {o : Option LinkId} (hr : t.icmRecord = s.icmRecord)
    (ht : t.channels = freedChannels (s.begin o) (p, e)) (hrel : t.released = (channelAt (s.begin o) p e).toList) :
    channelDue t p e ch := by
  have hat : channelAt t p e = none := channelAt_freed (s := s.begin o) hone ht
  unfold channelDue
  rw [hr]
  split at hch
  · rename_i hwant
    rw [if_pos hwant]
    exact ⟨hat, (freeChannel_freed rfl ht hrel).trans (freeChannel_begin hch o)⟩
  · rename_i hwant
    rw [if_neg hwant, hat, hch]

theorem Call.gone_eq_nil (h : w.mode ≠ .announceFirst) (q : PosId) : w.gone q = [] := if_neg h

theorem answeredTables_quiet (h : w.gone p = []) (B : Tab Bridge 96) : answeredTables s d p e w ch B v = { v with
    positions := v.positions.modify p (Position.inCall e d none)
    bridges := B
    icm := answeredIcm d p w v.icm
    calls := v.calls.set d (some (w.answered p e))
    channels := withChannel s s.icmRecord ch (p, e) none d v.channels } := by
  rw [answeredTables, h]
  rfl

theorem connectTold_quiet (h : w.gone p = []) : connectTold s d p e w ch u =
    submit { kind := .connect, bridge := some d, pos := some p, endpoint := some e, channel := ch,
             parties := some (w.answered p e).parties }
      (noteUnrecorded s.icmRecord ch (partyUnrecorded p e d) u) := by
  rw [connectTold, h]
  rfl

/-- The answer of a position that has just returned to IDLE: it and the caller are ACTIVE, the caller's slot stands. -/
theorem answeredIcm_home (hne : w.caller.1 ≠ p) {I : Tab IcmPos 48}
    (h : w.active = false ∧ (I.get w.caller.1).state = .calling d ∨
      w.active = true ∧ (I.get w.caller.1).state = .active d) :
    answeredIcm d p w (I.modify p fun _ => .home) =
      (I.set p ⟨.active d, none⟩).set w.caller.1 ⟨.active d, (I.get w.caller.1).waiting⟩ := by
  apply Tab.ext_get
  intro q
  by_cases hq : q = w.caller.1
  · rw [hq, answeredIcm_caller hne, Tab.get_set_self, Tab.get_modify_ne _ _ hne]
    rcases h with ⟨hactive, -⟩ | ⟨hactive, hstate⟩
    · simp [hactive]
    · simp [hactive, hstate]
  · rw [answeredIcm_other hq, Tab.get_set_ne _ _ hq, Tab.get_set]
    by_cases hp : q = p <;> simp [hp, IcmPos.home]

/-- The answer of a call that is not ANNOUNCE_FIRST withdraws no other presentation (R110). -/
theorem Call.answered_eq (h : w.mode ≠ .announceFirst) (q : PosId) (e : Endpoint) : w.answered q e = { w with
    parties := w.parties ++ [(q, e)]
    presented := w.presented.filter fun x => x.pos ≠ q
    active := true
    alert := if (w.presented.filter fun x => x.pos ≠ q).isEmpty then none else w.alert } := by
  have hleft : w.left q = w.presented.filter fun x => x.pos ≠ q := if_neg h
  simp only [Call.answered, hleft]

/-- A position that leaves one call and is at once a party of another. -/
theorem Position.inCall_outOfCall (he : e = .ha ∨ e = .hb ∨ e = .mic) (x : Position) :
    (x.outOfCall e).inCall e d none = { x.setBinding e (.icm d) with feed := if e = .mic then some d else none } := by
  rcases he with rfl | rfl | rfl <;> rfl

theorem endpointEntry_outOfCall (he : e = .ha ∨ e = .hb ∨ e = .mic) (x : Position) :
    endpointEntry p e (x.outOfCall e) = endpointEntry p e x := by
  rcases he with rfl | rfl | rfl <;> rfl

end

end

/-- Settles O45: each end is a rule of `IcmStep`; the pickup of the waiting call is a leaving followed by an answer. -/
theorem icmRelationsEnd : Obligations.IcmRelationsEnd := by
  intro l p c r s hopen hcall hne a tell others only freed
  constructor
  · intro hmay halerted hslot
    have hr := exec_icmHangup hmay hopen
    rw [icmHangup_of_call (s := s.begin (some l)) (c := c) (congrArg IcmState.call halerted)] at hr
    constructor
    · intro hothers hactive hparties hbind he hslot' u v
      have hstep := (icmStep_begin s (some l)).declineEnds hcall rfl hslot halerted hne hothers hactive hparties he hbind
        hslot'
      have ht := hstep.respond l (BitVec.ofNat 8 ReqKind.icmHangup.code) ⟨.done, [2#8]⟩
      rw [hangupBody_gone ((congrArg (Tab.get · c) hstep.calls).trans (Tab.get_set_self ..))] at hr
      refine ⟨_, hr, answered_respond .., ht.rest, ht.calls, ht.bridges, ?_, ?_, fun x hp ha => ?_, ?_, ht.channels,
        ht.told.log, ht.told.notices⟩
      · exact (congrArg (fun T : Tab IcmPos 48 => (T.get p).state) ht.icm).trans (by simp [Ne.symm hne, IcmPos.home])
      · exact (congrArg (fun T : Tab IcmPos 48 => (T.get a.1).state) ht.icm).trans (by simp [a, IcmPos.home])
      · exact (congrArg (fun T : Tab IcmPos 48 => T.get x) ht.icm).trans (by simp [hp, ha, a, State.icmTables])
      · exact ht.positions
    · intro hothers
      have hstep := (icmStep_begin s (some l)).declineLeaves hcall hslot halerted hothers
      have ht := hstep.respond l (BitVec.ofNat 8 ReqKind.icmHangup.code) ⟨.done, [if r.active then 1#8 else 0#8]⟩
      rw [hangupBody_call ((congrArg (Tab.get · c) hstep.calls).trans (Tab.get_set_self ..))] at hr
      exact ⟨_, hr, answered_respond .., ht.rest, ht.calls, ht.bridges, ht.icm, ht.positions, ht.channels, ht.told.log,
        ht.told.notices⟩
  · intro e hactive hfind hbind he hgroup hcaller stay hstay u cs
    have hcs (t : State) (ht : t.bridges = s.bridges) : ((leaveEndpoint p e c t).bridges.get c).contributors = cs c e := by
      rw [leaveEndpoint_contributors, ht]
      rcases he with rfl | rfl | rfl <;> simp [cs, endpointSource]
    constructor
    · intro hmay hslot
      have hr := exec_icmHangup hmay hopen
      rw [icmHangup_of_call (s := s.begin (some l)) (c := c) (congrArg IcmState.call hactive)] at hr
      have hstep := (icmStep_begin s (some l)).leaveGroup rfl
        ⟨hcall, he, hbind, hslot, hactive, hne, hfind, hgroup, hcaller, hstay⟩
      have ht := hstep.respond l (BitVec.ofNat 8 ReqKind.icmHangup.code) ⟨.done, [if r.active then 1#8 else 0#8]⟩
      rw [hangupBody_call ((congrArg (Tab.get · c) hstep.calls).trans (Tab.get_set_self ..))] at hr
      refine ⟨_, hr, answered_respond .., ht.rest, ht.calls, fun d hd => ?_, ?_, ht.icm, ht.positions, ht.channels,
        ht.told.log, ht.told.notices⟩
      · exact (congrArg (fun T : Tab Bridge 96 => T.get d) ht.bridges).trans (leaveEndpoint_bridges _ _ _ _ hd)
      · exact (congrArg (fun T : Tab Bridge 96 => (T.get c).contributors) ht.bridges).trans (hcs _ rfl)
    · intro d w hmay hup hslot hd hcall' hne' hapart hmode hroom hstate hone hsource left n ch hch v
      have hr := exec_icmPickup (e := e) hmay hopen hup 1#8
      have hplace : placeAnswer (s.begin (some l)) p = none := placeAnswer_pass (s := s.begin (some l)) hopen hup
      have hfull : callFull (s.begin (some l)) d = false := callFull_of (s := s.begin (some l)) hcall' hroom
      rw [icmPickup_waiting (s := s.begin (some l)) he hslot hplace hbind hactive hfull, pickupWaiting] at hr
      have hparty : GroupParty { (s.begin (some l)).icmTables with
          icm := s.icm.modify p fun x => { x with waiting := none } } c p e r :=
        ⟨hcall, he, hbind, by simp, (congrArg IcmPos.state (Tab.get_modify_self ..)).trans hactive, hne, hfind, hgroup,
          (congrArg IcmPos.state (Tab.get_modify_ne _ _ hne)).trans hcaller, hstay⟩
      have hleft := ((icmStep_begin s (some l)).setWaiting p none).leaveGroup rfl hparty
      generalize leaveCall p .own false (setWaiting p none (s.begin (some l))) = x at hleft hr
      have hgone : w.gone p = [] := Call.gone_eq_nil hmode p
      have hcall'' : x.calls.get d = some w :=
        (congrArg (Tab.get · d) hleft.calls).trans ((Tab.get_set_ne _ _ hd).trans hcall')
      obtain ⟨hstep, hat⟩ := hleft.now.answer (q := p) (e := e) (c := d) (r := w) hcall''
        (by simp [hgone]) (channelDue_freed hone hch hleft.icmRecord hleft.channels hleft.released)
      rw [answeredTables_quiet hgone, connectTold_quiet hgone] at hstep
      have hnew : (answer p e d x).calls.get d = some (w.answered p e) :=
        (congrArg (Tab.get · d) hstep.calls).trans (Tab.get_set_self ..)
      have hlen : (w.answered p e).parties.length = n := List.length_append
      rw [callStateBody_answered hnew hat, hlen] at hr
      have ht := hstep.respond l (BitVec.ofNat 8 ReqKind.icmPickup.code)
        ⟨.done, 1#8 :: (b2 n ++ bOpt (ch.map (·.val)))⟩
      have hjoined (b : BridgeId) (hb : b ≠ c) : x.bridges.get b = s.bridges.get b :=
        (congrArg (Tab.get · b) hleft.bridges).trans (leaveEndpoint_bridges _ _ _ _ hb)
      have hpos : x.positions.get p = (s.positions.get p).outOfCall e :=
        (congrArg (Tab.get · p) hleft.positions).trans (Tab.get_modify_self ..)
      have hidle : x.icm = s.icm.modify p fun _ => .home :=
        hleft.icm.trans (Tab.modify_modify s.icm p (fun i => { i with waiting := none }) fun _ => .home)
      have hicm : (answer p e d x).icm =
          (s.icm.set p ⟨.active d, none⟩).set w.caller.1 ⟨.active d, s.waiting w.caller.1⟩ :=
        hstep.icm.trans ((congrArg (answeredIcm d p w) hidle).trans (answeredIcm_home hne' hstate))
      have hself : (answer p e d x).icmState p = .active d := by simp [State.icmState, hicm, Ne.symm hne']
      have hother : (answer p e d x).icmState w.caller.1 = .active d := by simp [State.icmState, hicm]
      refine ⟨_, hr, answered_respond .., ht.rest, ?_, ?_, ?_, fun b hbc hbd => ?_, hicm, ?_,
        ht.channels.trans (congrArg (withChannel s s.icmRecord ch (p, e) none d) hleft.channels), ht.told.log, ?_⟩
      · exact ht.calls.trans (congrArg (fun w' => x.calls.set d (some w')) (Call.answered_eq hmode p e) |>.trans
          (congrArg (Tab.set · d _) hleft.calls))
      · refine (congrArg (fun T : Tab Bridge 96 => (T.get c).contributors) ht.bridges).trans ?_
        refine (congrArg Bridge.contributors (joinEndpoint_bridges p e d x (Ne.symm hd) 0)).trans ?_
        exact (congrArg (fun T : Tab Bridge 96 => (T.get c).contributors) hleft.bridges).trans (hcs _ rfl)
      · refine (congrArg (fun T : Tab Bridge 96 => (T.get d).contributors) ht.bridges).trans ?_
        refine (joinEndpoint_sources he fun y hy => ?_).trans ?_
        · rw [hjoined d hd]
          exact hsource y hy
        · rw [hjoined d hd, hpos, endpointEntry_outOfCall he]
          rfl
      · refine (congrArg (fun T : Tab Bridge 96 => T.get b) ht.bridges).trans ?_
        exact (joinEndpoint_bridges p e d x hbd 0).trans (hjoined b hbc)
      · refine ht.positions.trans ((congrArg (Tab.modify · p _) hleft.positions).trans ?_)
        exact (Tab.modify_modify ..).trans (congrArg (s.positions.modify p) (funext (Position.inCall_outOfCall he)))
      · have hnotices := ht.told.notices
        rw [stateTold, stateTold, hself, hother, partyCount_active hself hnew, partyCount_active hother hnew, hlen]
          at hnotices
        exact hnotices

end Sys2Proof.Machine

namespace Sys2Proof.Machine
open Sys2Proof

section

/-! # Hoot records and the talkers on them (R120, R126) -/

/-- A position stands nowhere on a hoot exactly when it is no talker of it (R126). -/
theorem talkStateOf_eq_none {h : Hoot} {p : PosId} : talkStateOf h p = .none ↔ p ∉ h.talkers := by
  have hg : (h.talker p).isSome = true ↔ p ∈ h.granted.map (·.pos) := by
    simp [Hoot.talker, List.find?_isSome]
  have hq : (h.queue.findIdx? fun x => x.1 = p) = none ↔ p ∉ h.queue.map (·.1) := by
    rw [List.findIdx?_eq_none_iff, List.mem_map]
    exact ⟨fun hx ⟨x, hm, hp⟩ => by simpa [hp] using hx x hm, fun hx x hm => decide_eq_false fun hp => hx ⟨x, hm, hp⟩⟩
  rw [Hoot.talkers, List.mem_append, not_or, ← hg, ← hq]
  unfold talkStateOf
  split
  · rename_i ht
    simp [ht]
  · rename_i ht
    split
    · rename_i hi
      simp [hi]
    · rename_i hn
      exact iff_of_true rfl ⟨ht, hn⟩

/-- A hoot's record changed to one that is as R120 says. -/
theorem kept_modHootAt {b : BridgeId} {f : Hoot → Hoot} {s : State} (h : ∀ r, s.hoots.get b = some r → HootOk (f r)) :
    Kept s (s.modHoot b f) := by
  have e : s.modHoot b f = s.setHoot b ((s.hoots.get b).map f) := rfl
  rw [e]
  refine kept_setHoot s b _ fun _ r hr => ?_
  obtain ⟨g, hg, rfl⟩ := Option.map_eq_some_iff.mp hr
  exact h g hg

end

end Sys2Proof.Machine

namespace Sys2Proof.Machine
open Sys2Proof

section

/-! # Every step keeps the hoots and the camp queues (R63, R120) -/

/-- From `s` to `t` the hoot records stay as R120 says, and the camp queues as R63 says. -/
structure QueueStep (s t : State) : Prop where
  hoots : HootsOk s → HootsOk t
  camps : CampsOk s → CampsOk t

theorem QueueStep.refl (s : State) : QueueStep s s := ⟨id, id⟩

theorem QueueStep.trans {s t u : State} (h : QueueStep s t) (g : QueueStep t u) : QueueStep s u :=
  ⟨g.hoots ∘ h.hoots, g.camps ∘ h.camps⟩

theorem QueueStep.each {α : Type} {f : α → State → State} (h : ∀ x s, QueueStep s (f x s)) (xs : List α) (s : State) :
    QueueStep s (s.each xs f) := each_rel QueueStep.refl QueueStep.trans h xs s

theorem QueueStep.ite {c : Prop} [Decidable c] {s t u : State} (h : QueueStep s t) (g : QueueStep s u) :
    QueueStep s (if c then t else u) := by split <;> assumption

/-- The hoots and the camp queues stand. -/
theorem QueueStep.of_camps {s t : State} (hh : t.hoots = s.hoots)
    (hc : ∀ L, (t.lines.get L).camp = (s.lines.get L).camp) : QueueStep s t :=
  ⟨fun h => by rwa [HootsOk, hh], fun h L => ⟨hc L ▸ (h L).capacity, hc L ▸ (h L).noneTwice⟩⟩

/-- The hoots and the lines stand. -/
theorem QueueStep.of_eq {s t : State} (hh : t.hoots = s.hoots) (hl : t.lines = s.lines) : QueueStep s t :=
  .of_camps hh fun _ => by rw [hl]

/-- A step from a state with the same hoots and lines. -/
theorem QueueStep.of_start {s s' t : State} (h : QueueStep s' t) (hh : s'.hoots = s.hoots) (hl : s'.lines = s.lines) :
    QueueStep s t := (QueueStep.of_eq hh hl).trans h

theorem Kept.queueStep {s t : State} (h : Kept s t) : QueueStep s t := ⟨h.hoots, h.campsOk⟩

theorem QueueStep.inFreeOrder {α : Type} {f : α → State → State} (h : ∀ x s, QueueStep s (f x s)) (xs : List α)
    (s : State) : QueueStep s (s.inFreeOrder xs f) := QueueStep.of_start (.each h _ _) rfl rfl

theorem queue_modPos (p : PosId) (f : Position → Position) (s : State) : QueueStep s (s.modPos p f) := .of_eq rfl rfl

theorem queue_modLink (l : LinkId) (f : Link → Link) (s : State) : QueueStep s (s.modLink l f) := .of_eq rfl rfl

theorem queue_links (v : Tab Link 6) (s : State) : QueueStep s { s with links := v } := .of_eq rfl rfl

theorem queue_begin (o : Option LinkId) (s : State) : QueueStep s (s.begin o) := .of_eq rfl rfl

theorem queue_modLine {f : Line → Line} (h : ∀ r, (f r).camp = r.camp) (L : LineId) (s : State) :
    QueueStep s (s.modLine L f) := .of_camps rfl fun M => by
  rw [modLine_lines, Tab.get_modify]
  split
  · rename_i hM
    rw [h, hM]
  · rfl

/-! ## Requests (R3, R149, R181) -/

theorem queue_respond {s : State} {x : State × Response} (h : QueueStep s x.1) (l : LinkId) (kind : Byte) :
    QueueStep s (respond l kind x) := h.trans (QueueStep.of_eq rfl rfl)

theorem queue_done {s t : State} (h : QueueStep s t) (body : List Byte) : QueueStep s (done body t).1 := h

theorem queue_violate (l : LinkId) (kind : ReqKind) (r : Result) (n : Named) (s : State) :
    QueueStep s (violate l kind r n s) := by
  refine QueueStep.trans ?_ (kept_submit _ _).queueStep
  exact QueueStep.ite (.of_eq rfl rfl) (.refl s)

/-- A request keeps the queues when its owner does: the tests of R181 change none of them. -/
theorem queue_takeRequest {owner : State → State × Response} (h : ∀ s, QueueStep s (owner s).1) (l : LinkId)
    (kind : ReqKind) (wf : Bool) (n : Named) (s : State) : QueueStep s (takeRequest l kind wf n owner s) := by
  have hb : QueueStep s (s.begin (some l)) := QueueStep.of_eq rfl rfl
  refine queue_respond ?_ l _
  unfold decideRequest
  split
  · split
    · exact hb
    · split
      · exact hb.trans (queue_violate _ _ _ _ _)
      · split
        · exact hb.trans (queue_violate _ _ _ _ _)
        · exact hb.trans (h _)
  · exact hb

theorem queue_positionRequest {f : PosId → State → State × Response} (h : ∀ p s, QueueStep s (f p s).1) (l : LinkId)
    (kind : ReqKind) (wf : Bool) (t : PosTests) (p : Byte) (n : Named) (s : State) :
    QueueStep s (positionRequest l kind wf t p n f s) := by
  refine queue_takeRequest (fun s => ?_) l kind wf _ s
  unfold posTests
  split
  · exact .refl s
  · split
    · exact .refl s
    · split
      · exact .refl s
      · exact h _ s

/-- The same of an owner that is one of the shared operations. -/
theorem queue_takeKept {owner : State → State × Response} (h : ∀ s, Kept s (owner s).1) (l : LinkId) (kind : ReqKind)
    (wf : Bool) (n : Named) (s : State) : QueueStep s (takeRequest l kind wf n owner s) :=
  queue_takeRequest (fun s => (h s).queueStep) l kind wf n s

theorem queue_positionKept {f : PosId → State → State × Response} (h : ∀ p s, Kept s (f p s).1) (l : LinkId)
    (kind : ReqKind) (wf : Bool) (t : PosTests) (p : Byte) (n : Named) (s : State) :
    QueueStep s (positionRequest l kind wf t p n f s) :=
  queue_positionRequest (fun p s => (h p s).queueStep) l kind wf t p n s

/-! ## The owners of position requests -/

theorem queue_closePosition (p : PosId) (s : State) : QueueStep s (closePosition p s) :=
  ((kept_endCallState .atOnce p .closed s).trans (kept_releaseHolds p .closed _)).queueStep.trans (queue_modPos p _ _)

/-- A camp queue with room gains a position that is not in it (R63). -/
theorem CampOk.append {r : Line} (h : CampOk r) {p : PosId} (hp : p ∉ r.camp) (hl : r.camp.length < 8) :
    CampOk { r with camp := r.camp ++ [p] } where
  capacity := by simpa using hl
  noneTwice := List.nodup_append_comm.mp (List.nodup_cons.mpr ⟨hp, h.noneTwice⟩)

theorem queue_campTake (L : LineId) (p : PosId) (s : State) : QueueStep s (campTake L p s).1 := by
  unfold campTake
  dsimp only
  split
  · exact .refl s
  · rename_i hp
    split
    · exact .refl s
    · rename_i hl
      refine ⟨id, fun k M => ?_⟩
      rw [modLine_lines, Tab.get_modify]
      split
      · exact (k L).append (by simpa using hp) (not_le.mp hl)
      · exact k M

theorem queue_holderTake (L : LineId) (p : PosId) (e : Endpoint) (f : TakeFlags) (s : State) :
    QueueStep s (holderTake L p e f s).1 := by
  unfold holderTake
  split
  · split
    · exact queue_campTake L p s
    · exact .refl s
  · split
    · exact .refl s
    · split
      · exact (kept_commitTake _ _ _ _ _ _ _).queueStep
      · exact .refl s

theorem queue_decideTake (L : LineId) (p : PosId) (e : Endpoint) (f : TakeFlags) (s : State) :
    QueueStep s (decideTake L p e f s).1 := by
  unfold decideTake
  split
  · exact (kept_monitorTake L p e f.park s).queueStep
  · split
    · split
      · exact .refl s
      · exact (kept_moveTake _ _ _ _ _ _).queueStep
    · exact queue_holderTake L p e f s

theorem queue_lineTake (l : LinkId) (ep line flags : Byte) (p : PosId) (s : State) :
    QueueStep s (lineTake l ep line flags p s).1 := by
  unfold lineTake
  dsimp only
  split
  · split
    · exact .refl s
    · split
      · exact .refl s
      · split
        · exact queue_violate _ _ _ _ s
        · exact queue_decideTake _ _ _ _ s
  · exact .refl s

theorem kept_lineDrop (ep : Byte) (p : PosId) (s : State) : Kept s (lineDrop ep p s).1 := by
  unfold lineDrop
  split
  · exact Kept.refl s
  · exact Kept.refl s
  · split
    · exact Kept.refl s
    · exact kept_endMonitor _ _ _ s
    · exact kept_dropHolder _ _ _ _ s
    all_goals exact Kept.refl s

theorem kept_linePark (ep : Byte) (p : PosId) (s : State) : Kept s (linePark ep p s).1 := by
  unfold linePark
  split
  · exact Kept.refl s
  · exact Kept.refl s
  · split
    · exact kept_parkHolder _ _ _ s
    · exact Kept.refl s

theorem kept_lineSignal (line : Byte) (p : PosId) (s : State) : Kept s (lineSignal line p s).1 := by
  unfold lineSignal
  split
  · exact Kept.refl s
  · split
    · exact Kept.refl s
    · split
      · exact Kept.refl s
      · exact ((kept_modGen _ _ _).trans (kept_submit _ _))

theorem kept_campCancel (line : Byte) (p : PosId) (s : State) : Kept s (campCancel line p s).1 := by
  unfold campCancel
  split
  · exact Kept.refl s
  · dsimp only
    split
    · exact Kept.refl s
    · split
      · exact kept_campRemove _ _ _ s
      · exact kept_removeCamp _ _ s

theorem queue_setKey (p : PosId) (k : KeyId) (arg : KeyArg) (n : Nat) (sd : Side) (pr : Bool) (s : State) :
    QueueStep s (setKey p k arg n sd pr s) := by
  rw [setKey_eq]
  exact (kept_keyReady p k arg s).queueStep.trans (QueueStep.of_eq rfl rfl)

theorem queue_hootKeyCheck {l : LinkId} {p : PosId} {b : BridgeId} {s : State} {x : State × Response}
    (h : hootKeyCheck l p b s = some x) : QueueStep s x.1 := by
  unfold hootKeyCheck at h
  split at h
  · cases h
    exact .refl s
  · split at h <;> cases h
    exact queue_violate _ _ _ _ s

theorem queue_keyCheck {l : LinkId} {p : PosId} {k : KeyId} {arg : KeyArg} {s : State} {x : State × Response}
    (h : keyCheck l p k arg s = some x) : QueueStep s x.1 := by
  unfold keyCheck at h
  dsimp only at h
  split at h
  · cases h
  · split at h <;> cases h
    exact .refl s
  · split at h
    · cases h
      exact queue_hootKeyCheck ‹_›
    · split at h
      · cases h
        exact .refl s
      · split at h <;> cases h
        exact .refl s

theorem queue_keySet (l : LinkId) (key code bridge : Byte) (level : Half) (side priority : Byte) (p : PosId)
    (s : State) : QueueStep s (keySet l key code bridge level side priority p s).1 := by
  unfold keySet
  split
  · split
    · exact .refl s
    · split
      · exact queue_keyCheck ‹_›
      · exact queue_setKey _ _ _ _ _ _ s
  · exact .refl s

theorem kept_applyGain (x : SourceId) (gain : Nat) (v : Option Half) (s : State) :
    Kept s (applyGain x gain v s) := (kept_setGain x gain s).ite (Kept.refl s)

theorem queue_levelSet (f : LevelFields) (p : PosId) (s : State) : QueueStep s (levelSet f p s).1 := by
  unfold levelSet
  split
  · exact .refl s
  · have hgain (x : SourceId) (gain : Nat) (v : Option Half) (u : State) : QueueStep u (applyGain x gain v u) :=
      (kept_applyGain x gain v u).queueStep
    refine QueueStep.trans ?_ (hgain _ _ _ _)
    refine QueueStep.trans ?_ (hgain _ _ _ _)
    exact (queue_modPos _ _ _).trans (hgain _ _ _ _)

theorem kept_grantTalk {b : BridgeId} {p : PosId} {h : Hoot} {s : State} (hh : s.hoots.get b = some h)
    (hslot : h.granted.length < h.slots) (hp : p ∉ h.talkers) (k : KeyId) : Kept s (grantTalk b p k s) :=
  (Kept.refl s).grantTalk b p k fun _ g hg => by
    cases hh.symm.trans hg
    exact ⟨hslot, hp⟩

/-- A talk is granted or queued where a slot or an entry is open, to a position with no talk on the hoot (R126). -/
theorem queue_hootTalk {b : BridgeId} {h : Hoot} {s : State} (hh : s.hoots.get b = some h) (l : LinkId) (p : PosId)
    (k : KeyId) : QueueStep s (hootTalk l b p k h s).1 := by
  unfold hootTalk
  split
  · exact queue_violate _ _ _ _ s
  · split
    · exact .refl s
    · rename_i htalk
      have hp : p ∉ h.talkers := talkStateOf_eq_none.mp (not_not.mp htalk)
      split
      · exact .refl s
      · split
        · exact ((kept_grantTalk hh ‹_› hp k).trans (kept_evalClash _ _)).queueStep
        · split
          · exact (kept_queueTalk hh ‹_› hp).queueStep
          · exact .refl s

theorem kept_lineTalk (p : PosId) (k : KeyId) (L : LineId) (s : State) : Kept s (lineTalk p k L s).1 := by
  unfold lineTalk
  split
  · exact Kept.refl s
  · split
    · exact Kept.refl s
    · split
      · exact Kept.refl s
      · split
        · exact kept_startLineTalk _ _ _ _ s
        · exact Kept.refl s

theorem queue_talkOn (l : LinkId) (key : Byte) (p : PosId) (s : State) : QueueStep s (talkOn l key p s).1 := by
  unfold talkOn
  split
  · exact .refl s
  · split
    · exact (kept_lineTalk _ _ _ s).queueStep
    · split
      · exact queue_hootTalk ‹_› l p _
      · exact .refl s
    · exact .refl s

theorem kept_talkOff (key : Byte) (p : PosId) (s : State) : Kept s (talkOff key p s).1 := by
  unfold talkOff
  split
  · exact Kept.refl s
  · exact kept_stopTalk _ _ s

/-! ## The owners of intercom requests -/

theorem kept_dial (p : PosId) (e : Endpoint) (q : PosId) (mode : CallMode) (s : State) :
    Kept s (dial p e q mode s).1 := by
  unfold dial
  split
  · exact Kept.refl s
  · split
    · exact Kept.refl s
    · split
      · exact Kept.refl s
      · exact kept_commitDial _ _ _ _ _ _ s

theorem queue_dialCheck {l : LinkId} {p : PosId} {e : Endpoint} {q : PosId} {s : State} {x : State × Response}
    (h : dialCheck l p e q s = some x) : QueueStep s x.1 := by
  unfold dialCheck at h
  split at h
  · cases h
    exact queue_violate _ _ _ _ s
  · split at h
    · cases h
      exact .refl s
    · split at h
      · cases h
        exact .refl s
      · split at h
        · cases h
          exact .refl s
        · split at h <;> cases h
          exact .refl s

theorem queue_icmDial (l : LinkId) (ep target mode : Byte) (p : PosId) (s : State) :
    QueueStep s (icmDial l ep target mode p s).1 := by
  unfold icmDial
  split
  · exact .refl s
  · split
    · split
      · exact queue_dialCheck ‹_›
      · exact (kept_dial _ _ _ _ s).queueStep
    · exact .refl s

theorem queue_groupCall (l : LinkId) (p : PosId) (e : Endpoint) (g : GroupId) (mode : CallMode) (s : State) :
    QueueStep s (groupCall l p e g mode s).1 := by
  unfold groupCall
  split
  · exact queue_violate _ _ _ _ s
  · split
    · exact .refl s
    · split
      · exact .refl s
      · dsimp only
        split
        · exact .refl s
        · exact (kept_commitGroup _ _ _ _ _ _ s).queueStep

theorem queue_icmGroup (l : LinkId) (ep group mode : Byte) (p : PosId) (s : State) :
    QueueStep s (icmGroup l ep group mode p s).1 := by
  unfold icmGroup
  split
  · exact .refl s
  · split
    · exact queue_groupCall _ _ _ _ _ s
    · exact .refl s

theorem kept_icmPickup (ep choice : Byte) (q : PosId) (s : State) : Kept s (icmPickup ep choice q s).1 := by
  unfold icmPickup
  split
  · exact Kept.refl s
  · split
    · exact Kept.refl s
    · split
      · exact Kept.refl s
      · split
        · exact Kept.refl s
        · split
          · exact Kept.refl s
          · exact ((kept_pickupWaiting _ _ _ s).ite (kept_answer _ _ _ s))

theorem kept_icmHangup (p : PosId) (s : State) : Kept s (icmHangup p s).1 :=
  (kept_leaveCall p .own false s)

/-! ## Permissions (R143 to R146) -/

theorem queue_commitPermits (p : PosId) (kind : ReqKind) (f : PermParts) (s : State) :
    QueueStep s (commitPermits p kind f s) :=
  (Kept.each (kept_permitPart p kind _ _) _ _).queueStep.of_start rfl rfl

theorem queue_narrow (l : LinkId) (f : PermParts) (p : PosId) (s : State) : QueueStep s (narrow l f p s).1 := by
  unfold narrow
  split
  · exact .refl s
  · split
    · exact queue_violate _ _ _ _ s
    · exact queue_commitPermits _ _ _ s

theorem queue_grant (p : Byte) (f : PermParts) (s : State) : QueueStep s (grant p f s).1 := by
  unfold grant
  split
  · exact .refl s
  · split
    · exact .refl s
    · exact queue_commitPermits _ _ _ s

/-! ## The owners of requests of class ADMIN -/

theorem queue_restartDetector (L : LineId) (s : State) : QueueStep s (restartDetector L s) := .of_eq rfl rfl

theorem queue_defineLine (L : LineId) (f : LineFields) (c : LineCodes) (s : State) :
    QueueStep s (defineLine L f c s) := by
  refine QueueStep.trans ?_ (kept_enterState _ _ _ _).queueStep
  refine QueueStep.trans ?_ (queue_restartDetector _ _)
  exact (queue_modLine (f := storeLine f c) (fun _ => rfl) L s).trans (kept_modGen _ L _).queueStep

theorem queue_lineDefine (line : Byte) (f : LineFields) (s : State) : QueueStep s (lineDefine line f s).1 := by
  unfold lineDefine
  split
  · split
    · exact .refl s
    · split
      · exact .refl s
      · exact queue_defineLine _ _ _ s
  · exact .refl s

/-- The leg list is none of what R120 bounds. -/
theorem HootOk.withLegs {h : Hoot} (k : HootOk h) (legs : List Leg) : HootOk { h with legs := legs } :=
  ⟨k.slots, k.queue, k.noneTwice⟩

theorem kept_dropLeg (b : BridgeId) (x : Leg) (s : State) : Kept s (dropLeg b x s) :=
  ((kept_leave b (lineSource x.line) s).ite (Kept.refl s)).trans (kept_modHoot _ b _ fun _ k => k.withLegs _)

theorem kept_regainLeg (b : BridgeId) (x : LineId × Nat) (s : State) : Kept s (regainLeg b x s) :=
  (kept_setLeg _ _ _ _).trans (kept_setGainOn _ _ _ _)

theorem kept_addLeg (b : BridgeId) (x : LineId × Nat) (s : State) : Kept s (addLeg b x s) := by
  have h : Kept s (s.modHoot b fun h => { h with legs := h.legs ++ [⟨x.1, x.2, false⟩] }) :=
    kept_modHoot s b _ fun _ k => k.withLegs _
  exact (h.trans (kept_joinLeg _ _ _)).ite h

theorem kept_replaceLegs (b : BridgeId) (old : List Leg) (new : List (LineId × Nat)) (s : State) :
    Kept s (replaceLegs b old new s) :=
  ((Kept.each (kept_dropLeg b) _ s).trans (.each (kept_regainLeg b) _ _)).trans (.each (kept_addLeg b) _ _)

theorem kept_openHoot (b : BridgeId) (s : State) : Kept s (openHoot b s) := by
  unfold openHoot
  split
  · exact Kept.refl s
  · refine (kept_claimBridge _ _ _ _ s).trans (kept_setHoot _ b _ fun _ r hr => ?_)
    cases hr
    exact ⟨Nat.zero_le _, Nat.zero_le _, List.nodup_nil⟩

/-- A hoot without talk keeps to any number of talk slots (R120). -/
theorem HootOk.of_noTalk {h : Hoot} (hg : h.granted = []) (hq : h.queue = []) : HootOk h := by
  refine ⟨?_, ?_, ?_⟩ <;> simp [Hoot.talkers, hg, hq]

/-- The hoot that a definition opens, or finds without talk (R121). -/
theorem openHoot_noTalk {b : BridgeId} {s : State}
    (hs : ∀ h, s.hoots.get b = some h → h.granted = [] ∧ h.queue = []) {h : Hoot}
    (hh : (openHoot b s).hoots.get b = some h) : h.granted = [] ∧ h.queue = [] := by
  unfold openHoot at hh
  split at hh
  · exact hs h hh
  · rw [setHoot_hoots, Tab.get_set_self] at hh
    cases hh
    exact ⟨rfl, rfl⟩

theorem kept_defineHoot {b : BridgeId} {s : State} (hs : ∀ h, s.hoots.get b = some h → h.granted = [] ∧ h.queue = [])
    (f : HootFields) (a : HootArgs) : Kept s (defineHoot b f a s) := by
  have h : Kept s ((openHoot b s).modHoot b (storeHoot f a)) := by
    cases hh : (openHoot b s).hoots.get b with
    | none => exact (kept_openHoot b s).trans (kept_modHootAt fun h hb => by simp [hh] at hb)
    | some h =>
      obtain ⟨hg, hq⟩ := openHoot_noTalk hs hh
      exact (kept_openHoot b s).trans (kept_modHootAt fun g hb => by
        cases hh.symm.trans hb
        exact HootOk.of_noTalk hg hq)
  refine Kept.trans ?_ (kept_timerAsk _ _ _ _)
  split
  · exact h.trans (kept_replaceLegs _ _ _ _)
  · exact h

/-- A hoot with talk is not defined again (R121 check 3). -/
theorem hootCheck_noTalk {s : State} {b : BridgeId} {legs : List (LineId × Nat)} (hc : hootCheck s b legs = none)
    {h : Hoot} (hh : s.hoots.get b = some h) : h.granted = [] ∧ h.queue = [] := by
  have htalk : (!h.granted.isEmpty || !h.queue.isEmpty) = false := by
    refine Bool.eq_false_iff.mpr fun ht => ?_
    unfold hootCheck at hc
    rw [hh] at hc
    cases hu : (s.bridges.get b).use with
    | line L =>
      rw [hu] at hc
      cases hc
    | icm =>
      rw [hu] at hc
      cases hc
    | free =>
      rw [hu] at hc
      dsimp only at hc
      rw [if_pos ht] at hc
      exact absurd hc (by split <;> simp)
    | hoot =>
      rw [hu] at hc
      dsimp only at hc
      rw [if_pos ht] at hc
      exact absurd hc (by split <;> simp)
  rw [Bool.or_eq_false_iff, Bool.not_eq_false', Bool.not_eq_false'] at htalk
  exact ⟨List.isEmpty_iff.mp htalk.1, List.isEmpty_iff.mp htalk.2⟩

theorem kept_hootDefine (bridge : Byte) (f : HootFields) (s : State) : Kept s (hootDefine bridge f s).1 := by
  unfold hootDefine
  split
  · split
    · exact Kept.refl s
    · exact kept_defineHoot (fun _ hh => hootCheck_noTalk ‹_› hh) f _
  · exact Kept.refl s

theorem kept_removeHoot (b : BridgeId) (s : State) : Kept s (removeHoot b s) := by
  refine Kept.trans ?_ (kept_dropBridge _ _)
  refine Kept.trans ?_ (kept_setHoot _ b none fun _ _ hr => by cases hr)
  exact (Kept.each (kept_clearKey b) _ s).trans (.each (kept_dropLeg b) _ _)

theorem kept_hootRemove (bridge : Byte) (s : State) : Kept s (hootRemove bridge s).1 := by
  unfold hootRemove
  split
  · exact Kept.refl s
  · split
    · exact Kept.refl s
    · split
      · exact Kept.refl s
      · exact kept_removeHoot _ s

theorem queue_groupDefine (group : Byte) (members : List Byte) (s : State) :
    QueueStep s (groupDefine group members s).1 := by
  unfold groupDefine
  split
  · split
    · exact .refl s
    · exact .of_eq rfl rfl
  · exact .refl s

theorem queue_setRoutes (m : BitVec 192) (r : Route) (s : State) : QueueStep s (setRoutes m r s) :=
  .of_camps rfl fun L => by
    simp only [setRoutes, Tab.get_mapIdx]
    split <;> rfl

theorem queue_watchSet (m : BitVec 192) (route : Byte) (s : State) : QueueStep s (watchSet m route s).1 := by
  unfold watchSet
  split
  · exact .refl s
  · exact queue_setRoutes _ _ s

theorem queue_vadSet (cls : Byte) (f : VadFields) (s : State) : QueueStep s (vadSet cls f s).1 := by
  unfold vadSet
  split
  · exact .of_eq rfl rfl
  · exact .of_eq rfl rfl
  · exact .refl s

theorem queue_icmPolicy (policy : Option Byte) (alertS : Option Half) (s : State) :
    QueueStep s (icmPolicy policy alertS s).1 := by
  unfold icmPolicy
  split
  · exact .refl s
  · exact .of_eq rfl rfl

theorem kept_forceDrop (line : Byte) (s : State) : Kept s (forceDrop line s).1 := by
  unfold forceDrop
  split
  · exact Kept.refl s
  · split
    · exact Kept.refl s
    · exact kept_teardownLine _ _ s

theorem kept_bridgeJoin (bridge line : Byte) (gain : Half) (s : State) :
    Kept s (bridgeJoin bridge line gain s).1 := by
  unfold bridgeJoin
  split
  · split
    · split
      · exact Kept.refl s
      · split
        · exact Kept.refl s
        · split
          · exact Kept.refl s
          · split
            · exact Kept.refl s
            · exact kept_conferenceJoin _ _ _ s
    · exact Kept.refl s
  · exact Kept.refl s

theorem kept_bridgeLeave (bridge line : Byte) (s : State) : Kept s (bridgeLeave bridge line s).1 := by
  unfold bridgeLeave
  split
  · split
    · exact kept_leaveConference _ _ s
    · exact Kept.refl s
  · exact Kept.refl s

end

end Sys2Proof.Machine

namespace Sys2Proof.Machine
open Sys2Proof

section

/-! # The whole part, events and commands keep the queues (R63, R120) -/

/-! ## PART_CLEAR (R189) -/

theorem queue_clearAll (s : State) : QueueStep s (clearAll s) := by
  have calls : Kept s (clearCalls s) := Kept.each (fun c t => kept_endCall c adminEnding t) _ s
  have talks : Kept s (clearHoots (clearCalls s)) := calls.trans (Kept.each kept_clearTalk _ _)
  have lines := talks.trans (Kept.each kept_clearLine (ids 192) _)
  refine QueueStep.trans ?_ (queue_links _ _)
  exact ((lines.trans (kept_clearRest _)).trans (kept_submit _ _)).queueStep

/-! ## The detail log and the links -/

theorem queue_throttle (s : State) : QueueStep s (throttle s) := by
  rw [throttle_eq]
  exact .of_eq rfl rfl

theorem queue_setLevel (v : LogLevel) (s : State) : QueueStep s (setLevel v s) := .of_eq rfl rfl

theorem queue_leaveLost (s : State) : QueueStep s (leaveLost s) := by
  refine QueueStep.trans ?_ (queue_throttle _)
  refine QueueStep.trans ?_ (queue_setLevel _ _)
  exact .of_eq rfl rfl

theorem queue_reevaluate (s : State) : QueueStep s (reevaluate s) := by
  unfold reevaluate
  split
  · exact queue_throttle s
  · exact QueueStep.ite (queue_setLevel _ s) (.refl s)
  · exact QueueStep.ite (queue_leaveLost s) (.refl s)

theorem queue_logLimits (hw lw : Option Half) (s : State) : QueueStep s (logLimits hw lw s).1 :=
  (queue_reevaluate (s.modLog (storeLimits hw lw))).of_start rfl rfl

theorem queue_logRead (n : Half) (s : State) : QueueStep s (logRead n s).1 :=
  (queue_reevaluate (s.modLog (takeBatch (min (readCountOf n) s.log.fill)))).of_start rfl rfl

theorem queue_clearLatch (m : LinkId) (s : State) : QueueStep s (clearLatch m s) :=
  QueueStep.ite ((kept_submit _ _).queueStep.of_start rfl rfl) (.refl s)

theorem queue_latchClear (l : LinkId) (target : Byte) (s : State) : QueueStep s (latchClear l target s).1 := by
  unfold latchClear
  split
  · exact .refl s
  · exact .refl s
  · exact queue_clearLatch _ s
  · split
    · exact queue_violate _ _ _ _ s
    · exact queue_clearLatch _ s

theorem queue_readObject (target id option : Byte) (s : State) : QueueStep s (readObject target id option s).1 := by
  unfold readObject
  split
  · exact .refl s
  · exact QueueStep.ite (.of_eq rfl rfl) (.refl s)

/-! ## Highways (R15, R83, R84, R194, R195) -/

theorem queue_resetSignalling (L : LineId) (s : State) : QueueStep s (resetSignalling L s) := .of_eq rfl rfl

theorem queue_endLines (n : HwId) (s : State) : QueueStep s (endLines n s) := by
  refine QueueStep.trans ?_ (Kept.each kept_legDown _ _).queueStep
  exact (Kept.each kept_lineDown _ s).queueStep.trans (.each queue_resetSignalling _ _)

theorem queue_posHighwayDown (n : HwId) (s : State) : QueueStep s (posHighwayDown n s) := by
  refine QueueStep.trans ?_ (kept_settleClash s _).queueStep
  exact (kept_endPositions n _).queueStep.of_start rfl rfl

theorem queue_posHighwayUp (n : HwId) (s : State) : QueueStep s (posHighwayUp n s) := .of_eq rfl rfl

theorem queue_lineHighwayDown (n : HwId) (s : State) : QueueStep s (lineHighwayDown n s) := by
  refine QueueStep.trans ?_ (kept_settleClash s _).queueStep
  exact (queue_endLines n _).of_start rfl rfl

theorem queue_lineHighwayUp (n : HwId) (s : State) : QueueStep s (lineHighwayUp n s) := by
  refine QueueStep.trans ?_ (kept_settleClash s _).queueStep
  refine QueueStep.trans ?_ (Kept.each kept_legUp _ _).queueStep
  refine QueueStep.trans ?_ (QueueStep.each queue_restartDetector _ _)
  exact (Kept.each kept_lineUp _ _).queueStep.of_start rfl rfl

theorem queue_syncLost (s : State) : QueueStep s (syncLost s) := by
  rw [syncLost_eq]
  refine QueueStep.trans ?_ (kept_settleClash s _).queueStep
  refine QueueStep.trans ?_ (Kept.each kept_endPositions _ _).queueStep
  exact (QueueStep.each queue_endLines _ (syncGone s)).of_start rfl rfl

/-! ## Activity (R37, R39, R51) -/

theorem queue_raiseActivity (x : SourceId) (started : Bool) (s : State) :
    QueueStep s (raiseActivity x started s) := by
  refine QueueStep.trans ?_ (Kept.each (kept_hootActivity x started) _ _).queueStep
  have hrec := (kept_recordActivity x started (detectorTurned x started s)).queueStep.of_start (s := s) rfl rfl
  exact hrec.trans (.of_eq rfl rfl)

/-! ## Ring events (R88 to R95) -/

theorem queue_signallingSample (heard : HwId → Bool) (bits : BitVec 192) (s : State) :
    QueueStep s (signallingSample heard bits s) :=
  QueueStep.of_start (.inFreeOrder (fun (x : LineId × Bool) t => (kept_deliverRing x.1 x.2 t).queueStep) _ _) rfl rfl

theorem queue_armDetector (L : LineId) (s : State) : QueueStep s (armDetector L s) := .ite (.of_eq rfl rfl) (.refl s)

theorem queue_endBurst (L : LineId) (s : State) : QueueStep s (endBurst L s) := .ite (.of_eq rfl rfl) (.refl s)

theorem queue_raiseRing (L : LineId) (s : State) : QueueStep s (raiseRing L s) :=
  .ite ((kept_deliverRing L true _).queueStep.of_start rfl rfl) (.refl s)

theorem queue_endRing (L : LineId) (s : State) : QueueStep s (endRing L s) :=
  .ite ((kept_deliverRing L false _).queueStep.of_start rfl rfl) (.refl s)

/-! ## Frames (R192) -/

theorem queue_detect (x : Tab Half 336) (s : State) : QueueStep s (detect x s) := .of_eq rfl rfl

theorem queue_mixFrame (x : Tab Half 336) (s : State) : QueueStep s (mixFrame x s) := .of_eq rfl rfl

theorem queue_advanceCount (s : State) : QueueStep s (advanceCount s) := .of_eq rfl rfl

theorem queue_checkSlots (f : InFrame) (s : State) : QueueStep s (checkSlots f s) := .of_eq rfl rfl

theorem queue_takeFrameEvent (heard : HwId → Bool) (bits : BitVec 192) (e : FrameEvent) (s : State) :
    QueueStep s (takeFrameEvent heard bits e s) := by
  refine (queue_begin none s).trans ?_
  cases e with
  | activity x started => exact queue_raiseActivity _ _ _
  | sample => exact queue_signallingSample _ _ _
  | position n up => exact QueueStep.ite (queue_posHighwayUp _ _) (queue_posHighwayDown _ _)
  | line n up => exact QueueStep.ite (queue_lineHighwayUp _ _) (queue_lineHighwayDown _ _)

theorem queue_framePulse (f : InFrame) (s : State) : QueueStep s (framePulse f s) := by
  refine QueueStep.trans ?_ (QueueStep.inFreeOrder (queue_takeFrameEvent _ _) _ _)
  refine QueueStep.trans ?_ (queue_checkSlots _ _)
  refine QueueStep.trans ?_ (queue_advanceCount _)
  refine QueueStep.trans ?_ (queue_detect _ _)
  exact (queue_mixFrame _ _).of_start rfl rfl

/-! ## Timers (R40, R71 to R79, R114, R134, R162) -/

theorem queue_takeExpiry (e : Expiry) (s : State) : QueueStep s (takeExpiry e s) := by
  refine QueueStep.ite ((queue_begin none s).trans ?_) (.refl s)
  cases e with
  | line L => exact (kept_lineExpires _ _).queueStep
  | bridge b => exact (kept_idleExpires _ _).queueStep
  | talk b p => exact (kept_talkExpires _ _ _).queueStep
  | call c => exact (kept_callExpires _ _).queueStep
  | sync => exact queue_syncLost _

/-- A talk-idle timer is none of what R120 bounds. -/
theorem HootOk.counted {h : Hoot} (k : HootOk h) (f : Option Nat → Option Nat) :
    HootOk { h with granted := h.granted.map fun t => { t with timer := f t.timer } } where
  slots := by simpa using k.slots
  queue := k.queue
  noneTwice := by simpa [Hoot.talkers, Function.comp_def] using k.noneTwice

theorem queue_countAll (s : State) : QueueStep s (countAll s) where
  hoots k b h hh := by
    simp only [countAll, Tab.get_map] at hh
    obtain ⟨g, hg, rfl⟩ := Option.map_eq_some_iff.mp hh
    exact (k b g hg).counted countDown
  camps k L := by
    have hr : (countAll s).lines.get L = { s.lines.get L with
        timer := (s.lines.get L).timer.map fun t => { t with remaining := t.remaining - 1 } } := by simp [countAll]
    rw [hr]
    exact ⟨(k L).capacity, (k L).noneTwice⟩

theorem queue_tick (s : State) : QueueStep s (tick s) :=
  QueueStep.trans (queue_countAll s) (QueueStep.of_start (.inFreeOrder queue_takeExpiry _ _) rfl rfl)

/-! ## Commands -/

theorem queue_powerOnState (s : State) : QueueStep s (powerOnState s) where
  hoots _ b h hh := by simp [powerOnState, State.reset] at hh
  camps _ L := by
    have hr : (powerOnState s).lines.get L = Line.reset := by simp [powerOnState, State.reset]
    rw [hr]
    exact ⟨Nat.zero_le 8, List.nodup_nil⟩

/-- An outcome that is a next state keeps the queues. -/
def KeepsQueues (s : State) (o : Outcome) : Prop := ∀ t, o = .next t → QueueStep s t

theorem QueueStep.next {s t : State} (h : QueueStep s t) : KeepsQueues s (.next t) := fun u hu => by
  cases hu
  exact h

theorem queue_execNoticeRead (l : LinkId) (n : Half) (s : State) : KeepsQueues s (execNoticeRead l n s) :=
  QueueStep.next (QueueStep.trans (queue_takeRequest (fun s => queue_modLink l _ s) _ _ _ _ _) (queue_modLink l _ _))

/-- Every request keeps the queues, taken whole. -/
theorem queue_request {i : Instr} (h : (kindOf i).isSome) (s : State) : KeepsQueues s (exec i s) := by
  cases i with
  | noticeRead l n => exact queue_execNoticeRead l n s
  | noticeMask l m => exact (queue_takeRequest (fun s => queue_modLink l _ s) _ _ _ _ s).next
  | query l t i o => exact (queue_takeRequest (queue_readObject t i o) _ _ _ _ s).next
  | linkReset l => exact (queue_takeRequest (fun s => queue_modLink l _ s) _ _ _ _ s).next
  | latchClear l t => exact (queue_takeRequest (queue_latchClear l t) _ _ _ _ s).next
  | posOpen l p => exact (queue_positionRequest (fun p s => queue_modPos p _ s) _ _ _ _ _ _ s).next
  | posClose l p => exact (queue_positionRequest (fun p s => queue_done (queue_closePosition p s) _) _ _ _ _ _ _ s).next
  | lineTake l p e n f => exact (queue_positionRequest (queue_lineTake l e n f) _ _ _ _ _ _ s).next
  | lineDrop l p e => exact (queue_positionKept (kept_lineDrop e) _ _ _ _ _ _ s).next
  | linePark l p e => exact (queue_positionKept (kept_linePark e) _ _ _ _ _ _ s).next
  | lineSignal l p n => exact (queue_positionKept (kept_lineSignal n) _ _ _ _ _ _ s).next
  | campCancel l p n => exact (queue_positionKept (kept_campCancel n) _ _ _ _ _ _ s).next
  | keySet l p k c b v d r => exact (queue_positionRequest (queue_keySet l k c b v d r) _ _ _ _ _ _ s).next
  | levelSet l p f => exact (queue_positionRequest (queue_levelSet f) _ _ _ _ _ _ s).next
  | talkOn l p k => exact (queue_positionRequest (queue_talkOn l k) _ _ _ _ _ _ s).next
  | talkOff l p k => exact (queue_positionKept (kept_talkOff k) _ _ _ _ _ _ s).next
  | icmDial l p e t m => exact (queue_positionRequest (queue_icmDial l e t m) _ _ _ _ _ _ s).next
  | icmGroup l p e g m => exact (queue_positionRequest (queue_icmGroup l e g m) _ _ _ _ _ _ s).next
  | icmPickup l p e c => exact (queue_positionKept (kept_icmPickup e c) _ _ _ _ _ _ s).next
  | icmHangup l p => exact (queue_positionKept kept_icmHangup _ _ _ _ _ _ s).next
  | narrow l p f => exact (queue_positionRequest (queue_narrow l f) _ _ _ _ _ _ s).next
  | lineDefine l n f => exact (queue_takeRequest (queue_lineDefine n f) _ _ _ _ s).next
  | hootDefine l b f => exact (queue_takeKept (kept_hootDefine b f) _ _ _ _ s).next
  | hootRemove l b => exact (queue_takeKept (kept_hootRemove b) _ _ _ _ s).next
  | groupDefine l g ps => exact (queue_takeRequest (queue_groupDefine g ps) _ _ _ _ s).next
  | grant l p f => exact (queue_takeRequest (queue_grant p f) _ _ _ _ s).next
  | watchSet l m r => exact (queue_takeRequest (queue_watchSet m r) _ _ _ _ s).next
  | vadSet l c f => exact (queue_takeRequest (queue_vadSet c f) _ _ _ _ s).next
  | logLimits l hw lw => exact (queue_takeRequest (queue_logLimits hw lw) _ _ _ _ s).next
  | icmPolicy l p a => exact (queue_takeRequest (queue_icmPolicy p a) _ _ _ _ s).next
  | timeSet l v => exact (queue_takeRequest (fun s => .of_eq rfl rfl) _ _ _ _ s).next
  | forceDrop l n => exact (queue_takeKept (kept_forceDrop n) _ _ _ _ s).next
  | partClear l => exact (queue_takeRequest (fun s => queue_done (queue_clearAll s) _) _ _ _ _ s).next
  | bridgeJoin l b n g => exact (queue_takeKept (kept_bridgeJoin b n g) _ _ _ _ s).next
  | bridgeLeave l b n => exact (queue_takeKept (kept_bridgeLeave b n) _ _ _ _ s).next
  | logRead l n => exact (queue_takeRequest (queue_logRead n) _ _ _ _ s).next
  | logReadAgain l n => exact (queue_takeRequest QueueStep.refl _ _ _ _ s).next
  | logStatus l => exact (queue_takeRequest QueueStep.refl _ _ _ _ s).next
  | gapClear l => exact (queue_takeRequest (fun s => .of_eq rfl rfl) _ _ _ _ s).next
  | _ => cases h

theorem queue_runRequest (i : Instr) (s : State) : KeepsQueues s (runRequest i s) := by
  cases h : (kindOf i).isSome with
  | true =>
    rw [runRequest_eq_exec h]
    exact queue_request h s
  | false =>
    rw [runRequest_eq_next h]
    exact (QueueStep.refl s).next

theorem queue_takeFrame (l : LinkId) (frame : List Byte) (s : State) : KeepsQueues s (takeFrame l frame s) := by
  unfold takeFrame
  split
  · exact queue_runRequest _ s
  · exact (queue_respond (x := (s.begin (some l), .bare .malformed)) (queue_begin _ s) _ _).next

theorem KeepsQueues.of_start {s s' : State} {o : Outcome} (h : KeepsQueues s' o) (hs : QueueStep s s') : KeepsQueues s o :=
  fun t ht => hs.trans (h t ht)

theorem queue_receiveByte (l : LinkId) (byte : Byte) (s : State) : KeepsQueues s (receiveByte l byte s) := by
  unfold receiveByte
  dsimp only
  split
  · exact (queue_takeFrame _ _ _).of_start (queue_modLink _ _ s)
  · exact (queue_modLink _ _ s).next

theorem queue_execByteClocked (l : LinkId) (byte : Byte) (s : State) : KeepsQueues s (execByteClocked l byte s) := by
  have hb : QueueStep s (s.begin none) := queue_begin none s
  refine KeepsQueues.of_start ?_ hb
  unfold execByteClocked
  dsimp only
  split
  · exact (QueueStep.refl _).next
  · exact queue_receiveByte _ _ _
  · exact (queue_modLink _ _ _).next
  · exact (queue_modLink _ _ _).next
  · exact (queue_modLink _ _ _).next

/-- An event keeps the queues when its effect does. -/
theorem queue_event {f : State → State} (h : ∀ s, QueueStep s (f s)) (s : State) :
    KeepsQueues s (.next (f (s.begin none))) := ((queue_begin none s).trans (h _)).next

/-- Every command keeps the queues: a request by its owner, a byte by the request that it completes, an event by
its effect. -/
theorem queue_exec (i : Instr) (s : State) : KeepsQueues s (exec i s) := by
  cases i with
  | powerOn => exact (queue_powerOnState s).next
  | reset => exact (queue_powerOnState s).next
  | chipSelectAsserted l => exact queue_event (queue_modLink l _) s
  | chipSelectDeasserted l => exact queue_event (queue_modLink l _) s
  | malformed l kind => exact (queue_respond (x := (s.begin (some l), .bare .malformed)) (queue_begin _ s) _ _).next
  | frameSyncPulse f => exact queue_event (queue_framePulse f) s
  | frameSyncAbsent => exact queue_event queue_syncLost s
  | activityStart x => exact queue_event (fun t => (QueueStep.refl t).ite (queue_raiseActivity x true t)) s
  | activityEnd x => exact queue_event (fun t => (queue_raiseActivity x false t).ite (.refl t)) s
  | positionHighwayDown n => exact queue_event (fun t => (queue_posHighwayDown n t).ite (.refl t)) s
  | positionHighwayUp n => exact queue_event (fun t => (QueueStep.refl t).ite (queue_posHighwayUp n t)) s
  | lineHighwayDown n => exact queue_event (fun t => (queue_lineHighwayDown n t).ite (.refl t)) s
  | lineHighwayUp n => exact queue_event (fun t => (QueueStep.refl t).ite (queue_lineHighwayUp n t)) s
  | signallingSample bits => exact queue_event (queue_signallingSample _ bits) s
  | detectorArmed L => exact queue_event (queue_armDetector L) s
  | inboundBurstEnd L => exact queue_event (queue_endBurst L) s
  | ringStart L => exact queue_event (queue_raiseRing L) s
  | ringEnd L => exact queue_event (queue_endRing L) s
  | guardExpiry L => exact queue_event (fun t => (kept_guardExpires L t).queueStep) s
  | offerExpiry L => exact queue_event (fun t => (kept_offerExpires L t).queueStep) s
  | alertExpiry L => exact queue_event (fun t => (kept_alertExpires L t).queueStep) s
  | recallExpiry L => exact queue_event (fun t => (kept_recallExpires L t).queueStep) s
  | bridgeIdle b => exact queue_event (fun t => (kept_idleExpires b t).queueStep) s
  | talkIdleExpiry b p => exact queue_event (fun t => (kept_talkExpires b p t).queueStep) s
  | icmAlertExpiry c => exact queue_event (fun t => (kept_callExpires c t).queueStep) s
  | outboundBurstEnd L => exact queue_event (fun t => (kept_modGen t L _).queueStep) s
  | byteClocked l byte => exact queue_execByteClocked l byte s
  | millisecondTick => exact queue_event queue_tick s
  | _ => exact queue_request rfl s


end

/-- Settles O17: every operation keeps the hoots and the camp queues, and `queue_exec` reads it off for each command. -/
theorem queuesKept : Obligations.QueuesKept := by
  have hstep (s t : State) (ht : step s = .next t) : QueueStep s t := by
    unfold step at ht
    split at ht
    · cases ht
      exact .refl s
    · rename_i c rest _
      have hq : QueueStep s { s with pending := rest } := .of_eq rfl rfl
      exact (queue_exec c _).of_start hq t ht
  exact ⟨fun s t hs ht => (hstep s t ht).hoots hs, fun s t hs ht => (hstep s t ht).camps hs⟩

end Sys2Proof.Machine

namespace Sys2Proof.Machine
open Sys2Proof

section

/-! # What the operations of talk change, write and tell (R127 to R136)

An operation of talk concerns one bridge, that of a hoot or of a line. It changes four tables and the contributors of
that bridge; what else it does is write records and send notices. `TalkStep` has one rule for each operation. -/

/-- The tables that the operations of talk change, the channels released so far, and the contributors of the bridge that
is talked on. -/
structure TalkTables where
  positions : Tab Position 48
  hoots : Tab (Option Hoot) 96
  channels : Tab (Option Channel) 64
  released : List ChanId
  entries : List Contrib

def State.talkTables (s : State) (b : BridgeId) : TalkTables :=
  ⟨s.positions, s.hoots, s.channels, s.released, (s.bridges.get b).contributors⟩

/-- From `s` on, only those tables, bridge `b`, the log and the links have changed: the tables are `v` now, the time base
stands, and what was written and told is as in `u`. -/
structure TalkStep (b : BridgeId) (s : State) (v : TalkTables) (u t : State) : Prop where
  only : { t with positions := s.positions, bridges := s.bridges, hoots := s.hoots, channels := s.channels,
                  log := s.log, links := s.links, released := s.released } = s
  elsewhere : ∀ d, d ≠ b → t.bridges.get d = s.bridges.get d
  use : (t.bridges.get b).use = (s.bridges.get b).use
  tables : t.talkTables b = v
  time : t.log.time = s.log.time
  told : ToldAlike u t

theorem talkStep_start {b : BridgeId} {s u : State} (h : ToldAlike u s) : TalkStep b s (s.talkTables b) u s :=
  ⟨rfl, fun _ _ => rfl, rfl, rfl, rfl, h⟩

theorem talkStep_begin (b : BridgeId) (s : State) (o : Option LinkId) :
    TalkStep b (s.begin o) ((s.begin o).talkTables b) s (s.begin o) := talkStep_start (toldAlike_begin s o)

section
variable {b : BridgeId} {s u t : State} {v : TalkTables}

theorem TalkStep.frame (h : TalkStep b s v u t) : t.frame = s.frame := (congrArg State.frame h.only :)
theorem TalkStep.lines (h : TalkStep b s v u t) : t.lines = s.lines := (congrArg State.lines h.only :)
theorem TalkStep.timeValid (h : TalkStep b s v u t) : t.timeValid = s.timeValid := (congrArg State.timeValid h.only :)
theorem TalkStep.detectors (h : TalkStep b s v u t) : t.detectors = s.detectors := (congrArg State.detectors h.only :)
theorem TalkStep.posHw (h : TalkStep b s v u t) : t.posHw = s.posHw := (congrArg State.posHw h.only :)
theorem TalkStep.positions (h : TalkStep b s v u t) : t.positions = v.positions := congrArg TalkTables.positions h.tables
theorem TalkStep.hoots (h : TalkStep b s v u t) : t.hoots = v.hoots := congrArg TalkTables.hoots h.tables
theorem TalkStep.channels (h : TalkStep b s v u t) : t.channels = v.channels := congrArg TalkTables.channels h.tables
theorem TalkStep.released (h : TalkStep b s v u t) : t.released = v.released := congrArg TalkTables.released h.tables
theorem TalkStep.entries (h : TalkStep b s v u t) : (t.bridges.get b).contributors = v.entries :=
  congrArg TalkTables.entries h.tables

theorem TalkStep.binding (h : TalkStep b s v u t) (p : PosId) (e : Endpoint) :
    t.binding p e = (v.positions.get p).binding e := by rw [State.binding, h.positions]

theorem TalkStep.active (h : TalkStep b s v u t) (x : SourceId) : t.active x = s.active x := by
  rw [State.active, State.active, h.detectors]

theorem TalkStep.posUp (h : TalkStep b s v u t) (p : PosId) : t.posUp p = s.posUp p := by
  rw [State.posUp, State.posUp, h.posHw]

/-- Everything else is as before the request that began the step. -/
theorem TalkStep.rest {s : State} {o : Option LinkId} (h : TalkStep b (s.begin o) v u t) :
    { t with positions := s.positions, bridges := s.bridges, hoots := s.hoots, channels := s.channels, log := s.log,
             links := s.links, origin := s.origin, released := s.released } = s :=
  (congrArg (fun w : State => { w with origin := s.origin, released := s.released }) h.only :)

/-- And the hoots, when none has changed. -/
theorem TalkStep.rest_hoots {s : State} {o : Option LinkId} (h : TalkStep b (s.begin o) v u t) (hv : v.hoots = s.hoots) :
    { t with positions := s.positions, bridges := s.bridges, channels := s.channels, log := s.log, links := s.links,
             origin := s.origin, released := s.released } = s := by
  refine Eq.trans ?_ h.rest
  rw [← hv, ← h.hoots]

theorem entries_ne_of_has {x : SourceId} (h : (s.bridges.get b).has x = false) :
    ∀ c ∈ (s.talkTables b).entries, c.source ≠ x := by
  simpa [Bridge.has, State.talkTables] using h

/-! ## Changes of the tables -/

theorem TalkStep.modPos (h : TalkStep b s v u t) (p : PosId) (f : Position → Position) :
    TalkStep b s { v with positions := v.positions.modify p f } u (t.modPos p f) :=
  ⟨h.only, h.elsewhere, h.use, congrArg (fun v : TalkTables => { v with positions := v.positions.modify p f }) h.tables,
    h.time, h.told.quiet rfl rfl rfl⟩

theorem TalkStep.setHoot (h : TalkStep b s v u t) (r : Option Hoot) :
    TalkStep b s { v with hoots := v.hoots.set b r } u (t.setHoot b r) :=
  ⟨h.only, h.elsewhere, h.use, congrArg (fun v : TalkTables => { v with hoots := v.hoots.set b r }) h.tables,
    h.time, h.told.quiet rfl rfl rfl⟩

theorem TalkStep.modHoot (h : TalkStep b s v u t) {r : Hoot} (hr : v.hoots.get b = some r) (f : Hoot → Hoot) :
    TalkStep b s { v with hoots := v.hoots.set b (some (f r)) } u (t.modHoot b f) := by
  rw [modHoot_eq_setHoot (h.hoots ▸ hr)]
  exact h.setHoot _

theorem TalkStep.setChan (h : TalkStep b s v u t) (c : ChanId) (r : Option Channel) :
    TalkStep b s { v with channels := v.channels.set c r } u (t.setChan c r) :=
  ⟨h.only, h.elsewhere, h.use, congrArg (fun v : TalkTables => { v with channels := v.channels.set c r }) h.tables,
    h.time, h.told.quiet rfl rfl rfl⟩

/-- A change of the bridge that is talked on. -/
theorem TalkStep.onBridge (h : TalkStep b s v u t) {t' : State} (honly : { t' with bridges := t.bridges } = t)
    (hother : ∀ d, d ≠ b → t'.bridges.get d = t.bridges.get d) (huse : (t'.bridges.get b).use = (t.bridges.get b).use) :
    TalkStep b s { v with entries := (t'.bridges.get b).contributors } u t' where
  only := by
    refine Eq.trans ?_ h.only
    rw [← honly]
  elsewhere d hd := (hother d hd).trans (h.elsewhere d hd)
  use := huse.trans h.use
  tables := by
    rw [← h.tables]
    exact (congrArg (fun w : State => TalkTables.mk w.positions w.hoots w.channels w.released
      (t'.bridges.get b).contributors) honly :)
  time := (congrArg (fun w : State => w.log.time) honly :).trans h.time
  told := h.told.quiet (congrArg State.log honly :) (congrArg State.links honly :) (congrArg State.frame honly :)

/-! ## Sources (R22, R23, R24) -/

/-- The MIC leaves the bridge. -/
theorem TalkStep.leave (h : TalkStep b s v u t) (x : SourceId) :
    TalkStep b s { v with entries := v.entries.filter fun y => y.source ≠ x } u (Machine.leave b x t) := by
  have hleft := h.onBridge (t' := Machine.leave b x t) rfl (fun d hd => (talkFrame_leave b x t).bridges d hd)
    (leave_use b b x t)
  rwa [leave_contributors, h.entries] at hleft

/-- A MIC that does not stand on the bridge joins it, where there is room, with its gain and no shift. -/
theorem TalkStep.joinMic (h : TalkStep b s v u t) {p : PosId} (hfree : ∀ c ∈ v.entries, c.source ≠ micSource p)
    (hroom : v.entries.length < 12) :
    TalkStep b s { v with entries := v.entries ++ [⟨micSource p, min (v.positions.get p).gainMIC 4095, 0, .owner⟩] } u
      (joinEndpoint p .mic b 0 t) := by
  have hjoined := h.onBridge (joinEndpoint_only p .mic b t 0) (fun d hd => joinEndpoint_bridges p .mic b t hd 0)
    (joinEndpoint_use p .mic b t b 0)
  have hhas : (t.bridges.get b).has (micSource p) = false := by
    simpa [Bridge.has, h.entries] using hfree
  have hentries : ((joinEndpoint p .mic b 0 t).bridges.get b).contributors =
      v.entries ++ [⟨micSource p, min (v.positions.get p).gainMIC 4095, 0, .owner⟩] := by
    rw [← h.entries, ← h.positions]
    exact join_contributors hhas (h.entries ▸ hroom) _ _ _
  rwa [hentries] at hjoined

/-- The shift of the entries that `sel` picks is set (R24, R136). -/
theorem TalkStep.setShift (h : TalkStep b s v u t) (sel : SourceId → Bool) (n : Nat) :
    TalkStep b s
      { v with entries := v.entries.map fun c => if sel c.source then { c with shift := min n 12 } else c } u
      (Machine.setShift b sel n t) := by
  have hset := h.onBridge (t' := Machine.setShift b sel n t) rfl
    (fun d hd => (talkFrame_setShift b sel n t).bridges d hd) (by simp [Machine.setShift])
  have hentries : ((Machine.setShift b sel n t).bridges.get b).contributors =
      v.entries.map fun c => if sel c.source then { c with shift := min n 12 } else c := by
    simp [Machine.setShift, h.entries]
  rwa [hentries] at hset

/-! ## Bindings -/

theorem TalkStep.bindMic (h : TalkStep b s v u t) (p : PosId) (k : KeyId) :
    TalkStep b s { v with positions := v.positions.modify p fun r => { r with mic := .talk k } } u
      (bind p .mic (.talk k) t) := h.modPos p _

/-- A MIC in use is unbound without a notice (R8). -/
theorem TalkStep.unbindMic (h : TalkStep b s v u t) {p : PosId} (hm : (v.positions.get p).mic ≠ .none) :
    TalkStep b s { v with positions := v.positions.modify p fun r => { r with mic := .none } } u
      (unbind p .mic .none t) := by
  have hbound : t.binding p .mic ≠ .none := (h.binding p .mic).symm ▸ hm
  have hunbind : unbind p .mic .none t = t.modPos p fun r => { r with mic := .none } := by
    unfold unbind
    exact (if_neg hbound).trans (if_pos rfl)
  rw [hunbind]
  exact h.modPos p _

/-! ## Records and notices -/

theorem TalkStep.submit (h : TalkStep b s v u t) (r : Record) :
    TalkStep b s v (Machine.submit r u) (Machine.submit r t) where
  only := by
    rw [submit_eq]
    exact h.only
  elsewhere d hd := by rw [submit_bridges, h.elsewhere d hd]
  use := by rw [submit_bridges, h.use]
  tables := by
    rw [submit_eq]
    exact h.tables
  time := (submit_time r t).trans h.time
  told := h.told.submit r

theorem TalkStep.post (h : TalkStep b s v u t) {dest dest' : LinkId → Bool} (hd : dest' = dest) (n : Notice) :
    TalkStep b s v (Machine.post dest n u) (Machine.post dest' n t) :=
  ⟨h.only, h.elsewhere, h.use, h.tables, h.time, h.told.post hd n⟩

theorem TalkStep.postPos (h : TalkStep b s v u t) (p : PosId) (n : Notice) :
    TalkStep b s v (Machine.post (posRoute s [p]) n u) (Machine.postPos p n t) :=
  h.post (posRoute_of_frame h.frame _) n

theorem TalkStep.postMany (h : TalkStep b s v u t) (ps : List PosId) (n : Notice) :
    TalkStep b s v (Machine.post (posRoute s ps) n u) (Machine.postMany ps n t) :=
  h.post (posRoute_of_frame h.frame _) n

/-- The response is of the link's own transaction (R180). -/
theorem TalkStep.respond (h : TalkStep b s v u t) (l : LinkId) (kind : Byte) (r : Response) :
    TalkStep b s v u (Machine.respond l kind (t, r)) :=
  ⟨h.only, h.elsewhere, h.use, h.tables, h.time, h.told.log, h.told.time, h.told.notices.respond l kind⟩

/-! ## Recording (R129, R155, R156, R161) -/

/-- The channel that endpoint `e` of `p` holds once it is bound: the lowest FREE one that the request has not released,
where one is wanted, and what it holds otherwise. -/
def channelFor (t : State) (wants : Bool) (p : PosId) (e : Endpoint) (ch : Option ChanId) : Prop :=
  if wants then channelAt t p e = none ∧ freeChannel t = ch else channelAt t p e = ch

theorem channelFor_begin {s : State} {wants : Bool} {p : PosId} {e : Endpoint} {ch : Option ChanId}
    (h : getsChannel s wants p e ch) (o : Option LinkId) : channelFor (s.begin o) wants p e ch := by
  cases wants with
  | true => exact ⟨h.1, freeChannel_begin h.2 o⟩
  | false => exact Eq.symm h

theorem freeChannel_congr {s t : State} (hc : t.channels = s.channels) (hr : t.released = s.released) :
    freeChannel t = freeChannel s := by simp only [freeChannel, hc, hr]

theorem channelFor_congr {s t : State} {wants : Bool} {p : PosId} {e : Endpoint} {ch : Option ChanId}
    (h : channelFor s wants p e ch) (hc : t.channels = s.channels) (hr : t.released = s.released) :
    channelFor t wants p e ch := by
  unfold channelFor
  rwa [channelAt_of_channels hc, freeChannel_congr hc hr]

/-- The binding is recorded where it is to be: a channel ASSIGNED, or UNRECORDED written (R156, R163). -/
theorem TalkStep.recorded (h : TalkStep b s v u t) {wants : Bool} {p : PosId} {e : Endpoint} {ch : Option ChanId}
    (hch : channelFor t wants p e ch) (key : Option KeyId) (c : BridgeId) (line : Option LineId)
    (hoot : Option BridgeId) {t' : State} (ht' : t' = if wants then assign p e key c line hoot t else t) :
    TalkStep b s { v with channels := withChannel s wants ch (p, e) key c v.channels }
        (noteUnrecorded wants ch (unrecorded p e key c line hoot) u) t' ∧ channelAt t' p e = ch := by
  subst ht'
  cases wants with
  | false => exact ⟨by cases ch <;> exact h, hch⟩
  | true =>
    obtain ⟨hnone, hfree⟩ := hch
    simp only [if_true, assign, hfree]
    cases ch with
    | none => exact ⟨h.submit _, (channelAt_of_channels (submit_channels _ t) p e).trans hnone⟩
    | some d =>
      have hsince : since t = if s.timeValid then some s.log.time else none := by rw [since, h.time, h.timeValid]
      rw [hsince]
      exact ⟨h.setChan d _, channelAt_of_set hnone rfl rfl rfl⟩

/-- The channel of an endpoint goes FREE. -/
theorem TalkStep.releaseChan (h : TalkStep b s v u t) (hc : v.channels = s.channels) (p : PosId) (e : Endpoint) :
    TalkStep b s { v with channels := freedChannels s (p, e), released := v.released ++ (channelAt s p e).toList } u
      (Machine.releaseChan p e t) := by
  have hat : channelAt t p e = channelAt s p e := channelAt_of_channels (h.channels.trans hc) p e
  unfold Machine.releaseChan freedChannels
  rw [hat, ← hc]
  cases channelAt s p e with
  | none => simpa using h
  | some d =>
    exact ⟨h.only, h.elsewhere, h.use, congrArg (fun v : TalkTables => { v with
      channels := v.channels.set d none, released := v.released ++ [d] }) h.tables, h.time, h.told.quiet rfl rfl rfl⟩

theorem releaseChan_channels (p : PosId) (e : Endpoint) (s : State) :
    (Machine.releaseChan p e s).channels = freedChannels s (p, e) := by
  unfold Machine.releaseChan freedChannels
  cases channelAt s p e <;> rfl

theorem releaseChan_released (p : PosId) (e : Endpoint) (s : State) :
    (Machine.releaseChan p e s).released = s.released ++ (channelAt s p e).toList := by
  unfold Machine.releaseChan
  cases channelAt s p e <;> simp

/-- A channel released in a request is not FREE for it, so that the same one is the lowest FREE one (R156). -/
theorem freeChannel_releaseChan (p : PosId) (e : Endpoint) (s : State) :
    freeChannel (Machine.releaseChan p e s) = freeChannel s := by
  unfold Machine.releaseChan
  cases hat : channelAt s p e with
  | none => rfl
  | some d =>
    obtain ⟨y, hy, -⟩ := channelAt_some hat
    unfold freeChannel
    congr 1
    funext c
    by_cases hcd : c = d
    · subst hcd
      simp [hy]
    · simp [hcd]

/-- The other endpoints keep their channels (R154). -/
theorem channelAt_releaseChan {p q : PosId} {e f : Endpoint} (hne : ¬(q = p ∧ f = e)) (s : State) :
    channelAt (Machine.releaseChan p e s) q f = channelAt s q f := by
  unfold Machine.releaseChan
  cases hat : channelAt s p e with
  | none => rfl
  | some d =>
    obtain ⟨y, hy, hyp, hye⟩ := channelAt_some hat
    unfold channelAt
    congr 1
    funext c
    by_cases hcd : c = d
    · subst hcd
      have hy' : ¬(y.pos = q ∧ y.endpoint = f) := fun ⟨hq, hf⟩ => hne ⟨hq.symm.trans hyp, hf.symm.trans hye⟩
      simpa [hy] using hy'
    · simp [hcd]

theorem channelFor_releaseChan {wants : Bool} {p q : PosId} {e f : Endpoint} {ch : Option ChanId} {s : State}
    (h : channelFor s wants q f ch) (hne : ¬(q = p ∧ f = e)) :
    channelFor (Machine.releaseChan p e s) wants q f ch := by
  unfold channelFor
  rwa [channelAt_releaseChan hne, freeChannel_releaseChan]

end

end

end Sys2Proof.Machine

namespace Sys2Proof.Machine
open Sys2Proof

section

/-! # TALK_ON on a key that holds a line (R129) -/

/-- TALK_ON reaches its owner from an OPEN position whose highway is UP (R3, R181). -/
theorem exec_talkOn {l : LinkId} {p : PosId} {s : State} (hmay : mayTake s l .talkOn (some p))
    (ho : (s.positions.get p).isOpen = true) (hu : s.posUp p = true) (k : KeyId) :
    exec (.talkOn l (idByte p) (idByte k)) s = .next (respond l (BitVec.ofNat 8 ReqKind.talkOn.code)
      (talkOn l (idByte k) p (s.begin (some l)))) :=
  congrArg Host.Outcome.next (positionRequest_owner hmay _ (fun _ => ho) (fun _ => hu) _ _)

theorem freeAnswer_free {s : State} {p : PosId} {e : Endpoint} (ho : (s.positions.get p).isOpen = true)
    (hu : s.posUp p = true) (hb : s.binding p e = .none) : freeAnswer s p e = none := by
  simp [freeAnswer, placeAnswer, ho, hu, hb]

theorem freeAnswer_inUse {s : State} {p : PosId} {e : Endpoint} (ho : (s.positions.get p).isOpen = true)
    (hu : s.posUp p = true) (hb : s.binding p e ≠ .none) : freeAnswer s p e = some .inUse := by
  simp [freeAnswer, placeAnswer, ho, hu, hb]

/-- A request that its owner leaves without effect changes the links alone, and queues no notice. -/
theorem refused_only (s : State) (l : LinkId) (kind : Byte) (r : Response) :
    onlyLinks s (respond l kind (s.begin (some l), r)) ∧ noNotice s (respond l kind (s.begin (some l), r)) :=
  ⟨rfl, (noNotice.refl s).respond (x := (s.begin (some l), r)) l kind⟩

section
variable {b : BridgeId} {s u t : State} {v : TalkTables} {p : PosId} {k : KeyId} {L : LineId} {ch : Option ChanId}

/-- A line talk committed: the MIC talks and joins, the key is recorded where the line asks for it, TALK_GRANT is
written and the position told (R129). -/
theorem TalkStep.startLineTalk (h : TalkStep b s v u t) (hfree : ∀ c ∈ v.entries, c.source ≠ micSource p)
    (hroom : v.entries.length < 12) {wants : Bool}
    (hwants : wants = ((channelAt t p (.key k)).isNone && (t.lines.get L).policy = .record))
    (hch : channelFor t wants p (.key k) ch) :
    TalkStep b s { v with
        positions := v.positions.modify p fun r => { r with mic := .talk k }
        channels := withChannel s wants ch (p, .key k) none b v.channels
        entries := v.entries ++ [⟨micSource p, min (v.positions.get p).gainMIC 4095, 0, .owner⟩] }
      (Machine.post (posRoute s [p]) (.talkState none k .granted false .none)
        (Machine.submit { lineTalkRecord .talkGrant p k L b with channel := ch }
          (noteUnrecorded wants ch (unrecorded p (.key k) none b (some L) none) u)))
      (Machine.startLineTalk p k L b t) ∧ channelAt (Machine.startLineTalk p k L b t) p (.key k) = ch := by
  have hjoined := (h.bindMic p k).joinMic hfree hroom
  simp only [Tab.get_modify_self] at hjoined
  generalize hx : joinEndpoint p .mic b 0 (bind p .mic (.talk k) t) = x at hjoined
  have hchannels : x.channels = t.channels := by
    rw [← hx]
    simp
  have hreleased : x.released = t.released := by
    rw [← hx]
    simp
  have hlines : x.lines = t.lines := by
    rw [← hx]
    simp
  have hrecord : recordLineTalk p k L b x = if wants then assign p (.key k) none b (some L) none x else x := by
    rw [hwants, ← hlines, ← channelAt_of_channels hchannels p (.key k)]
    rfl
  obtain ⟨hrecorded, hat⟩ := hjoined.recorded (channelFor_congr hch hchannels hreleased) none b (some L) none hrecord
  have hstart : Machine.startLineTalk p k L b t = Machine.postPos p (.talkState none k .granted false .none)
      (Machine.submit { lineTalkRecord .talkGrant p k L b with channel := ch } (recordLineTalk p k L b x)) := by
    rw [← hat, ← hx]
    rfl
  rw [hstart]
  exact ⟨(hrecorded.submit _).postPos p _, (channelAt_of_channels (by simp) p _).trans hat⟩

theorem talkOn_line {l : LinkId} (hb : s.binding p (.key k) = .holder L) :
    talkOn l (idByte k) p s = lineTalk p k L s := by
  simp only [talkOn, keyOf_idByte, hb]

theorem lineTalk_talking (hm : (s.positions.get p).mic = .talk k) :
    lineTalk p k L s = done (lineTalkBody s p k) s := if_pos (decide_eq_true hm)

theorem lineTalk_starts (hm : (s.positions.get p).mic = .none) (ho : (s.positions.get p).isOpen = true)
    (hu : s.posUp p = true) (hb : (s.lines.get L).bridge = some b) (hroom : (s.bridges.get b).contributors.length < 12) :
    lineTalk p k L s = done (lineTalkBody (startLineTalk p k L b s) p k) (startLineTalk p k L b s) := by
  have htalk : talksOn s p k = false := by simp [talksOn, hm]
  have hfull : lineFull s L = false := by simp [lineFull, hb, Config.maxContributors, Nat.not_le.mpr hroom]
  simp [lineTalk, htalk, freeAnswer_free ho hu (e := .mic) hm, hfull, hb]
end

end

/-- Settles O38: the talk is refused nothing (`lineTalk_starts`), and its steps are those of `TalkStep.startLineTalk`. -/
theorem lineTalkOn : Obligations.LineTalkOn := by
  intro l p k L b ch s hmay ho hu hkey hb x wants hch
  have hexec := exec_talkOn hmay ho hu k
  rw [talkOn_line (s := s.begin (some l)) hkey] at hexec
  refine ⟨fun hm => ?_, fun hm hroom hfree => ?_⟩
  · rw [lineTalk_talking (s := s.begin (some l)) hm] at hexec
    obtain ⟨honly, hnote⟩ := refused_only s l (BitVec.ofNat 8 ReqKind.talkOn.code) ⟨.done, lineTalkBody s p k⟩
    exact ⟨_, hexec, honly, hnote, answered_respond ..⟩
  · rw [lineTalk_starts (s := s.begin (some l)) hm ho hu hb hroom] at hexec
    have hwants : wants = ((channelAt (s.begin (some l)) p (.key k)).isNone &&
        decide (((s.begin (some l)).lines.get L).policy = .record)) := by
      rw [Bool.eq_iff_iff]
      simp only [wants, decide_eq_true_eq, Bool.and_eq_true, Option.isNone_iff_eq_none]
      exact and_comm
    obtain ⟨hstep, hat⟩ := (talkStep_begin b s (some l)).startLineTalk (L := L)
      (entries_ne_of_has (s := s.begin (some l)) hfree) hroom hwants
      (channelFor_begin hch _)
    have hdone := hstep.respond l (BitVec.ofNat 8 ReqKind.talkOn.code) ⟨.done, bChan ch⟩
    rw [lineTalkBody, hat] at hexec
    refine ⟨_, hexec, answered_respond .., hdone.positions, hdone.elsewhere, hdone.use, hdone.entries,
      hdone.channels, hdone.told.log, hdone.told.notices, hdone.rest_hoots rfl⟩

end Sys2Proof.Machine

namespace Sys2Proof.Machine
open Sys2Proof

section

/-! # TALK_ON on a hoot (R126 to R128) -/

/-- A hoot with one talker more. -/
def Hoot.granting (h : Hoot) (g : Talker) : Hoot := { h with granted := h.granted ++ [g] }

/-- The TALK_GRANT record of a grant to `g`, with the channel that its MIC holds (R127 step 5). -/
def grantedRecord (b : BridgeId) (h : Hoot) (g : Talker) (ch : Option ChanId) : Record :=
  { kind := .talkGrant, hoot := some b, pos := some g.pos, endpoint := some .mic, key := some g.key, channel := ch,
    parties := some (h.granting g).parties }

/-- What is written and told of a grant to `g` (R127). -/
def grantTold (s : State) (b : BridgeId) (h : Hoot) (g : Talker) (ch : Option ChanId) (u : State) : State :=
  post (posRoute s [g.pos]) (.talkState (some b) g.key .granted false .none)
    (submit (grantedRecord b h g ch)
      (noteUnrecorded h.record ch (unrecorded g.pos .mic (some g.key) b none (some b)) u))

/-- The tables once `g` has its grant, with channel `ch` if one was wanted (R127). -/
def TalkTables.granting (s : State) (b : BridgeId) (h : Hoot) (g : Talker) (ch : Option ChanId) (v : TalkTables) :
    TalkTables where
  positions := v.positions.modify g.pos fun r => { r with mic := .talk g.key }
  hoots := v.hoots.set b (some (h.granting g))
  channels := withChannel s h.record ch (g.pos, .mic) (some g.key) b v.channels
  released := v.released
  entries := v.entries ++ [⟨micSource g.pos, min (v.positions.get g.pos).gainMIC 4095, 0, .owner⟩]

section
variable {b : BridgeId} {s u t : State} {v : TalkTables} {p : PosId} {k : KeyId} {h : Hoot} {ch : Option ChanId}

/-- The talker that a grant makes: its talk-idle timer runs while its MIC is QUIET (R134). -/
def newTalker (s : State) (h : Hoot) (p : PosId) (k : KeyId) : Talker := ⟨p, k, talkTimer s h p⟩

theorem newTalker_congr {s t : State} (ha : t.active (micSource p) = s.active (micSource p)) :
    newTalker t h p k = newTalker s h p k := by simp only [newTalker, talkTimer, ha]

theorem talkTimer_eq : talkTimer s h p =
    if s.active (micSource p) = true ∨ h.talkIdleS = 0 then none else some (1000 * h.talkIdleS) := by
  unfold talkTimer startIdle
  cases s.active (micSource p) <;> simp

/-- A grant on a hoot outside a clash (R127). -/
theorem TalkStep.grantTalk (hs : TalkStep b s v u t) (hh : v.hoots.get b = some h) (hcalm : h.clashing = false)
    (hfree : ∀ c ∈ v.entries, c.source ≠ micSource p) (hroom : v.entries.length < 12)
    (hch : channelFor t h.record p .mic ch) :
    TalkStep b s (v.granting s b h (newTalker s h p k) ch) (grantTold s b h (newTalker s h p k) ch u)
      (Machine.grantTalk b p k t) ∧ channelAt (Machine.grantTalk b p k t) p .mic = ch := by
  have hnew : newTalker t h p k = newTalker s h p k := newTalker_congr (hs.active _)
  have hget : t.hoots.get b = some h := hs.hoots ▸ hh
  have hshift : h.joinShift = 0 := by simp [Hoot.joinShift, hcalm]
  have hjoined := ((hs.bindMic p k).joinMic hfree hroom).setHoot (some (h.granting (newTalker s h p k)))
  simp only [Tab.get_modify_self] at hjoined
  generalize hx : (joinEndpoint p .mic b 0 (bind p .mic (.talk k) t)).setHoot b
    (some (h.granting (newTalker s h p k))) = x at hjoined
  have hchannels : x.channels = t.channels := by
    rw [← hx]
    simp
  have hreleased : x.released = t.released := by
    rw [← hx]
    simp
  obtain ⟨hrecorded, hat⟩ := hjoined.recorded (channelFor_congr hch hchannels hreleased) (some k) b none (some b)
    (t' := recordGrant b p k h x) rfl
  have hgrant : Machine.grantTalk b p k t = Machine.postPos p (.talkState (some b) k .granted h.clashing .none)
      (Machine.submit (grantedRecord b h (newTalker s h p k) ch) (recordGrant b p k h x)) := by
    unfold Machine.grantTalk
    rw [hget]
    simp only [hshift]
    rw [← hat, ← hx, ← hnew]
    rfl
  rw [hgrant, hcalm]
  exact ⟨(hrecorded.submit _).postPos p _, (channelAt_of_channels (by simp) p _).trans hat⟩

/-! ## The courses of TALK_ON (R126) -/

theorem talkOn_hoot {l : LinkId} (hb : s.binding p (.key k) = .listen b) (hh : s.hoots.get b = some h) :
    talkOn l (idByte k) p s = hootTalk l b p k h s := by
  simp only [talkOn, keyOf_idByte, hb, hh]

theorem hootTalk_already {l : LinkId} (hmay : s.mayTalk p b = true) (hp : p ∈ h.talkers) :
    hootTalk l b p k h s = done (bTalk (talkStateOf h p)) s := by
  have htalk : talkStateOf h p ≠ .none := fun e => talkStateOf_eq_none.mp e hp
  simp [hootTalk, hmay, htalk]

/-- A position without talk on the hoot, and with its MIC free, is granted, queued or refused by the slots (R127, R128). -/
theorem hootTalk_decided {l : LinkId} (hmay : s.mayTalk p b = true) (hp : p ∉ h.talkers)
    (ho : (s.positions.get p).isOpen = true) (hu : s.posUp p = true) (hm : (s.positions.get p).mic = .none) :
    hootTalk l b p k h s =
      if h.granted.length < h.slots then
        let t := evalClash b (grantTalk b p k s)
        (t, ⟨.granted, grantedBody t b p⟩)
      else if h.queue.length < 8 then (queueTalk b p k h s, ⟨.queued, b1 h.queue.length⟩)
      else refuse .full s := by
  have htalk : talkStateOf h p = .none := talkStateOf_eq_none.mpr hp
  simp only [hootTalk, hmay, htalk, freeAnswer_free ho hu (e := .mic) hm]
  rfl

/-- A QUIET MIC brings about no clash. -/
theorem clashCondition_granting {g : Talker} (hn : clashCondition s h = false)
    (hq : s.active (micSource g.pos) = false) : clashCondition s (h.granting g) = false := by
  simp only [clashCondition, Bool.and_eq_false_iff, Hoot.granting, List.any_append, List.any_cons, List.any_nil, hq,
    Bool.or_false] at hn ⊢
  exact hn

/-- Among those who wait, the position is the last (R128). -/
theorem TalkStep.queueTalk (hs : TalkStep b s v u t) :
    TalkStep b s { v with hoots := v.hoots.set b (some { h with queue := h.queue ++ [(p, k)] }) }
      (Machine.post (posRoute s [p]) (.talkState (some b) k (.queued h.queue.length) h.clashing .none) u)
      (Machine.queueTalk b p k h t) := (hs.setHoot _).postPos p _

theorem queueTalk_only : { queueTalk b p k h t with hoots := t.hoots, links := t.links } = t := rfl

end

end

/-- Settles O39: `hootTalk_decided` gives the courses; a grant is `TalkStep.grantTalk`, and no clash follows it. -/
theorem hootTalkOn : Obligations.HootTalkOn := by
  intro l p k b h s hmay ho hu htalk hkey hh x c
  have hexec := exec_talkOn hmay ho hu k
  rw [talkOn_hoot (s := s.begin (some l)) hkey hh] at hexec
  refine ⟨fun hp => ?_, fun hp hm => ?_⟩
  · rw [hootTalk_already (s := s.begin (some l)) htalk hp] at hexec
    obtain ⟨honly, hnote⟩ := refused_only s l (BitVec.ofNat 8 ReqKind.talkOn.code) ⟨.done, bTalk (talkStateOf h p)⟩
    exact ⟨_, hexec, honly, hnote, answered_respond ..⟩
  rw [hootTalk_decided (s := s.begin (some l)) htalk hp ho hu hm] at hexec
  refine ⟨fun ch hch hslot hquiet hcalm hnone hroom hfree => ?_, fun hslots hroom => ?_, fun hslots hfull => ?_⟩
  · rw [if_pos hslot] at hexec
    obtain ⟨hstep, hat⟩ := (talkStep_begin b s (some l)).grantTalk (k := k) hh hcalm
      (entries_ne_of_has (s := s.begin (some l)) hfree) hroom (channelFor_begin hch _)
    have hnew : newTalker (s.begin (some l)) h p k =
        ⟨p, k, if h.talkIdleS = 0 then none else some (1000 * h.talkIdleS)⟩ := by
      have hq : (s.begin (some l)).active (micSource p) = false := hquiet
      simp [newTalker, talkTimer_eq, hq]
    rw [hnew] at hstep
    generalize grantTalk b p k (s.begin (some l)) = t at hexec hstep hat
    generalize hg : (⟨p, k, if h.talkIdleS = 0 then none else some (1000 * h.talkIdleS)⟩ : Talker) = g at hstep
    have hget : t.hoots.get b = some (h.granting g) := by
      rw [hstep.hoots]
      exact Tab.get_set_self ..
    have hclash : evalClash b t = t := by
      refine evalClash_calm hget hcalm ?_
      rw [clashCondition_congr hstep.detectors]
      exact clashCondition_granting (s := s.begin (some l)) hnone (by rw [← hg]; exact hquiet)
    have hbody : grantedBody t b p = b2 (h.granting g).granted.length ++ [0#8] ++ bOpt (ch.map (·.val)) := by
      have hc : (h.granting g).clashing = false := hcalm
      simp only [grantedBody, hget, hc, hat]
      rfl
    simp only [hclash, hbody] at hexec
    have hdone := hstep.respond l (BitVec.ofNat 8 ReqKind.talkOn.code)
      ⟨.granted, b2 (h.granting g).granted.length ++ [0#8] ++ bOpt (ch.map (·.val))⟩
    subst hg
    exact ⟨_, hexec, answered_respond .., hdone.positions, hdone.hoots, hdone.elsewhere, hdone.entries, hdone.channels,
      hdone.told.log, hdone.told.notices, hdone.rest⟩
  · rw [if_neg (Nat.not_lt.mpr hslots), if_pos hroom] at hexec
    have hdone := (talkStep_begin b s (some l)).queueTalk (p := p) (k := k) (h := h) |>.respond l
      (BitVec.ofNat 8 ReqKind.talkOn.code) ⟨.queued, b1 h.queue.length⟩
    refine ⟨_, hexec, answered_respond .., hdone.hoots, hdone.told.notices, ?_⟩
    exact (congrArg (fun w : State => { w with origin := s.origin, released := s.released })
      (queueTalk_only (b := b) (p := p) (k := k) (h := h) (t := s.begin (some l))) :)
  · rw [if_neg (Nat.not_lt.mpr hslots), if_neg (Nat.not_lt.mpr hfull)] at hexec
    obtain ⟨honly, hnote⟩ := refused_only s l (BitVec.ofNat 8 ReqKind.talkOn.code) (.bare .full)
    exact ⟨_, hexec, honly, hnote, answered_respond ..⟩

end Sys2Proof.Machine

namespace Sys2Proof.Machine
open Sys2Proof

section

/-! # TALK_OFF (R130, R132, R133) -/

/-- TALK_OFF reaches its owner from an OPEN position (R3, R181), and shows the talk state of the key that it leaves. -/
theorem exec_talkOff {l : LinkId} {p : PosId} {s : State} (hmay : mayTake s l .talkOff (some p))
    (ho : (s.positions.get p).isOpen = true) {k : KeyId} {t : State} (ht : stopTalk p k (s.begin (some l)) = t) :
    exec (.talkOff l (idByte p) (idByte k)) s = .next (respond l (BitVec.ofNat 8 ReqKind.talkOff.code)
      (done (bTalk (keyTalk t p k)) t)) := by
  refine congrArg Host.Outcome.next ((positionRequest_owner hmay _ (fun _ => ho) (by simp) _ _).trans ?_)
  simp only [talkOff, keyOf_idByte, ht]

/-- The TALK_END record of a grant that a TALK_OFF ends (R130 step 5). -/
def talkOffRecord (s : State) (b : BridgeId) (p : PosId) (k : KeyId) (h : Hoot) : Record :=
  { kind := .talkEnd, hoot := some b, pos := some p, endpoint := some .mic, key := some k,
    channel := channelAt s p .mic, cause := some .none, parties := some (h.without p).parties }

/-- What is written and told of a grant that a TALK_OFF ends (R130). -/
def talkOffTold (s : State) (b : BridgeId) (p : PosId) (k : KeyId) (h : Hoot) (u : State) : State :=
  post (posRoute s [p]) (.talkState (some b) k .none h.clashing .none) (submit (talkOffRecord s b p k h) u)

/-- The tables once `p` has no grant (R130 steps 1 to 4). -/
def TalkTables.ungranting (s : State) (b : BridgeId) (p : PosId) (h : Hoot) (v : TalkTables) : TalkTables where
  positions := v.positions.modify p fun r => { r with mic := .none }
  hoots := v.hoots.set b (some (h.without p))
  channels := freedChannels s (p, .mic)
  released := v.released ++ (channelAt s p .mic).toList
  entries := v.entries.filter fun y => y.source ≠ micSource p

section
variable {b : BridgeId} {s u t : State} {v : TalkTables} {p : PosId} {k : KeyId} {h : Hoot} {g : Talker} {L : LineId}

/-- A line talk that ends by the position's own request (R132). -/
theorem TalkStep.endLineTalk (hs : TalkStep b s v u t) (hb : (s.lines.get L).bridge = some b)
    (hm : (v.positions.get p).mic = .talk k) :
    TalkStep b s { v with
        positions := v.positions.modify p fun r => { r with mic := .none }
        entries := v.entries.filter fun y => y.source ≠ micSource p }
      (Machine.post (posRoute s [p]) (.talkState none k .none false .none)
        (Machine.submit { lineTalkRecord .talkEnd p k L b with cause := some .none } u))
      (Machine.endLineTalk p k L .none .none t) := by
  have htalks : talksOn t p k = true := by
    rw [talksOn, hs.positions, hm]
    exact decide_eq_true rfl
  have hbridge : (t.lines.get L).bridge = some b := hs.lines ▸ hb
  have hend : Machine.endLineTalk p k L .none .none t = Machine.postPos p (.talkState none k .none false .none)
      (Machine.submit { lineTalkRecord .talkEnd p k L b with cause := some .none }
        (unbind p .mic .none (Machine.leave b (micSource p) t))) := by
    unfold Machine.endLineTalk
    rw [if_pos htalks, hbridge]
  rw [hend]
  exact (((hs.leave (micSource p)).unbindMic (by rw [hm]; simp)).submit _).postPos p _

/-- The steps of the end of a grant before the promotion (R130). -/
theorem TalkStep.ungranted (hs : TalkStep b s v u t) (hh : v.hoots.get b = some h) (hg : h.talker p = some g)
    (hm : (v.positions.get p).mic ≠ .none) (hc : v.channels = s.channels) :
    ∃ w, stopGrant b p .none t = promote b w ∧
      TalkStep b s (v.ungranting s b p h) (talkOffTold s b p g.key h u) w := by
  have hget : t.hoots.get b = some h := hs.hoots ▸ hh
  have hat : channelAt t p .mic = channelAt s p .mic := channelAt_of_channels (hs.channels.trans hc) p .mic
  have hgone := ((hs.setHoot (some (h.without p))).leave (micSource p)).unbindMic (p := p) hm
  have hfree := hgone.releaseChan hc p .mic
  refine ⟨_, ?_, (hfree.submit (talkOffRecord s b p g.key h)).postPos p (.talkState (some b) g.key .none h.clashing .none)⟩
  unfold stopGrant
  simp only [hget, hg, hat]
  rfl

/-- With an empty queue and no clash, nothing follows the end of a grant. -/
theorem endTalkOn_granted (hh : t.hoots.get b = some h) (hg : h.talker p = some g) :
    endTalkOn b p .none t = evalClash b (stopGrant b p .none t) := by
  simp [endTalkOn, endGrant, hh, hg]

theorem without_talkStateOf (hp : p ∉ h.queue.map (·.1)) : talkStateOf (h.without p) p = .none := by
  refine talkStateOf_eq_none.mpr fun hin => ?_
  rcases List.mem_append.mp hin with hg | hq
  · obtain ⟨y, hy, rfl⟩ := List.mem_map.mp hg
    simpa using (List.mem_filter.mp hy).2
  · exact hp hq

/-- A queue entry goes with TALK_STATE alone (R133). -/
theorem TalkStep.endQueued (hs : TalkStep b s v u t) (hh : v.hoots.get b = some h) (hq : h.queued p = some (p, k)) :
    TalkStep b s { v with hoots := v.hoots.set b (some { h with queue := h.queue.filter (· ≠ (p, k)) }) }
      (Machine.post (posRoute s [p]) (.talkState (some b) k .none h.clashing .none) u)
      (Machine.endQueued b p .none t) := by
  have hend : Machine.endQueued b p .none t = Machine.postPos p (.talkState (some b) k .none h.clashing .none)
      (t.modHoot b fun g => { g with queue := g.queue.filter (· ≠ (p, k)) }) := by
    unfold Machine.endQueued
    simp only [hs.hoots ▸ hh, hq]
    rfl
  rw [hend]
  exact (hs.modHoot hh fun g => { g with queue := g.queue.filter (· ≠ (p, k)) }).postPos p _

theorem endQueued_only (c : Cause) : { endQueued b p c t with hoots := t.hoots, links := t.links } = t := by
  unfold endQueued
  split
  · split <;> rfl
  · rfl

/-- With an empty queue and no clash, nothing follows the end of a grant (R130, R131, R135). -/
theorem TalkStep.endLastGrant (hs : TalkStep b s v u t) (hh : v.hoots.get b = some h) (hg : h.talker p = some g)
    (hm : (v.positions.get p).mic ≠ .none) (hc : v.channels = s.channels) (hq : h.queue = [])
    (hcalm : h.clashing = false) (hn : clashCondition s h = false) :
    TalkStep b s (v.ungranting s b p h) (talkOffTold s b p g.key h u) (endTalkOn b p .none t) := by
  obtain ⟨w, hstop, hw⟩ := hs.ungranted hh hg hm hc
  have hget : w.hoots.get b = some (h.without p) := by
    rw [hw.hoots]
    exact Tab.get_set_self ..
  have hcalmed : evalClash b w = w := by
    refine evalClash_calm hget hcalm ?_
    rw [clashCondition_congr hw.detectors]
    exact clashCondition_filter _ hn
  rwa [endTalkOn_granted (hs.hoots ▸ hh) hg, hstop, promote_empty hget hq, hcalmed]

/-! ## The talk state that TALK_OFF shows (R133) -/

theorem keyTalk_none (hb : s.binding p (.key k) = .none) : keyTalk s p k = .none := by simp [keyTalk, hb]

theorem keyTalk_line (hb : s.binding p (.key k) = .holder L) (hm : (s.positions.get p).mic ≠ .talk k) :
    keyTalk s p k = .none := by simp [keyTalk, hb, talksOn, hm]

theorem keyTalk_hoot (hb : s.binding p (.key k) = .listen b) (hh : s.hoots.get b = some h) (hp : talkStateOf h p = .none) :
    keyTalk s p k = .none := by simp [keyTalk, hb, hh, hp]

/-- A MIC use is none of a key's binding. -/
theorem binding_setMic {t' : Tab Position 48} {m : Binding} (ht : t.positions = t'.modify p fun r => { r with mic := m })
    (q : PosId) (j : KeyId) : t.binding q (.key j) = (t'.get q).binding (.key j) := by
  rw [State.binding, ht, Tab.get_modify]
  split
  · subst q
    rfl
  · rfl

end

end

/-- Settles O40: a line talk, a grant and a queue entry end by their own rules of `TalkStep`; nothing else changes. -/
theorem talkOffTaken : Obligations.TalkOffTaken := by
  intro l p k s hmay ho x c told quiet
  have hshown (t : State) (hk : keyTalk t p k = .none) : answered
      (respond l (BitVec.ofNat 8 ReqKind.talkOff.code) (done (bTalk (keyTalk t p k)) t)) l .talkOff .done
      [0#8, 0xFF#8] := by
    rw [hk]
    exact answered_respond ..
  refine ⟨fun hcase => ?_, fun L b hkey hm hb => ?_, fun b h g hkey hh hg hgk hm hq hcalm hn => ?_,
    fun b h hkey hh hg hq => ?_⟩
  · have hnothing : stopTalk p k (s.begin (some l)) = s.begin (some l) ∧ keyTalk (s.begin (some l)) p k = .none := by
      rcases hcase with hkey | ⟨L, hkey, hm⟩ | ⟨b, h, hkey, hh, hp⟩
      · exact ⟨by simp [stopTalk, hkey], keyTalk_none hkey⟩
      · refine ⟨?_, keyTalk_line hkey hm⟩
        have htalks : talksOn (s.begin (some l)) p k = false := decide_eq_false hm
        simp [stopTalk, hkey, endLineTalk, htalks]
      · refine ⟨?_, keyTalk_hoot hkey hh (talkStateOf_eq_none.mpr hp)⟩
        have hstop : stopTalk p k (s.begin (some l)) = endTalkOn b p .none (s.begin (some l)) := by
          simp [stopTalk, hkey]
        refine hstop.trans (endTalk_of_not_talksAt (w := .atOnce) ?_ .none)
        rintro ⟨g, hg, hin⟩
        cases hh.symm.trans hg
        exact hp hin
    obtain ⟨hstop, hnone⟩ := hnothing
    exact ⟨_, exec_talkOff hmay ho hstop, rfl, (noNotice.refl s).respond (x := (s.begin (some l), _)) l _, hshown _ hnone⟩
  · have hstep := (talkStep_begin b s (some l)).endLineTalk (L := L) hb hm
    have hstop : stopTalk p k (s.begin (some l)) = endLineTalk p k L .none .none (s.begin (some l)) := by
      simp [stopTalk, hkey]
    generalize endLineTalk p k L .none .none (s.begin (some l)) = t at hstep hstop
    have hdone := hstep.respond l (BitVec.ofNat 8 ReqKind.talkOff.code) ⟨.done, bTalk (keyTalk t p k)⟩
    refine ⟨_, exec_talkOff hmay ho hstop, hshown t ?_, ⟨hdone.positions, hdone.rest⟩, hdone.hoots, hdone.channels,
      hdone.told.log, hdone.elsewhere, hdone.entries, hdone.told.notices⟩
    refine keyTalk_line ((binding_setMic hstep.positions p k).trans hkey) ?_
    rw [hstep.positions]
    simp
  · have hbound : (s.positions.get p).mic ≠ .none := by simp [hm]
    have hstep := (talkStep_begin b s (some l)).endLastGrant hh hg hbound rfl hq hcalm hn
    have hstop : stopTalk p k (s.begin (some l)) = endTalkOn b p .none (s.begin (some l)) := by
      simp [stopTalk, hkey]
    generalize endTalkOn b p .none (s.begin (some l)) = t at hstep hstop
    have hdone := hstep.respond l (BitVec.ofNat 8 ReqKind.talkOff.code) ⟨.done, bTalk (keyTalk t p k)⟩
    subst hgk
    rw [talkOffTold, hcalm] at hdone
    refine ⟨_, exec_talkOff hmay ho hstop, hshown t ?_, ⟨hdone.positions, hdone.rest⟩, hdone.hoots, hdone.channels,
      hdone.told.log, hdone.elsewhere, hdone.entries, hdone.told.notices⟩
    refine keyTalk_hoot ((binding_setMic hstep.positions p _).trans hkey) (h := h.without p) ?_ ?_
    · rw [hstep.hoots]
      exact Tab.get_set_self ..
    · exact without_talkStateOf (by simp [hq])
  · have hstep := (talkStep_begin b s (some l)).endQueued hh hq
    have hstop : stopTalk p k (s.begin (some l)) = endQueued b p .none (s.begin (some l)) := by
      simp [stopTalk, hkey, endTalkOn, hh, hg]
    have honly : { endQueued b p .none (s.begin (some l)) with hoots := s.hoots, links := s.links } = s.begin (some l) :=
      endQueued_only .none
    generalize endQueued b p .none (s.begin (some l)) = t at hstep hstop honly
    have hdone := hstep.respond l (BitVec.ofNat 8 ReqKind.talkOff.code) ⟨.done, bTalk (keyTalk t p k)⟩
    refine ⟨_, exec_talkOff hmay ho hstop, fun hp => hshown t ?_, hdone.hoots, hdone.told.notices, ?_⟩
    · have hbinding : t.binding p (.key k) = .listen b := (hstep.binding p _).trans hkey
      refine keyTalk_hoot hbinding (h := { h with queue := h.queue.filter (· ≠ (p, k)) }) ?_ ?_
      · rw [hstep.hoots]
        exact Tab.get_set_self ..
      · have hout : p ∉ h.granted.map (·.pos) := by simpa [Hoot.talker, List.find?_eq_none] using hg
        exact talkStateOf_eq_none.mpr fun hin => (List.mem_append.mp hin).elim hout hp
    · exact (congrArg (fun w : State => { w with origin := s.origin, released := s.released }) honly :)

end Sys2Proof.Machine

namespace Sys2Proof

/-- An entry replaced twice has its last value. -/
theorem Tab.set_set {α : Type} {n : Nat} (t : Tab α n) (i : Fin n) (a c : α) : (t.set i a).set i c = t.set i c := by
  apply Tab.ext_get
  intro j
  simp only [Tab.get_set]
  split <;> rfl

end Sys2Proof

namespace Sys2Proof.Machine
open Sys2Proof

section

/-! # Promotion (R131) -/

/-- A hoot whose queue has lost its head. -/
def Hoot.waiting (h : Hoot) (rest : List (PosId × KeyId)) : Hoot := { h with queue := rest }

section
variable {b : BridgeId} {s u t : State} {v : TalkTables} {p q : PosId} {k j : KeyId} {h : Hoot} {g : Talker}
  {rest : List (PosId × KeyId)}

/-- With no slot open the queue stands (R131). -/
theorem promoteHead_full (hh : t.hoots.get b = some h) (hfull : h.slots ≤ h.granted.length) : promoteHead b t = t := by
  unfold promoteHead
  rw [hh]
  dsimp only
  split
  · rw [if_neg (Nat.not_lt.mpr hfull)]
  · rfl

theorem each_promoteHead_full (hh : t.hoots.get b = some h) (hfull : h.slots ≤ h.granted.length)
    (xs : List (PosId × KeyId)) : t.each xs (fun _ => promoteHead b) = t := by
  induction xs with
  | nil => rfl
  | cons x xs ih => rw [each_cons, promoteHead_full hh hfull, ih]

theorem promote_cons (hh : t.hoots.get b = some h) (hq : h.queue = (q, j) :: rest) :
    promote b t = (promoteHead b t).each rest fun _ => promoteHead b := by
  unfold promote
  simp only [hh, hq, each_cons]

/-- The head is granted where its key still listens and its MIC is free. -/
theorem promoteHead_grants (hh : t.hoots.get b = some h) (hq : h.queue = (q, j) :: rest)
    (hslot : h.granted.length < h.slots) (hb : t.binding q (.key j) = .listen b) (hfree : freeAnswer t q .mic = none) :
    promoteHead b t = grantTalk b q j (t.modHoot b fun g => g.waiting rest) := by
  unfold promoteHead
  simp only [hh, hq, if_pos hslot, hb, hfree, ne_eq, not_true, if_false]
  rfl

/-- Why the head of a queue is dropped as STALE, with the reason in the notice: its key has left the hoot, or its MIC is
refused. -/
def staleFor (t : State) (b : BridgeId) (q : PosId) (j : KeyId) (reason : Option Result) : Prop :=
  t.binding q (.key j) ≠ .listen b ∧ reason = none ∨
    t.binding q (.key j) = .listen b ∧ reason.isSome ∧ freeAnswer t q .mic = reason

theorem promoteHead_stale (hh : t.hoots.get b = some h) (hq : h.queue = (q, j) :: rest)
    (hslot : h.granted.length < h.slots) {reason : Option Result} (hs : staleFor t b q j reason) :
    promoteHead b t = postPos q (.talkDropped b j .stale reason) (t.modHoot b fun g => g.waiting rest) := by
  unfold promoteHead
  rcases hs with ⟨hb, rfl⟩ | ⟨hb, hsome, hfree⟩
  · simp only [hh, hq, if_pos hslot, if_pos hb]
    rfl
  · obtain ⟨r, rfl⟩ := Option.isSome_iff_exists.mp hsome
    simp only [hh, hq, if_pos hslot, hb, hfree, ne_eq, not_true, if_false]
    rfl

/-- While no trunk leg is ACTIVE there is no clash (R135). -/
theorem clashCondition_quietLegs (hq : ∀ x ∈ h.legs, x.joined = true → s.active (lineSource x.line) = false) :
    clashCondition s h = false := by
  rw [clashCondition, Bool.and_eq_false_iff]
  refine .inl (List.any_eq_false.mpr fun x hx => ?_)
  cases hj : x.joined with
  | false => simp
  | true => simp [hq x hx hj]

/-- The head leaves the queue, and is granted (R131). -/
theorem TalkStep.promoted (hs : TalkStep b s v u t) (hh : v.hoots.get b = some h) (hq : h.queue = (q, j) :: rest)
    (hlast : h.granted.length + 1 = h.slots) (hcalm : h.clashing = false) (hb : t.binding q (.key j) = .listen b)
    (hmic : freeAnswer t q .mic = none) (hfree : ∀ c ∈ v.entries, c.source ≠ micSource q) (hroom : v.entries.length < 12)
    {ch : Option ChanId} (hch : channelFor t h.record q .mic ch) :
    TalkStep b s (v.granting s b (h.waiting rest) (newTalker s (h.waiting rest) q j) ch)
      (grantTold s b (h.waiting rest) (newTalker s (h.waiting rest) q j) ch u) (promote b t) := by
  have hget : t.hoots.get b = some h := hs.hoots ▸ hh
  have hpopped := hs.modHoot hh fun g => g.waiting rest
  obtain ⟨hgrant, -⟩ := hpopped.grantTalk (k := j) (h := h.waiting rest) (Tab.get_set_self ..) hcalm hfree hroom
    (channelFor_congr hch rfl rfl)
  have hhead := promoteHead_grants hget hq (by omega) hb hmic
  rw [← hhead] at hgrant
  have hfull : (promoteHead b t).hoots.get b = some ((h.waiting rest).granting (newTalker s (h.waiting rest) q j)) := by
    rw [hgrant.hoots]
    exact Tab.get_set_self ..
  rw [promote_cons hget hq, each_promoteHead_full hfull (by simpa [Hoot.granting, Hoot.waiting] using hlast.ge)]
  simpa only [TalkTables.granting, Tab.set_set] using hgrant

/-- The only one who waits is dropped (R131). -/
theorem TalkStep.dropped (hs : TalkStep b s v u t) (hh : v.hoots.get b = some h) (hq : h.queue = [(q, j)])
    (hslot : h.granted.length < h.slots) {reason : Option Result} (hstale : staleFor t b q j reason) :
    TalkStep b s { v with hoots := v.hoots.set b (some (h.waiting [])) }
      (Machine.post (posRoute s [q]) (.talkDropped b j .stale reason) u) (promote b t) := by
  have hget : t.hoots.get b = some h := hs.hoots ▸ hh
  rw [promote_cons hget hq, promoteHead_stale hget hq hslot hstale]
  exact (hs.modHoot hh fun g => g.waiting []).postPos q _

/-- The state that the end of a grant leaves to the promotion, and what follows the promotion: no clash (R130). -/
theorem TalkStep.opensSlot (hs : TalkStep b s v u t) (hh : v.hoots.get b = some h) (hg : h.talker p = some g)
    (hm : (v.positions.get p).mic ≠ .none) (hc : v.channels = s.channels) :
    ∃ w, TalkStep b s (v.ungranting s b p h) (talkOffTold s b p g.key h u) w ∧
      endTalkOn b p .none t = evalClash b (promote b w) := by
  obtain ⟨w, hstop, hw⟩ := hs.ungranted hh hg hm hc
  exact ⟨w, hw, by rw [endTalkOn_granted (hs.hoots ▸ hh) hg, hstop]⟩

end

end

/-- Settles O41: the end of the grant leaves its state to the promotion (`TalkStep.opensSlot`), which grants
(`TalkStep.promoted`) or drops (`TalkStep.dropped`) the head; no ACTIVE leg, no clash. -/
theorem promotionTaken : Obligations.PromotionTaken := by
  intro l p q k j b h g rest s hmay ho hkey hh hg hgk hm hq hqp hcalm hlegs left hslots tell u cs freed quiet
  have hbound : (s.positions.get p).mic ≠ .none := by simp [hm]
  obtain ⟨w, hw, hend⟩ := (talkStep_begin b s (some l)).opensSlot hh hg hbound rfl
  subst hgk
  rw [talkOffTold, hcalm] at hw
  have hstop : stopTalk p g.key (s.begin (some l)) = evalClash b (promote b w) := by
    simpa [stopTalk, hkey] using hend
  have hget : ((s.begin (some l)).talkTables b |>.ungranting (s.begin (some l)) b p h).hoots.get b = some (h.without p) :=
    Tab.get_set_self ..
  have hcalmed {v : TalkTables} {u : State} {h' : Hoot} (hp : TalkStep b (s.begin (some l)) v u (promote b w))
      (hv : v.hoots.get b = some h') (hl : h'.legs = h.legs) (hc : h'.clashing = false) :
      evalClash b (promote b w) = promote b w := by
    refine evalClash_calm (hp.hoots ▸ hv) hc (clashCondition_quietLegs fun x hx hj => ?_)
    rw [hp.active]
    exact hlegs x (hl ▸ hx) hj
  have hposq : (w.positions.get q) = s.positions.get q := by
    rw [hw.positions]
    exact Tab.get_modify_ne _ _ hqp
  have hbq (e : Endpoint) : w.binding q e = s.binding q e := by rw [State.binding, hposq]; rfl
  have huq : w.posUp q = s.posUp q := hw.posUp q
  refine ⟨fun hkeyq hoq hupq hmq hroom hkeyless ch hch => ?_, fun hrest reason hreason => ?_⟩
  · have hfree : ∀ c ∈ cs, c.source ≠ micSource q := fun c hc =>
      entries_ne_of_has (s := s.begin (some l)) hkeyless c (List.mem_of_mem_filter hc)
    have hdue : channelFor w (h.without p).record q .mic ch := by
      have hrel := channelFor_releaseChan (p := p) (e := .mic) (channelFor_begin hch (some l)) fun e => hqp e.1
      exact channelFor_congr hrel (hw.channels.trans (releaseChan_channels ..).symm)
        (hw.released.trans (releaseChan_released ..).symm)
    have hp := hw.promoted hget hq hslots hcalm ((hbq _).trans hkeyq)
      (freeAnswer_free (hposq ▸ hoq) (huq.trans hupq) ((hbq .mic).trans hmq)) hfree hroom hdue
    rw [hcalmed hp (Tab.get_set_self ..) rfl hcalm] at hstop
    have hnew : newTalker (s.begin (some l)) ((h.without p).waiting rest) q j =
        ⟨q, j, if s.active (micSource q) = true ∨ h.talkIdleS = 0 then none else some (1000 * h.talkIdleS)⟩ :=
      congrArg (Talker.mk q j) talkTimer_eq
    rw [hnew] at hp
    have hdone := hp.respond l (BitVec.ofNat 8 ReqKind.talkOff.code) ⟨.done, bTalk (keyTalk (promote b w) p g.key)⟩
    refine ⟨_, exec_talkOff hmay ho hstop, ⟨hdone.elsewhere, hdone.rest⟩, hdone.hoots.trans (Tab.set_set ..),
      hdone.positions, hdone.entries.trans ?_, hdone.channels, hdone.told.log, hdone.told.notices⟩
    have hgain : ((s.positions.modify p fun r => { r with mic := .none }).get q).gainMIC =
        (s.positions.get q).gainMIC := by rw [Tab.get_modify_ne _ _ hqp]
    rw [← hgain]
    rfl
  · have hstale : staleFor w b q j reason := by
      rcases hreason with ⟨hne, hr⟩ | ⟨hb, hoq, hupq, hmq, rfl⟩
      · exact .inl ⟨(hbq _).symm ▸ hne, hr⟩
      · exact .inr ⟨(hbq _).trans hb, rfl,
          freeAnswer_inUse (hposq ▸ hoq) (huq.trans hupq) ((hbq .mic).symm ▸ hmq)⟩
    subst hrest
    have hp := hw.dropped hget hq (hslots ▸ Nat.lt_succ_self _) hstale
    have hdone := hp.respond l (BitVec.ofNat 8 ReqKind.talkOff.code) ⟨.done, bTalk (keyTalk (promote b w) p g.key)⟩
    rw [hcalmed hp (Tab.get_set_self ..) rfl hcalm] at hstop
    refine ⟨_, exec_talkOff hmay ho hstop, ⟨hdone.elsewhere, hdone.rest⟩, ?_, hdone.positions, hdone.entries,
      hdone.channels, hdone.told.log, hdone.told.notices⟩
    exact hdone.hoots.trans (Tab.set_set ..)

end Sys2Proof.Machine

namespace Sys2Proof.Machine
open Sys2Proof

section

/-! # The clash of a hoot, by the activity of a contributor (R134 to R137) -/

/-- A fold in which one entry alone does something does it once. -/
theorem each_once {α : Type} {f : α → State → State} {b : α} {s : State} (hs : ∀ d, d ≠ b → f d s = s)
    (ht : ∀ d, d ≠ b → f d (f b s) = f b s) : ∀ {xs : List α}, xs.Nodup → b ∈ xs → s.each xs f = f b s
  | a :: xs, hn, hb => by
    obtain ⟨ha, hn⟩ := List.nodup_cons.mp hn
    rw [each_cons]
    rcases List.mem_cons.mp hb with rfl | hb
    · have hrest : ∀ ys : List α, b ∉ ys → (f b s).each ys f = f b s := fun ys hys => by
        induction ys with
        | nil => rfl
        | cons y ys ih =>
          obtain ⟨hy, hys⟩ := not_or.mp (List.mem_cons.not.mp hys)
          rw [each_cons, ht y (Ne.symm hy), ih hys]
      exact hrest xs ha
    · have hab : a ≠ b := fun e => ha (e ▸ hb)
      rw [hs a hab]
      exact each_once hs ht hn hb

theorem posRoute_of_origin {s t : State} (h : t.origin = s.origin) (ps : List PosId) : posRoute t ps = posRoute s ps := by
  unfold posRoute
  rw [h]

theorem listenerRoute_of_positions {s t : State} (h : t.positions = s.positions) (b : BridgeId) :
    listenerRoute t b = listenerRoute s b := by
  unfold listenerRoute
  rw [h]

/-- A hoot once the talk-idle timers of its talkers have taken an event of `x` (R134). -/
def Hoot.timed (h : Hoot) (x : SourceId) (started : Bool) : Hoot :=
  { h with granted := h.granted.map (Talker.takeActivity (1000 * h.talkIdleS) x started) }

/-- A hoot once it has taken an event of `x`, but for its clash (R134, R137). -/
def Hoot.heard (h : Hoot) (x : SourceId) (started : Bool) : Hoot :=
  { h.timed x started with live := h.live || started }

section
variable {b : BridgeId} {s u t : State} {v : TalkTables} {h : Hoot} {x : SourceId} {started : Bool}

/-- A talk-idle timer stops as its MIC becomes ACTIVE, and runs from the full period as it falls QUIET (R134). -/
theorem Talker.takeActivity_eq (n : Nat) (g : Talker) : g.takeActivity (1000 * n) x started =
    if micSource g.pos = x then { g with timer := if started ∨ n = 0 then none else some (1000 * n) } else g := by
  unfold Talker.takeActivity startIdle
  split
  · cases started <;> simp
  · rfl

/-- The first activity makes a QUIET hoot LIVE, and its listeners are told (R137). -/
theorem TalkStep.hootLive (hs : TalkStep b s v u t) (hh : v.hoots.get b = some h) (hp : v.positions = s.positions) :
    TalkStep b s { v with hoots := v.hoots.set b (some { h with live := true }) }
      (if h.live then u else Machine.post (listenerRoute s b) (.hootState b true) u) (Machine.hootLive b t) := by
  unfold Machine.hootLive
  simp only [hs.hoots ▸ hh]
  split
  · rename_i hl
    have hset : v.hoots.set b (some { h with live := true }) = v.hoots := by
      rw [← hl, ← hh, Tab.set_get_self]
    rwa [hset]
  · refine (hs.modHoot hh fun h => { h with live := true }).post ?_ _
    exact listenerRoute_of_positions (hs.positions.trans hp) b

theorem TalkStep.startClash (hs : TalkStep b s v u t) (hh : v.hoots.get b = some h) :
    TalkStep b s { v with
        hoots := v.hoots.set b (some { h with clashing := true })
        entries := v.entries.map fun c => if h.reduced c.source then { c with shift := min h.shift 12 } else c }
      (Machine.submit { kind := .clash, hoot := some b, cause := some .start, parties := some h.parties }
        (Machine.post (posRoute s (h.granted.map (·.pos))) (.clash b .start (some h.policy)) u))
      (Machine.startClash b h t) :=
  (((hs.modHoot hh fun g => { g with clashing := true }).setShift h.reduced h.shift).postMany _ _).submit _

theorem TalkStep.endClash (hs : TalkStep b s v u t) (hh : v.hoots.get b = some h) :
    TalkStep b s { v with
        hoots := v.hoots.set b (some { h with clashing := false })
        entries := v.entries.map fun c => { c with shift := 0 } }
      (Machine.submit { kind := .clash, hoot := some b, cause := some .endOf }
        (Machine.post (posRoute s (h.granted.map (·.pos))) (.clash b .endOf none) u))
      (Machine.endClash b h t) :=
  (((hs.modHoot hh fun g => { g with clashing := false }).setShift (fun _ => true) 0).postMany _ _).submit _

/-- The three courses of the clash evaluation (R135). -/
theorem evalClash_eq (hh : t.hoots.get b = some h) : evalClash b t =
    if h.clashing = clashCondition t h then t
    else if h.clashing then endClash b h t else startClash b h t := by
  unfold evalClash
  rw [hh]
  dsimp only
  cases clashCondition t h <;> cases h.clashing <;> rfl

/-! ## The event at its hoot -/

/-- The hoot takes the event but for its clash. -/
theorem TalkStep.heard (hs : TalkStep b s v u t) (hh : v.hoots.get b = some h) (hp : v.positions = s.positions) :
    TalkStep b s { v with hoots := v.hoots.set b (some (h.heard x started)) }
      (if started ∧ h.live = false then Machine.post (listenerRoute s b) (.hootState b true) u else u)
      ((if started then Machine.hootLive b else id)
        (t.modHoot b fun h => { h with granted := h.granted.map (Talker.takeActivity (1000 * h.talkIdleS) x started) })) := by
  have htimed := hs.modHoot hh fun h => h.timed x started
  cases started with
  | true =>
    have hlive := htimed.hootLive (h := h.timed x true) (Tab.get_set_self ..) hp
    simp only [Tab.set_set] at hlive
    cases hl : h.live <;> simpa [Hoot.heard, Hoot.timed, hl] using hlive
  | false =>
    have hquiet : h.heard x false = h.timed x false := by
      unfold Hoot.heard
      rw [Bool.or_false]
      rfl
    rw [if_neg (by simp), hquiet]
    exact htimed

/-- The hoot of the one bridge on which the source stands takes the event; no other hoot has a share in it. -/
theorem raiseActivity_one (hh : s.hoots.get b = some h) (hx : (s.bridges.get b).has x = true)
    (hone : ∀ d, d ≠ b → (s.bridges.get d).has x = false) :
    raiseActivity x started s = evalClash b ((if started then Machine.hootLive b else id)
      ((eventPooled x started s).modHoot b fun h =>
        { h with granted := h.granted.map (Talker.takeActivity (1000 * h.talkIdleS) x started) })) := by
  have hnone (t : State) (d : BridgeId) (hd : (t.bridges.get d).has x = false) : hootActivity x started d t = t := by
    simp [hootActivity, hd]
  have hpooled (d : BridgeId) : ((eventPooled x started s).bridges.get d).has x = (s.bridges.get d).has x := by
    rw [eventPooled_bridge]
    split
    · rw [takeActivity_has]
    · rfl
  have hothers (d : BridgeId) (hd : d ≠ b) : ((eventPooled x started s).bridges.get d).has x = false :=
    (hpooled d).trans (hone d hd)
  rw [raiseActivity_eq, ids, each_once (fun d hd => hnone _ d (hothers d hd)) (fun d hd => hnone _ d ?_)
    (List.nodup_finRange 96) (List.mem_finRange b)]
  · have hshare : ((eventPooled x started s).hoots.get b).isSome && ((eventPooled x started s).bridges.get b).has x := by
      rw [eventPooled_hoots, hh, hpooled, hx]
      rfl
    exact if_pos hshare
  · have hshift := (shiftsOnly_hootActivity x started b (eventPooled x started s)).bridges d
    have hsources := congrArg (fun r : Bridge => r.contributors.any fun c => c.source = x) hshift
    simp only [Bridge.unshifted, List.any_map] at hsources
    exact hsources.trans (hothers d hd)

theorem eventPooled_active (y : SourceId) :
    (eventPooled x started s).active y = if y = x then started else s.active y := active_recorded x started s y

theorem eventPooled_contributors :
    ((eventPooled x started s).bridges.get b).contributors = (s.bridges.get b).contributors := by
  rw [eventPooled_bridge]
  split
  · rw [takeActivity_eq]
  · rfl

/-- The ACTIVITY record of a source on one bridge alone is written when that is recorded (R52). -/
theorem toldAlike_one (hx : (s.bridges.get b).has x = true) (hone : ∀ d, d ≠ b → (s.bridges.get d).has x = false)
    {recorded : Bool} (hr : recorded = true ↔ ∃ c y, s.channels.get c = some y ∧ y.bridge = b) :
    ToldAlike (if recorded then submit (activityNote x started b) s else s) (eventPooled x started (s.begin none)) := by
  obtain ⟨hnone, hsome⟩ := toldAlike_eventPooled x started s
  have helse (d : BridgeId) (hd : d ≠ b) : ¬ RecordedOn s x d := fun hr => by
    have hon := hr.1
    rw [hone d hd] at hon
    exact Bool.false_ne_true hon
  cases recorded with
  | true => exact hsome b ⟨hx, hr.mp rfl⟩ fun d hd => helse d hd.ne
  | false =>
    refine hnone fun d hd => ?_
    by_cases hdb : d = b
    · subst hdb
      exact Bool.false_ne_true (hr.mpr hd.2)
    · exact helse d hdb hd

theorem eventPooled_positions : (eventPooled x started s).positions = s.positions :=
  (congrArg State.positions (eventPooled_rest x started s) :)

theorem eventPooled_origin : (eventPooled x started s).origin = s.origin :=
  (congrArg State.origin (eventPooled_rest x started s) :)

/-- What the event leaves as it is, and what was written and told of it, read off its steps. -/
theorem TalkStep.raised (hs : TalkStep b (eventPooled x started (s.begin none)) v u (raiseActivity x started (s.begin none)))
    (hone : ∀ d, d ≠ b → (s.bridges.get d).has x = false) :
    let t := raiseActivity x started (s.begin none)
    ((∀ d, d ≠ b → t.bridges.get d = s.bridges.get d) ∧
      { t with detectors := s.detectors, bridges := s.bridges, hoots := s.hoots, log := s.log, links := s.links,
               origin := s.origin, released := s.released } = s) ∧ noNotice u t ∧ t.log = u.log := by
  refine ⟨⟨fun d hd => (hs.elsewhere d hd).trans ?_, ?_⟩, hs.told.notices, hs.told.log⟩
  · rw [eventPooled_bridge]
    exact if_neg (by simpa using hone d hd)
  · have hrest := raiseActivity_rest x started (s.begin none)
    generalize raiseActivity x started (s.begin none) = t at hrest ⊢
    exact (congrArg (fun w : State => { w with origin := s.origin, released := s.released }) hrest :)

end

end

/-- Settles O54: the hoot takes the event (`TalkStep.heard`), and the clash evaluation then has the course that its clash
state and condition give (`evalClash_eq`). -/
theorem clashTaken : Obligations.ClashTaken := by
  intro x started b h s hact hh hx hone recorded hrec act clash idle granted talkers reduced noted base live cs e only
  have hexec := exec_activity_raised (x := x) (started := started) (s := s) (by simp [hact])
  have hraised := raiseActivity_one (s := s.begin none) (started := started) hh hx hone
  have hstart := talkStep_start (b := b) (toldAlike_one (started := started) hx hone hrec)
  have hget : ((eventPooled x started (s.begin none)).talkTables b).hoots.get b = some h := by
    change (eventPooled x started (s.begin none)).hoots.get b = some h
    rw [eventPooled_hoots]
    exact hh
  have hheard := hstart.heard (x := x) (started := started) hget rfl
  have hnew : h.heard x started = { h with granted := granted, live := live } := by
    simp only [Hoot.heard, Hoot.timed, funext (Talker.takeActivity_eq h.talkIdleS)]
    rfl
  have hbase : (if started ∧ h.live = false then
      post (listenerRoute (eventPooled x started (s.begin none)) b) (.hootState b true) noted else noted) = base := by
    have hp : noted.positions = s.positions := by
      simp only [noted]
      split <;> simp
    have hr : listenerRoute (eventPooled x started (s.begin none)) b = listenerRoute noted b :=
      listenerRoute_of_positions ((eventPooled_positions (s := s.begin none)).trans hp.symm) b
    rw [hr]
    rfl
  have hroute (ps : List PosId) : posRoute (eventPooled x started (s.begin none)) ps = posRoute (s.begin none) ps :=
    posRoute_of_origin eventPooled_origin ps
  have hentries : ((eventPooled x started (s.begin none)).talkTables b).entries = cs := eventPooled_contributors
  have hhoots : ((eventPooled x started (s.begin none)).talkTables b).hoots = s.hoots := eventPooled_hoots ..
  rw [hnew] at hheard
  generalize (if started then Machine.hootLive b else id) _ = q at hheard hraised
  have hgetq : q.hoots.get b = some { h with granted := granted, live := live } := by
    rw [hheard.hoots]
    exact Tab.get_set_self ..
  have hclash : clashCondition q { h with granted := granted, live := live } = clash := by
    have hactive (y : SourceId) : q.active y = act y := (hheard.active y).trans (eventPooled_active y)
    have htalkers : (granted.any fun g => act (micSource g.pos)) = h.granted.any fun g => act (micSource g.pos) := by
      rw [List.any_map]
      refine congrArg (List.any h.granted) (funext fun g => ?_)
      dsimp only [Function.comp_apply]
      split <;> rfl
    simp only [clashCondition, hactive]
    exact congrArg _ htalkers
  rw [evalClash_eq hgetq, hclash] at hraised
  refine ⟨fun hsame => ?_, fun hoff hon => ?_, fun hon hoff => ?_⟩
  · have hcourse := hraised.trans (if_pos hsame)
    rw [← hcourse, hbase] at hheard
    obtain ⟨honly, hnote, hlog⟩ := hheard.raised hone
    exact ⟨_, hexec, honly, hnote, hlog, hheard.entries.trans hentries, hheard.hoots.trans (by rw [hhoots])⟩
  · have hcourse := hraised.trans ((if_neg (by simp [hoff, hon])).trans (if_neg (by simp [hoff])))
    have hstep := hheard.startClash (Tab.get_set_self ..)
    rw [← hcourse, hbase, hroute] at hstep
    obtain ⟨honly, hnote, hlog⟩ := hstep.raised hone
    refine ⟨_, hexec, honly, hnote, hlog, hstep.entries.trans ?_, hstep.hoots.trans ?_⟩
    · rw [hentries]
      rfl
    · rw [hhoots, Tab.set_set]
  · have hcourse := hraised.trans ((if_neg (by simp [hoff, hon])).trans (if_pos hon))
    have hstep := hheard.endClash (Tab.get_set_self ..)
    rw [← hcourse, hbase, hroute] at hstep
    obtain ⟨honly, hnote, hlog⟩ := hstep.raised hone
    refine ⟨_, hexec, honly, hnote, hlog, hstep.entries.trans ?_, hstep.hoots.trans ?_⟩
    · rw [hentries]
    · rw [hhoots, Tab.set_set]

end Sys2Proof.Machine

namespace Sys2Proof.Machine
open Sys2Proof

section

/-! # The legs of a hoot (R122) -/

/-- The tables with a record of hoot `b`, its legs, and the entries of its bridge. -/
def TalkTables.withLegs (v : TalkTables) (b : BridgeId) (h : Hoot) (legs : List Leg) (cs : List Contrib) : TalkTables :=
  { v with hoots := v.hoots.set b (some { h with legs := legs }), entries := cs }

/-- A leg once the gains given for the legs that stay are taken. -/
def Leg.regained (xs : List (LineId × Nat)) (y : Leg) : Leg :=
  match xs.find? fun x => x.1 = y.line with
  | some x => { y with gain := x.2 }
  | none => y

/-- A contributor once those gains are taken. -/
def Contrib.regained (xs : List (LineId × Nat)) (c : Contrib) : Contrib :=
  match xs.find? fun x => lineSource x.1 = c.source with
  | some x => { c with gain := min x.2 4095 }
  | none => c

/-- The line of a leg to be added is IDLE, so that the leg joins. -/
def joinsAtOnce (s : State) (x : LineId × Nat) : Bool := (s.lines.get x.1).state = .idle

def addedLeg (s : State) (x : LineId × Nat) : Leg := ⟨x.1, x.2, joinsAtOnce s x⟩

def addedEntry (x : LineId × Nat) : Contrib := ⟨lineSource x.1, min x.2 4095, 0, .owner⟩

section
variable {b : BridgeId} {s u t : State} {v : TalkTables} {h : Hoot} {ls : List Leg} {cs : List Contrib}

@[simp] theorem TalkTables.withLegs_entries : (v.withLegs b h ls cs).entries = cs := rfl

theorem TalkStep.mapLegs (hs : TalkStep b s (v.withLegs b h ls cs) u t) (g : List Leg → List Leg) :
    TalkStep b s (v.withLegs b h (g ls) cs) u (t.modHoot b fun h => { h with legs := g h.legs }) := by
  have hmod := hs.modHoot (r := { h with legs := ls }) (Tab.get_set_self ..) fun h => { h with legs := g h.legs }
  simpa only [TalkTables.withLegs, Tab.set_set] using hmod

/-- A leg leaves the list, and its source the bridge when it is JOINED. -/
theorem TalkStep.dropLeg (hs : TalkStep b s (v.withLegs b h ls cs) u t) (x : Leg) :
    TalkStep b s (v.withLegs b h (ls.filter fun y => y.line ≠ x.line)
      (cs.filter fun c => !(x.joined && lineSource x.line = c.source))) u (Machine.dropLeg b x t) := by
  have hleft : TalkStep b s (v.withLegs b h ls (cs.filter fun c => !(x.joined && lineSource x.line = c.source))) u
      (if x.joined then Machine.leave b (lineSource x.line) t else t) := by
    cases x.joined with
    | true => simpa [TalkTables.withLegs, eq_comm] using hs.leave (lineSource x.line)
    | false => simpa using hs
  exact hleft.mapLegs fun ls => ls.filter fun y => y.line ≠ x.line

theorem TalkStep.dropLegs : ∀ (xs : List Leg) {t : State} {ls : List Leg} {cs : List Contrib},
    TalkStep b s (v.withLegs b h ls cs) u t →
    TalkStep b s (v.withLegs b h (ls.filter fun y => xs.all fun x => y.line ≠ x.line)
      (cs.filter fun c => xs.all fun x => !(x.joined && lineSource x.line = c.source))) u (t.each xs (Machine.dropLeg b))
  | [], _, _, _, hs => by simpa using hs
  | x :: xs, _, _, _, hs => by
    have hrest := TalkStep.dropLegs xs (hs.dropLeg x)
    simp only [List.filter_filter] at hrest
    simpa only [each_cons, List.all_cons, Bool.and_comm] using hrest

/-- A leg that stays takes its new gain, and so does its source. -/
theorem TalkStep.regainLeg (hs : TalkStep b s (v.withLegs b h ls cs) u t) (x : LineId × Nat) :
    TalkStep b s (v.withLegs b h (ls.map fun y => if y.line = x.1 then { y with gain := x.2 } else y)
      (cs.map fun c => if c.source = lineSource x.1 then { c with gain := min x.2 4095 } else c)) u
      (Machine.regainLeg b x t) := by
  have hlegs := hs.mapLegs fun ls => ls.map fun y => if y.line = x.1 then { y with gain := x.2 } else y
  have hset := hlegs.onBridge (t' := Machine.regainLeg b x t) rfl (fun d hd => Tab.get_modify_ne _ _ hd)
    (by simp [Machine.regainLeg, setGainOn, setLeg])
  have hentries : ((Machine.regainLeg b x t).bridges.get b).contributors =
      cs.map fun c => if c.source = lineSource x.1 then { c with gain := min x.2 4095 } else c := by
    have ht : (t.bridges.get b).contributors = cs := hs.entries
    simp [Machine.regainLeg, setGainOn, setLeg, ht]
  rwa [hentries] at hset

theorem Leg.regained_cons {x : LineId × Nat} {xs : List (LineId × Nat)} (hx : x.1 ∉ xs.map (·.1)) (y : Leg) :
    Leg.regained xs (if y.line = x.1 then { y with gain := x.2 } else y) = y.regained (x :: xs) := by
  by_cases hy : y.line = x.1
  · have hnone : xs.find? (fun z => z.1 = x.1) = none :=
      List.find?_eq_none.mpr fun z hz hzx => hx (List.mem_map.mpr ⟨z, hz, of_decide_eq_true hzx⟩)
    simp [Leg.regained, hy, hnone]
  · simp [Leg.regained, hy, Ne.symm hy]

theorem Contrib.regained_cons {x : LineId × Nat} {xs : List (LineId × Nat)} (hx : x.1 ∉ xs.map (·.1)) (c : Contrib) :
    Contrib.regained xs (if c.source = lineSource x.1 then { c with gain := min x.2 4095 } else c) =
      c.regained (x :: xs) := by
  by_cases hc : c.source = lineSource x.1
  · have hnone : xs.find? (fun z => lineSource z.1 = lineSource x.1) = none := by
      refine List.find?_eq_none.mpr fun z hz hzx => hx ?_
      exact List.mem_map.mpr ⟨z, hz, lineSource_inj (of_decide_eq_true hzx)⟩
    simp [Contrib.regained, hc, hnone]
  · simp [Contrib.regained, hc, Ne.symm hc]

theorem TalkStep.regainLegs : ∀ (xs : List (LineId × Nat)) {t : State} {ls : List Leg} {cs : List Contrib},
    (xs.map (·.1)).Nodup → TalkStep b s (v.withLegs b h ls cs) u t →
    TalkStep b s (v.withLegs b h (ls.map (Leg.regained xs)) (cs.map (Contrib.regained xs))) u
      (t.each xs (Machine.regainLeg b))
  | [], _, ls, cs, _, hs => by
    have hlegs : ls.map (Leg.regained []) = ls := List.map_id ls
    have hentries : cs.map (Contrib.regained []) = cs := List.map_id cs
    rwa [hlegs, hentries]
  | x :: xs, _, ls, cs, hn, hs => by
    obtain ⟨hx, hn⟩ := List.nodup_cons.mp hn
    have hrest := TalkStep.regainLegs xs hn (hs.regainLeg x)
    simp only [List.map_map, Function.comp_def, Leg.regained_cons hx, Contrib.regained_cons hx] at hrest
    exact hrest

/-- The source of a line that does not stand on the bridge joins it, where there is room, with a gain and no shift. -/
theorem TalkStep.joinLine (hs : TalkStep b s v u t) {L : LineId} (hfree : ∀ c ∈ v.entries, c.source ≠ lineSource L)
    (hroom : v.entries.length < 12) (gain : Nat) :
    TalkStep b s { v with entries := v.entries ++ [addedEntry (L, gain)] } u (join b (lineSource L) gain 0 .owner t) := by
  have hhas : (t.bridges.get b).has (lineSource L) = false := by
    simpa [Bridge.has, hs.entries] using hfree
  have hanswer := joinAnswer_eq_none hhas (hs.entries ▸ hroom)
  obtain ⟨f, hf⟩ := join_accepted hanswer gain 0 .owner
  have hjoined := hs.onBridge (t' := join b (lineSource L) gain 0 .owner t) (by rw [hf]; rfl)
    (fun d hd => by rw [hf]; exact Tab.get_modify_ne _ _ hd) (join_use b b _ gain 0 .owner t)
  rwa [join_contributors hhas (hs.entries ▸ hroom), hs.entries] at hjoined

/-- A new leg is appended, and joins when its line is IDLE; there is no clash, whose shift it would take. -/
theorem TalkStep.addLeg (hs : TalkStep b s (v.withLegs b h ls cs) u t) (hcalm : h.clashing = false) {x : LineId × Nat}
    (hnew : ∀ y ∈ ls, y.line ≠ x.1) (hfree : ∀ c ∈ cs, c.source ≠ lineSource x.1) (hroom : cs.length < 12) :
    TalkStep b s (v.withLegs b h (ls ++ [addedLeg s x]) (cs ++ if joinsAtOnce s x then [addedEntry x] else [])) u
      (Machine.addLeg b x t) := by
  have hout := hs.mapLegs fun ls => ls ++ [⟨x.1, x.2, false⟩]
  have hadd : Machine.addLeg b x t =
      if joinsAtOnce s x then joinLeg b x.1 (t.modHoot b fun h => { h with legs := h.legs ++ [⟨x.1, x.2, false⟩] })
      else t.modHoot b fun h => { h with legs := h.legs ++ [⟨x.1, x.2, false⟩] } := by
    unfold Machine.addLeg joinsAtOnce
    simp only [hs.lines, decide_eq_true_eq]
  rw [hadd]
  generalize (t.modHoot b fun h => { h with legs := h.legs ++ [⟨x.1, x.2, false⟩] }) = w at hout
  unfold addedLeg
  cases joinsAtOnce s x with
  | false => simpa using hout
  | true =>
    have hget : w.hoots.get b = some { h with legs := ls ++ [⟨x.1, x.2, false⟩] } := by
      rw [hout.hoots]
      exact Tab.get_set_self ..
    have hfind : (ls ++ [(⟨x.1, x.2, false⟩ : Leg)]).find? (fun y => y.line = x.1) = some ⟨x.1, x.2, false⟩ := by
      have hnone : ls.find? (fun y => y.line = x.1) = none := by
        simpa [List.find?_eq_none] using hnew
      simp [List.find?_append, hnone]
    have hjoined := (hout.joinLine hfree hroom x.2).mapLegs (b := b) (h := h) (v := v) (ls := ls ++ [⟨x.1, x.2, false⟩])
      fun ls => ls.map fun y => if y.line = x.1 then { y with joined := true } else y
    have hmarked : (ls.map fun y => if y.line = x.1 then { y with joined := true } else y) = ls :=
      (List.map_congr_left fun y hy => if_neg (hnew y hy)).trans (List.map_id ls)
    simp only [List.map_append, hmarked] at hjoined
    simpa [joinLeg, hget, hfind, hcalm, setLeg] using hjoined

theorem TalkStep.addLegs (hcalm : h.clashing = false) : ∀ (xs : List (LineId × Nat)) {t : State} {ls : List Leg}
    {cs : List Contrib}, (xs.map (·.1)).Nodup → (∀ x ∈ xs, ∀ y ∈ ls, y.line ≠ x.1) →
    (∀ x ∈ xs, ∀ c ∈ cs, c.source ≠ lineSource x.1) → cs.length + xs.length ≤ 12 →
    TalkStep b s (v.withLegs b h ls cs) u t →
    TalkStep b s (v.withLegs b h (ls ++ xs.map (addedLeg s)) (cs ++ (xs.filter (joinsAtOnce s)).map addedEntry)) u
      (t.each xs (Machine.addLeg b))
  | [], _, _, _, _, _, _, _, hs => by simpa using hs
  | x :: xs, _, ls, cs, hn, hnew, hfree, hroom, hs => by
    obtain ⟨hx, hn⟩ := List.nodup_cons.mp hn
    rw [List.length_cons] at hroom
    have hother (z : LineId × Nat) (hz : z ∈ xs) : x.1 ≠ z.1 := fun e =>
      hx (List.mem_map.mpr ⟨z, hz, e.symm⟩)
    have hrest := TalkStep.addLegs hcalm xs hn ?_ ?_ ?_
      (hs.addLeg hcalm (hnew x List.mem_cons_self) (hfree x List.mem_cons_self) (by omega))
    · cases hj : joinsAtOnce s x <;> simpa [hj] using hrest
    · intro z hz y hy
      rcases List.mem_append.mp hy with hy | hy
      · exact hnew z (List.mem_cons_of_mem x hz) y hy
      · rw [List.mem_singleton.mp hy]
        exact hother z hz
    · intro z hz c hc
      rcases List.mem_append.mp hc with hc | hc
      · exact hfree z (List.mem_cons_of_mem x hz) c hc
      · have hcx : c = addedEntry x := by
          split at hc
          · exact List.mem_singleton.mp hc
          · exact absurd hc List.not_mem_nil
        rw [hcx]
        exact fun e => hother z hz (lineSource_inj e)
    · have hone : (if joinsAtOnce s x then [addedEntry x] else []).length ≤ 1 := by split <;> simp
      rw [List.length_append]
      omega

/-! ## The list replaced -/

/-- The old legs that the new list lacks. -/
def goneLegs (old : List Leg) (new : List (LineId × Nat)) : List Leg :=
  old.filter fun y => !new.any fun x => x.1 = y.line

/-- The legs of the new list that stand already. -/
def sharedLegs (old : List Leg) (new : List (LineId × Nat)) : List (LineId × Nat) :=
  new.filter fun x => old.any fun y => y.line = x.1

/-- The others, which are to be added. -/
def freshLegs (old : List Leg) (new : List (LineId × Nat)) : List (LineId × Nat) :=
  new.filter fun x => old.all fun y => y.line ≠ x.1

/-- The legs once a list replaces them. -/
def newLegs (s : State) (old : List Leg) (new : List (LineId × Nat)) : List Leg :=
  (old.filter fun y => (goneLegs old new).all fun x => y.line ≠ x.line).map (Leg.regained (sharedLegs old new)) ++
    (freshLegs old new).map (addedLeg s)

/-- The contributors once a list replaces the legs. -/
def newEntries (s : State) (old : List Leg) (new : List (LineId × Nat)) (cs : List Contrib) : List Contrib :=
  (cs.filter fun c => (goneLegs old new).all fun x => !(x.joined && lineSource x.line = c.source)).map
      (Contrib.regained (sharedLegs old new)) ++
    ((freshLegs old new).filter (joinsAtOnce s)).map addedEntry

theorem mem_freshLegs {old : List Leg} {new : List (LineId × Nat)} {x : LineId × Nat} :
    x ∈ freshLegs old new ↔ x ∈ new ∧ ∀ y ∈ old, y.line ≠ x.1 := by simp [freshLegs]

theorem replaceLegs_eq (old : List Leg) (new : List (LineId × Nat)) :
    Machine.replaceLegs b old new t = ((t.each (goneLegs old new) (Machine.dropLeg b)).each (sharedLegs old new)
      (Machine.regainLeg b)).each (freshLegs old new) (Machine.addLeg b) := by
  have hfresh : (new.filter fun x => !(old.any fun y => y.line = x.1)) = freshLegs old new :=
    List.filter_congr fun x _ => by simp [List.not_any_eq_all_not]
  unfold Machine.replaceLegs
  rw [hfresh]
  rfl

theorem Leg.regained_line (xs : List (LineId × Nat)) (y : Leg) : (y.regained xs).line = y.line := by
  unfold Leg.regained
  split <;> rfl

theorem Contrib.regained_source (xs : List (LineId × Nat)) (c : Contrib) : (c.regained xs).source = c.source := by
  unfold Contrib.regained
  split <;> rfl

/-- The list of the legs replaced, in the three steps of R122. -/
theorem TalkStep.replaceLegs (hs : TalkStep b s (v.withLegs b h ls cs) u t) (hcalm : h.clashing = false)
    {new : List (LineId × Nat)} (hn : (new.map (·.1)).Nodup)
    (hfree : ∀ x ∈ new, (∀ y ∈ ls, y.line ≠ x.1) → ∀ c ∈ cs, c.source ≠ lineSource x.1)
    (hroom : cs.length + new.length ≤ 12) :
    TalkStep b s (v.withLegs b h (newLegs s ls new) (newEntries s ls new cs)) u (Machine.replaceLegs b ls new t) := by
  have hsub (p : LineId × Nat → Bool) : ((new.filter p).map (·.1)).Nodup :=
    hn.sublist (List.filter_sublist.map _)
  rw [replaceLegs_eq]
  refine ((hs.dropLegs _).regainLegs _ (hsub _)).addLegs hcalm _ (hsub _) ?_ ?_ ?_
  · intro x hx y hy
    obtain ⟨z, hz, rfl⟩ := List.mem_map.mp hy
    rw [Leg.regained_line]
    exact (mem_freshLegs.mp hx).2 z (List.mem_of_mem_filter hz)
  · intro x hx c hc
    obtain ⟨hxn, hnew⟩ := mem_freshLegs.mp hx
    obtain ⟨d, hd, rfl⟩ := List.mem_map.mp hc
    rw [Contrib.regained_source]
    exact hfree x hxn hnew d (List.mem_of_mem_filter hd)
  · rw [List.length_map]
    exact (Nat.add_le_add (List.length_filter_le _ _) (List.length_filter_le _ _)).trans hroom

/-! ## HOOT_DEFINE (R121, R122) -/

theorem TalkStep.timerAsk (hs : TalkStep b s v u t) (n : Nat) (m : ReloadMask) :
    TalkStep b s v u (Machine.timerAsk b n m t) := by
  have hasked := hs.onBridge (t' := Machine.timerAsk b n m t) rfl (fun d hd => Tab.get_modify_ne _ _ hd)
    (by simp [Machine.timerAsk, Bridge.rearm])
  have hentries : ((Machine.timerAsk b n m t).bridges.get b).contributors = v.entries := by
    rw [← hs.entries]
    simp [Machine.timerAsk, Bridge.rearm]
  rwa [hentries] at hasked

/-- A timer ask for all classes: the timer runs from the period unless a contributor is ACTIVE (R38, R39). -/
theorem timerAsk_both (n : Nat) : (Machine.timerAsk b n .both t).bridges.get b =
    { use := (t.bridges.get b).use, contributors := (t.bridges.get b).contributors, period := n, mask := .both,
      active := (t.bridges.get b).active,
      idle := if (t.bridges.get b).contributors.any (fun c => t.active c.source) ∨ n = 0 then none else some n } := by
  simp only [Machine.timerAsk, modBridge_bridges, Tab.get_modify_self, Bridge.rearm, selectedActive, ReloadMask.selects,
    Bool.true_and, startIdle]
  cases (t.bridges.get b).contributors.any fun c => t.active c.source <;> simp

theorem openHoot_some (hh : s.hoots.get b = some h) : openHoot b s = s := by
  unfold openHoot
  rw [hh]

theorem TalkStep.quietMs (hs : TalkStep b s (v.withLegs b h ls cs) u t) : Machine.quietMs t b = 1000 * h.quietS := by
  simp [Machine.quietMs, hs.hoots, TalkTables.withLegs]

/-- A definition of a hoot that stands: its fields, its legs, and the timer ask. -/
theorem TalkStep.defineHoot (hs : TalkStep b s v u t) (hh : v.hoots.get b = some h) (hcalm : h.clashing = false)
    (f : HootFields) {a : HootArgs}
    (hlegs : ∀ new, a.legs = some new → (new.map (·.1)).Nodup ∧
      (∀ x ∈ new, (∀ y ∈ h.legs, y.line ≠ x.1) → ∀ c ∈ v.entries, c.source ≠ lineSource x.1) ∧
      v.entries.length + new.length ≤ 12) :
    let t' := Machine.defineHoot b f a t
    let cs := a.legs.elim v.entries fun new => newEntries s h.legs new v.entries
    let quiet := 1000 * (storeHoot f a h).quietS
    TalkStep b s (v.withLegs b (storeHoot f a h) (a.legs.elim h.legs (newLegs s h.legs)) cs) u t' ∧
      t'.bridges.get b = { use := (s.bridges.get b).use, contributors := cs, period := quiet, mask := .both,
                           active := (t'.bridges.get b).active,
                           idle := if cs.any (fun c => s.active c.source) ∨ quiet = 0 then none else some quiet } := by
  have hlegged : ∃ w, TalkStep b s (v.withLegs b (storeHoot f a h) (a.legs.elim h.legs (newLegs s h.legs))
        (a.legs.elim v.entries fun new => newEntries s h.legs new v.entries)) u w ∧
      Machine.defineHoot b f a t = Machine.timerAsk b (1000 * (storeHoot f a h).quietS) .both w := by
    have hopen : openHoot b t = t := openHoot_some (hs.hoots ▸ hh)
    have hstored : TalkStep b s (v.withLegs b (storeHoot f a h) h.legs v.entries) u (t.modHoot b (storeHoot f a)) :=
      hs.modHoot hh (storeHoot f a)
    have hin : legsIn (t.modHoot b (storeHoot f a)) b = h.legs := by
      simp [legsIn, hs.hoots, hh, storeHoot]
    unfold Machine.defineHoot
    rw [hopen]
    cases ha : a.legs with
    | none => exact ⟨_, hstored, congrArg (fun n => Machine.timerAsk b n .both _) hstored.quietMs⟩
    | some new =>
      obtain ⟨hn, hfree, hroom⟩ := hlegs new ha
      have hreplaced := hstored.replaceLegs hcalm hn hfree hroom
      dsimp only
      rw [hin]
      exact ⟨_, hreplaced, congrArg (fun n => Machine.timerAsk b n .both _) hreplaced.quietMs⟩
  obtain ⟨w, hw, htimer⟩ := hlegged
  have hactive : w.active = s.active := funext hw.active
  have huse : (w.bridges.get b).use = (s.bridges.get b).use := hw.use
  have hentries := hw.entries
  rw [TalkTables.withLegs_entries] at hentries
  rw [htimer]
  refine ⟨hw.timerAsk _ _, ?_⟩
  rw [timerAsk_both, huse, hentries, hactive]

/-! ## The request and its checks (R121) -/

/-- A leg as it is named in the request, read. -/
def legRead (x : LineId × Half) : LineId × Nat := (x.1, min x.2.toNat 4095)

theorem allOf_legOfBytes : ∀ legs : List (LineId × Half),
    allOf legOfBytes (legs.map fun x => (idByte x.1, x.2)) = some (legs.map legRead)
  | [] => rfl
  | x :: legs => by
    simp [allOf, allOf_legOfBytes legs, legOfBytes, clampTop, legRead]

/-- The fields of a request, read: the policy and record codes, and the legs when it has a list. -/
def hootRead (f : HootFields) (policy : Option ClashPolicy) (recorded : Option Bool)
    (legs : List (LineId × Half)) : HootArgs :=
  ⟨policy, recorded, f.legs.map fun _ => legs.map legRead⟩

theorem hootRead_legs {f : HootFields} {policy : Option ClashPolicy} {recorded : Option Bool}
    {legs : List (LineId × Half)} {new : List (LineId × Nat)} (h : (hootRead f policy recorded legs).legs = some new) :
    new = legs.map legRead := by
  obtain ⟨xs, -, hx⟩ := Option.map_eq_some_iff.mp h
  exact hx.symm

theorem nodup_read {legs : List (LineId × Half)} (hn : (legs.map (·.1)).Nodup) :
    ((legs.map legRead).map (·.1)).Nodup := by
  simpa [Function.comp_def, legRead] using hn

theorem hootArgsOf_eq {f : HootFields} {legs : List (LineId × Half)} {policy : Option ClashPolicy}
    {recorded : Option Bool} (hp : optCode clashPolicyOf f.policy = some policy)
    (hr : optCode yesNoOf f.record = some recorded)
    (hl : ∀ xs, f.legs = some xs → xs = legs.map fun x => (idByte x.1, x.2)) :
    hootArgsOf f = some (hootRead f policy recorded legs) := by
  have hlegs : legsOf f.legs = some (f.legs.map fun _ => legs.map legRead) := by
    cases hf : f.legs with
    | none => rfl
    | some xs =>
      rw [hl xs hf]
      simp [legsOf, allOf_legOfBytes]
  unfold hootArgsOf
  rw [hp, hlegs]
  simp only [show recordFlagOf = yesNoOf from rfl, hr]
  rfl

/-- The checks pass for a FREE bridge with room for a hoot, and for a hoot without talk (R121 checks 2 to 6). -/
theorem hootCheck_passes {xs : List (LineId × Nat)}
    (huse : (s.bridges.get b).use = .free ∧ hootCount s < 32 ∨ (s.bridges.get b).use = .hoot)
    (htalk : ∀ h, s.hoots.get b = some h → h.granted = [] ∧ h.queue = []) (hn : (xs.map (·.1)).Nodup)
    (hlegs : ∀ x ∈ xs, (s.lines.get x.1).ltype = .ht ∧ (legOf s x.1 = none ∨ legOf s x.1 = some b)) :
    hootCheck s b xs = none := by
  have hquiet : ¬(match s.hoots.get b with
      | some h => !h.granted.isEmpty || !h.queue.isEmpty
      | none => false) = true := by
    cases hh : s.hoots.get b with
    | none => simp
    | some h => simp [htalk h hh]
  have htype : (xs.any fun x => (s.lines.get x.1).ltype ≠ .ht) = false := by
    simp only [List.any_eq_false, decide_eq_true_eq, not_not]
    exact fun x hx => (hlegs x hx).1
  have hown : (xs.any fun x => match legOf s x.1 with
      | some c => c ≠ b
      | none => false) = false := by
    refine List.any_eq_false.mpr fun x hx => ?_
    rcases (hlegs x hx).2 with h | h <;> simp [h]
  have hroom : ¬(decide ((s.bridges.get b).use = .free) && decide (Config.maxHoots ≤ hootCount s)) = true := by
    rcases huse with ⟨-, hcount⟩ | hu
    · simp [Config.maxHoots, Nat.not_le.mpr hcount]
    · simp [hu]
  unfold hootCheck
  rcases huse with ⟨hu, -⟩ | hu
  all_goals
    rw [hu] at hroom ⊢
    exact (if_neg hroom).trans ((if_neg hquiet).trans ((if_neg (by simpa using hn)).trans
      ((if_neg (Bool.eq_false_iff.mp htype)).trans (if_neg (Bool.eq_false_iff.mp hown)))))

/-- A definition that passes the checks is committed. -/
theorem exec_hootDefine {f : HootFields} {legs : List (LineId × Half)} {policy : Option ClashPolicy}
    {recorded : Option Bool} (hlatch : s.latch .adm = none) (hfits : f.fits = true)
    (hp : optCode clashPolicyOf f.policy = some policy) (hr : optCode yesNoOf f.record = some recorded)
    (hl : ∀ xs, f.legs = some xs → xs = legs.map fun x => (idByte x.1, x.2))
    (huse : (s.bridges.get b).use = .free ∧ hootCount s < 32 ∨ (s.bridges.get b).use = .hoot)
    (htalk : ∀ h, s.hoots.get b = some h → h.granted = [] ∧ h.queue = []) (hn : (legs.map (·.1)).Nodup)
    (hlegs : ∀ x ∈ legs, (s.lines.get x.1).ltype = .ht ∧ (legOf s x.1 = none ∨ legOf s x.1 = some b)) :
    exec (.hootDefine .adm (idByte b) f) s =
      let t := defineHoot b f (hootRead f policy recorded legs) (s.begin (some .adm))
      .next (respond .adm (BitVec.ofNat 8 ReqKind.hootDefine.code) (done (defineBody t b) t)) := by
  have hmay : mayTake s .adm .hootDefine none := ⟨.inl hlatch, rfl, rfl⟩
  have htaken := takeRequest_owner (n := {}) hmay (hootDefine (idByte b) f)
  have hread : ((hootRead f policy recorded legs).legs.getD []).Sublist (legs.map legRead) := by
    unfold hootRead
    cases f.legs with
    | none => exact List.nil_sublist _
    | some xs => exact List.Sublist.refl _
  have hcheck : hootCheck (s.begin (some .adm)) b ((hootRead f policy recorded legs).legs.getD []) = none := by
    refine hootCheck_passes (s := s.begin (some .adm)) huse htalk ((nodup_read hn).sublist (hread.map _)) fun x hx => ?_
    obtain ⟨y, hy, rfl⟩ := List.mem_map.mp (hread.subset hx)
    exact hlegs y hy
  have hpass : hootDefine (idByte b) f (s.begin (some .adm)) =
      let t := defineHoot b f (hootRead f policy recorded legs) (s.begin (some .adm))
      done (defineBody t b) t := by
    simp only [hootDefine, bridgeOf_idByte, hootArgsOf_eq hp hr hl, hcheck]
  rw [hpass] at htaken
  rw [← hfits] at htaken
  exact congrArg Host.Outcome.next htaken

/-- The state with a new hoot, before its fields are stored. -/
def withNewHoot (b : BridgeId) (s : State) : State := { s with
  bridges := s.bridges.set b { Bridge.reset with use := .hoot }, hoots := s.hoots.set b (some Hoot.fresh) }

/-- The hoot that a definition of a FREE bridge opens (R120, R122). -/
theorem openHoot_new (hnone : s.hoots.get b = none) : openHoot b s = withNewHoot b s := by
  unfold openHoot
  rw [hnone]
  rfl

theorem defineHoot_openHoot (f : HootFields) (a : HootArgs) : defineHoot b f a (openHoot b s) = defineHoot b f a s := by
  have hopen : openHoot b (openHoot b s) = openHoot b s := by
    cases hh : s.hoots.get b with
    | none =>
      rw [openHoot_new hh]
      exact openHoot_some (Tab.get_set_self ..)
    | some h => rw [openHoot_some hh, openHoot_some hh]
  unfold defineHoot
  rw [hopen]

/-- Once a hoot is defined, nothing has changed but hoots, bridges and the link that answers. -/
theorem TalkStep.onlyHoots {s₀ : State} (hs : TalkStep b s v s₀ t) (hp : v.positions = s₀.positions)
    (hc : v.channels = s₀.channels)
    (hstart : { s with hoots := s₀.hoots, bridges := s₀.bridges, links := s₀.links, origin := s₀.origin,
                       released := s₀.released } = s₀) :
    { t with hoots := s₀.hoots, bridges := s₀.bridges, links := s₀.links, origin := s₀.origin,
             released := s₀.released } = s₀ := by
  have hpos : s.positions = t.positions := (congrArg State.positions hstart :).trans (hs.positions.trans hp).symm
  have hchan : s.channels = t.channels := (congrArg State.channels hstart :).trans (hs.channels.trans hc).symm
  have hlog : s.log = t.log := (congrArg State.log hstart :).trans hs.told.log.symm
  have honly := hs.only
  rw [hpos, hchan, hlog] at honly
  exact (congrArg (fun w : State =>
    { w with hoots := s₀.hoots, bridges := s₀.bridges, links := s₀.links, origin := s₀.origin,
             released := s₀.released }) honly :).trans hstart

/-! ## The activity flag while legs come and go (R37) -/

/-- The activity flag of the bridge is that of its contributors. -/
def Flagged (b : BridgeId) (t : State) : Prop :=
  (t.bridges.get b).active = anyActive t (t.bridges.get b).contributors

/-- From one state to the other the flag stays right. -/
def KeepsFlag (b : BridgeId) (s t : State) : Prop := Flagged b s → Flagged b t

theorem KeepsFlag.refl (s : State) : KeepsFlag b s s := id

theorem KeepsFlag.trans {r s t : State} (h : KeepsFlag b r s) (g : KeepsFlag b s t) : KeepsFlag b r t := g ∘ h

theorem KeepsFlag.modHoot (f : Hoot → Hoot) (s : State) : KeepsFlag b s (s.modHoot b f) := id

/-- A change of the bridge record that keeps the flag right keeps it right. -/
theorem KeepsFlag.modBridge {f : Bridge → Bridge} {s : State}
    (h : ∀ r : Bridge, r.active = anyActive s r.contributors → (f r).active = anyActive s (f r).contributors) :
    KeepsFlag b s (s.modBridge b f) := fun hf => by
  unfold Flagged
  rw [modBridge_bridges, Tab.get_modify_self]
  exact h _ hf

theorem keepsFlag_leave (x : SourceId) (s : State) : KeepsFlag b s (leave b x s) :=
  KeepsFlag.modBridge fun r hr => by
    split
    · exact hr
    · dsimp only
      split <;> rfl

theorem KeepsFlag.mapEntries {g : Contrib → Contrib} (hg : ∀ c, (g c).source = c.source) (s : State) :
    KeepsFlag b s (s.modBridge b fun r => { r with contributors := r.contributors.map g }) :=
  KeepsFlag.modBridge fun r hr => by
    refine hr.trans ?_
    simp only [anyActive, List.any_map, Function.comp_def, hg]

theorem keepsFlag_setGainOn (x : SourceId) (gain : Nat) (s : State) : KeepsFlag b s (setGainOn b x gain s) :=
  KeepsFlag.mapEntries (fun c => by split <;> rfl) s

theorem keepsFlag_join (x : SourceId) (gain shift : Nat) (o : Origin) (s : State) :
    KeepsFlag b s (join b x gain shift o s) := by
  unfold join
  split
  · exact .refl s
  · exact KeepsFlag.modBridge fun r _ => rfl

theorem keepsFlag_setShift (sel : SourceId → Bool) (shift : Nat) (s : State) : KeepsFlag b s (setShift b sel shift s) :=
  KeepsFlag.mapEntries (fun c => by split <;> rfl) s

theorem keepsFlag_joinLeg (L : LineId) (s : State) : KeepsFlag b s (joinLeg b L s) := by
  unfold joinLeg
  split
  · split
    · have hjoined (x : Leg) : KeepsFlag b s (setLeg b L (fun y => { y with joined := true })
          (join b (lineSource L) x.gain 0 .owner s)) := (keepsFlag_join _ _ _ _ s).trans (.modHoot _ _)
      dsimp only
      split
      · exact (hjoined _).trans (keepsFlag_setShift _ _ _)
      · exact hjoined _
    · exact .refl s
  · exact .refl s

theorem keepsFlag_dropLeg (x : Leg) (s : State) : KeepsFlag b s (dropLeg b x s) := by
  refine KeepsFlag.trans ?_ (.modHoot _ _)
  split
  · exact keepsFlag_leave _ s
  · exact .refl s

theorem keepsFlag_addLeg (x : LineId × Nat) (s : State) : KeepsFlag b s (addLeg b x s) := by
  unfold addLeg
  dsimp only
  split
  · exact (KeepsFlag.modHoot _ s).trans (keepsFlag_joinLeg _ _)
  · exact .modHoot _ s

theorem keepsFlag_regainLeg (x : LineId × Nat) (s : State) : KeepsFlag b s (regainLeg b x s) :=
  (KeepsFlag.modHoot _ s).trans (keepsFlag_setGainOn _ _ _)

theorem KeepsFlag.each {α : Type} {f : α → State → State} (h : ∀ x s, KeepsFlag b s (f x s)) (xs : List α) (s : State) :
    KeepsFlag b s (s.each xs f) := each_rel KeepsFlag.refl KeepsFlag.trans h xs s

theorem keepsFlag_replaceLegs (old : List Leg) (new : List (LineId × Nat)) (s : State) :
    KeepsFlag b s (replaceLegs b old new s) :=
  ((KeepsFlag.each keepsFlag_dropLeg _ s).trans (.each keepsFlag_regainLeg _ _)).trans (.each keepsFlag_addLeg _ _)

theorem keepsFlag_defineHoot (f : HootFields) (a : HootArgs) (s : State) :
    KeepsFlag b (openHoot b s) (defineHoot b f a s) := by
  refine KeepsFlag.trans ?_ (KeepsFlag.modBridge fun r hr => hr)
  split
  · exact (KeepsFlag.modHoot _ _).trans (keepsFlag_replaceLegs _ _ _)
  · exact .modHoot _ _

/-! ## A new hoot (R122) -/

theorem newLegs_nil (new : List (LineId × Nat)) : newLegs s [] new = new.map (addedLeg s) := by
  simp [newLegs, freshLegs]

theorem newEntries_nil (new : List (LineId × Nat)) :
    newEntries s [] new [] = (new.filter (joinsAtOnce s)).map addedEntry := by
  simp [newEntries, freshLegs]

/-- A definition of a FREE bridge: the hoot of R120 with the fields given, its legs, and the whole bridge record. -/
theorem defineHoot_new (hu : ToldAlike u s) (hnone : s.hoots.get b = none) (f : HootFields) {a : HootArgs}
    (hlegs : ∀ new, a.legs = some new → (new.map (·.1)).Nodup ∧ new.length ≤ 12) :
    let t := defineHoot b f a s
    let cs := a.legs.elim [] fun new => (new.filter (joinsAtOnce s)).map addedEntry
    let active := cs.any fun c => s.active c.source
    let quiet := 1000 * (storeHoot f a Hoot.fresh).quietS
    TalkStep b (withNewHoot b s) (((withNewHoot b s).talkTables b).withLegs b (storeHoot f a Hoot.fresh)
        (a.legs.elim [] fun new => new.map (addedLeg s)) cs) u t ∧
      t.bridges = s.bridges.set b { use := .hoot, contributors := cs, period := quiet, mask := .both, active := active,
                                    idle := if active ∨ quiet = 0 then none else some quiet } := by
  intro t cs active quiet
  have hempty : ((withNewHoot b s).talkTables b).entries = [] := by
    simp [State.talkTables, withNewHoot, Bridge.reset]
  have hstart : TalkStep b (withNewHoot b s) ((withNewHoot b s).talkTables b) u (withNewHoot b s) :=
    talkStep_start (hu.quiet rfl rfl rfl)
  obtain ⟨hstep, hbridge⟩ := hstart.defineHoot (h := Hoot.fresh) (Tab.get_set_self ..) rfl f fun new hnew => by
    obtain ⟨hn, hroom⟩ := hlegs new hnew
    rw [hempty, List.length_nil, Nat.zero_add]
    exact ⟨hn, fun x _ _ c hc => absurd hc List.not_mem_nil, hroom⟩
  have ht : defineHoot b f a (withNewHoot b s) = t := by
    rw [← openHoot_new hnone, defineHoot_openHoot]
  have hflag : KeepsFlag b (withNewHoot b s) t := by
    rw [← openHoot_new hnone]
    exact keepsFlag_defineHoot f a s
  have hfresh : Hoot.fresh.legs = [] := rfl
  have hls : a.legs.elim [] (newLegs (withNewHoot b s) []) = a.legs.elim [] fun new => new.map (addedLeg s) :=
    congrArg (a.legs.elim []) (funext newLegs_nil)
  have hcs : (a.legs.elim [] fun new => newEntries (withNewHoot b s) [] new []) = cs :=
    congrArg (a.legs.elim []) (funext newEntries_nil)
  rw [ht, hempty, hfresh, hls, hcs] at hstep
  rw [ht, hempty, hfresh, hcs] at hbridge
  refine ⟨hstep, Tab.ext_get fun d => ?_⟩
  by_cases hd : d = b
  · subst hd
    have hactive : (t.bridges.get d).active = active := by
      have hset : Flagged d t := hflag (by simp [Flagged, withNewHoot, Bridge.reset, anyActive])
      rw [hset, hbridge]
      simp only [anyActive, hstep.active]
      rfl
    have huse : ((withNewHoot d s).bridges.get d).use = .hoot := by simp [withNewHoot]
    rw [hactive, huse] at hbridge
    rw [Tab.get_set_self]
    exact hbridge
  · rw [Tab.get_set_ne _ _ hd]
    exact (hstep.elsewhere d hd).trans (Tab.get_set_ne _ _ hd)

/-! ## A definition as it is asked for and answered -/

/-- An old leg stays when the new list names its line, and then takes the gain given there. -/
theorem keptLegs_eq (old : List Leg) (new : List (LineId × Nat)) :
    (old.filter fun y => (goneLegs old new).all fun x => y.line ≠ x.line).map (Leg.regained (sharedLegs old new)) =
      old.filterMap fun y => (new.find? fun x => x.1 = y.line).map fun x => { y with gain := x.2 } := by
  rw [← List.filterMap_eq_map, List.filterMap_filter]
  refine List.filterMap_congr fun y hy => ?_
  have hfind : (sharedLegs old new).find? (fun x => x.1 = y.line) = new.find? fun x => x.1 = y.line := by
    unfold sharedLegs
    rw [List.find?_filter]
    congr 1
    funext x
    by_cases hx : x.1 = y.line
    · have hin : ∃ z ∈ old, z.line = y.line := ⟨y, hy, rfl⟩
      simpa [hx] using hin
    · simp [hx]
  simp only [Function.comp_apply, Leg.regained]
  rw [hfind]
  cases hk : new.find? fun x => x.1 = y.line with
  | none =>
    have hgone : y ∈ goneLegs old new := by
      simpa [goneLegs, hy, List.find?_eq_none] using hk
    have hout : ¬((goneLegs old new).all fun x => y.line ≠ x.line) = true := fun hall => by
      simpa using List.all_eq_true.mp hall y hgone
    rw [if_neg hout]
    rfl
  | some x =>
    have hstays : ((goneLegs old new).all fun x => y.line ≠ x.line) = true := by
      refine List.all_eq_true.mpr fun z hz => decide_eq_true fun e => ?_
      have hnone := (List.mem_filter.mp hz).2
      have hx := List.find?_some hk
      have hin : (new.any fun w => w.1 = z.line) = true :=
        List.any_eq_true.mpr ⟨x, List.mem_of_find?_eq_some hk, e ▸ hx⟩
      simp [hin] at hnone
    rw [if_pos hstays]
    rfl

theorem freshLegs_read (old : List Leg) (legs : List (LineId × Half)) :
    freshLegs old (legs.map legRead) = (legs.filter fun x => old.all fun y => y.line ≠ x.1).map legRead := by
  unfold freshLegs
  rw [List.filter_map]
  rfl

theorem addedEntry_read (x : LineId × Half) :
    addedEntry (legRead x) = ⟨lineSource x.1, min x.2.toNat 4095, 0, .owner⟩ := by simp [addedEntry, legRead]

/-- The legs that the list of a request leaves. -/
theorem newLegs_read (old : List Leg) (legs : List (LineId × Half)) : newLegs s old (legs.map legRead) =
    (old.filterMap fun y => (legs.find? fun x => x.1 = y.line).map fun x => { y with gain := min x.2.toNat 4095 }) ++
      (legs.filter fun x => old.all fun y => y.line ≠ x.1).map fun x =>
        ⟨x.1, min x.2.toNat 4095, (s.lines.get x.1).state = .idle⟩ := by
  unfold newLegs
  rw [keptLegs_eq, freshLegs_read, List.map_map]
  simp only [List.find?_map, Option.map_map]
  rfl

/-- The contributors that it leaves. -/
theorem newEntries_read (old : List Leg) (legs : List (LineId × Half)) (cs : List Contrib) :
    newEntries s old (legs.map legRead) cs =
      ((cs.filter fun c => old.all fun y =>
          !(y.joined && lineSource y.line = c.source && (legs.find? fun x => x.1 = y.line).isNone)).map
        fun c => match legs.find? fun x => lineSource x.1 = c.source && old.any fun y => y.line = x.1 with
          | some x => { c with gain := min x.2.toNat 4095 }
          | none => c) ++
        ((legs.filter fun x => old.all fun y => y.line ≠ x.1).filter fun x => (s.lines.get x.1).state = .idle).map
          fun x => ⟨lineSource x.1, min x.2.toNat 4095, 0, .owner⟩ := by
  have hstays (c : Contrib) : ((goneLegs old (legs.map legRead)).all fun x =>
      !(x.joined && lineSource x.line = c.source)) = old.all fun y =>
        !(y.joined && lineSource y.line = c.source && (legs.find? fun x => x.1 = y.line).isNone) := by
    unfold goneLegs
    rw [List.all_filter]
    refine congrArg (List.all old) (funext fun y => ?_)
    have hany : ((legs.map legRead).any fun x => x.1 = y.line) = !(legs.find? fun x => x.1 = y.line).isNone := by
      rw [List.any_map, Option.not_isNone, List.isSome_find?]
      rfl
    rw [hany]
    cases (legs.find? fun x => x.1 = y.line).isNone <;> simp
  have hgain (c : Contrib) : c.regained (sharedLegs old (legs.map legRead)) =
      match legs.find? fun x => lineSource x.1 = c.source && old.any fun y => y.line = x.1 with
      | some x => { c with gain := min x.2.toNat 4095 }
      | none => c := by
    have hfind : (sharedLegs old (legs.map legRead)).find? (fun x => lineSource x.1 = c.source) =
        (legs.find? fun x => lineSource x.1 = c.source && old.any fun y => y.line = x.1).map legRead := by
      unfold sharedLegs
      rw [List.filter_map, List.find?_map, List.find?_filter]
      refine congrArg (Option.map legRead) (congrArg (List.find? · legs) (funext fun x => ?_))
      exact (Bool.decide_and _ _).trans ((Bool.and_comm _ _).trans (by simp only [Bool.decide_eq_true]; rfl))
    unfold Contrib.regained
    rw [hfind]
    cases legs.find? fun x => lineSource x.1 = c.source && old.any fun y => y.line = x.1 <;> simp [legRead]
  unfold newEntries
  rw [freshLegs_read, List.filter_map, List.map_map]
  simp only [hstays, Function.comp_def, addedEntry_read]
  refine congrArg (· ++ _) (List.map_congr_left fun c _ => hgain c)

/-- The hoot of a definition, the shift's field in the form of the others. -/
theorem storeHoot_withLegs (f : HootFields) (a : HootArgs) (h : Hoot) (ls : List Leg) :
    let num (lo top old : Nat) (v : Option Half) : Nat :=
      match v with | some x => max lo (min x.toNat top) | none => old
    { storeHoot f a h with legs := ls } = { h with
      slots := num 1 4 h.slots f.slots
      talkIdleS := match f.talkIdleS with
        | some v => if v.toNat = 0 then 0 else max 5 (min v.toNat 300)
        | none => h.talkIdleS
      quietS := num 1 600 h.quietS f.quietS
      policy := a.policy.getD h.policy
      shift := num 0 12 h.shift f.shift
      record := a.record.getD h.record
      legs := ls } := by
  intro num
  have hshift (v : Option Half) : num 0 12 h.shift v = match v with
      | some x => clampTop 12 x
      | none => h.shift := by
    cases v with
    | none => rfl
    | some x => exact Nat.zero_max _
  exact congrArg (fun n => { storeHoot f a h with shift := n, legs := ls }) (hshift f.shift).symm

/-- The response names the hoot as it is stored. -/
theorem answered_defineBody (hh : t.hoots.get b = some h) :
    answered (respond .adm (BitVec.ofNat 8 ReqKind.hootDefine.code) (done (defineBody t b) t)) .adm .hootDefine .done
      (bHootFields h ++ bList (fun x => b1 x.line.val ++ b2 x.gain ++ [if x.joined then 0#8 else 1#8]) h.legs) := by
  have hbody : defineBody t b =
      bHootFields h ++ bList (fun x => b1 x.line.val ++ b2 x.gain ++ [if x.joined then 0#8 else 1#8]) h.legs := by
    have hstate (j : Bool) : bFirst j = [if j then 0#8 else 1#8] := by cases j <;> rfl
    unfold defineBody
    rw [hh]
    simp only [hstate]
  rw [hbody]
  exact answered_respond ..

/-! ## HOOT_REMOVE (R123) -/

theorem Tab.set_modify {α : Type} {n : Nat} (t : Tab α n) (i : Fin n) (f : α → α) (a : α) :
    (t.modify i f).set i a = t.set i a := Tab.set_set t i _ a

/-- A leg that leaves changes the hoot's record alone among the hoots, and its bridge alone among the bridges. -/
theorem dropLeg_hoots (x : Leg) (r : Option Hoot) (s : State) :
    (Machine.dropLeg b x s).hoots.set b r = s.hoots.set b r := by
  unfold Machine.dropLeg
  rw [modHoot_hoots, Tab.set_modify]
  split <;> rfl

theorem dropLeg_bridges (x : Leg) (r : Bridge) (s : State) :
    (Machine.dropLeg b x s).bridges.set b r = s.bridges.set b r := by
  unfold Machine.dropLeg
  rw [modHoot_bridges]
  split
  · exact Tab.set_modify ..
  · rfl

theorem dropLeg_eq (x : Leg) (s : State) : Machine.dropLeg b x s =
    { s with hoots := (Machine.dropLeg b x s).hoots, bridges := (Machine.dropLeg b x s).bridges } := by
  unfold Machine.dropLeg
  split <;> rfl

theorem clearKey_eq (x : PosId × KeyId) (s : State) :
    clearKey b x s = { s with positions := (clearKey b x s).positions, links := (clearKey b x s).links } := by
  unfold clearKey
  rw [unbind_eq]
  rfl

/-- The keys that are named lose their bindings, and no other does. -/
theorem each_clearKey_binding : ∀ (xs : List (PosId × KeyId)) (s : State) (p : PosId) (k : KeyId),
    (s.each xs (clearKey b)).binding p (.key k) = if (p, k) ∈ xs then .none else s.binding p (.key k)
  | [], _, _, _ => rfl
  | x :: xs, s, p, k => by
    have hone : (clearKey b x s).binding p (.key k) = if (p, k) = x then .none else s.binding p (.key k) := by
      refine (unbind_binding x.1 p (.key x.2) (.key k) .none s).trans ?_
      simp [Prod.ext_iff]
    rw [each_cons, each_clearKey_binding xs, hone]
    by_cases hx : (p, k) = x <;> simp [hx]

theorem mem_listeners {p : PosId} {k : KeyId} : (p, k) ∈ listeners s b ↔ s.binding p (.key k) = .listen b := by
  simp [listeners, ids]

theorem removeHoot_hoots : (removeHoot b s).hoots = s.hoots.set b none :=
  (each_same (fun t => t.hoots.set b none) (fun x t => dropLeg_hoots x none t) _ _).trans
    (congrArg (Tab.set · b none) (each_same State.hoots (fun x t => (congrArg State.hoots (clearKey_eq x t) :)) _ _))

theorem removeHoot_bridges : (removeHoot b s).bridges = s.bridges.set b Bridge.reset :=
  (each_same (fun t => t.bridges.set b Bridge.reset) (fun x t => dropLeg_bridges x _ t) _ _).trans
    (congrArg (Tab.set · b _)
      (each_same State.bridges (fun x t => (congrArg State.bridges (clearKey_eq x t) :)) _ _))

/-- Beyond the keys, the hoot and its bridge, only notices follow. -/
theorem removeHoot_only :
    { removeHoot b s with positions := s.positions, bridges := s.bridges, hoots := s.hoots, links := s.links } = s := by
  let F (t : State) : State :=
    { t with positions := s.positions, bridges := s.bridges, hoots := s.hoots, links := s.links }
  exact (each_same F (fun x t => (congrArg F (dropLeg_eq x t) :)) _ _).trans
    (each_same F (fun x t => (congrArg F (clearKey_eq x t) :)) _ _)

theorem removeHoot_binding (p : PosId) (k : KeyId) : (removeHoot b s).binding p (.key k) =
    if s.binding p (.key k) = .listen b then .none else s.binding p (.key k) := by
  have hlegs := each_same (fun t => t.binding p (.key k)) (f := Machine.dropLeg b)
    (fun x t => (congrArg (fun w : State => w.binding p (.key k)) (dropLeg_eq x t) :)) (legsIn s b)
    (s.each (listeners s b) (clearKey b))
  refine hlegs.trans ((each_clearKey_binding _ s p k).trans ?_)
  simp only [mem_listeners]

end

end

/-- Settles O42: a definition of a new hoot gives the whole bridge record (`defineHoot_new`), one of a hoot that stands
takes the legs in three steps (`TalkStep.defineHoot`, `newLegs_read`, `newEntries_read`), and a removal concerns the
hoot, its bridge and the keys that listen (`removeHoot_only`). -/
theorem hootDefineRemove : Obligations.HootDefineRemove := by
  refine ⟨?_, ?_, ?_⟩
  · intro b f legs policy recorded s hlatch hfits huse hnone hcount hread hp hr hn hlegs num idle new cs act
    have hl : ∀ xs, f.legs = some xs → xs = legs.map fun x => (idByte x.1, x.2) := fun xs hxs => by
      simpa [hxs] using hread
    have hnil (hf : f.legs = none) : legs = [] := by
      simpa [hf] using hread.symm
    have hfew : legs.length ≤ 4 := by
      simpa [HootFields.fits, hread] using hfits
    have hexec := exec_hootDefine hlatch hfits hp hr hl (.inl ⟨huse, hcount⟩) (fun h hh => by simp [hnone] at hh) hn
      fun x hx => ⟨(hlegs x hx).1, .inl (hlegs x hx).2⟩
    obtain ⟨hstep, hbridges⟩ := defineHoot_new (toldAlike_begin s (some .adm)) hnone f
      (a := hootRead f policy recorded legs) fun xs hxs => by
        rw [hootRead_legs hxs, List.length_map]
        exact ⟨nodup_read hn, hfew.trans (by decide)⟩
    have hls : (hootRead f policy recorded legs).legs.elim [] (fun xs => xs.map (addedLeg (s.begin (some .adm)))) =
        new.legs := by
      cases hf : f.legs with
      | none => simp [hootRead, hf, new, hnil hf]
      | some xs =>
        simp only [hootRead, hf, Option.map_some, Option.elim_some, List.map_map]
        rfl
    have hcs : ((hootRead f policy recorded legs).legs.elim []
        fun xs => (xs.filter (joinsAtOnce (s.begin (some .adm)))).map addedEntry) = cs := by
      cases hf : f.legs with
      | none => simp [hootRead, hf, cs, hnil hf]
      | some xs =>
        simp only [hootRead, hf, Option.map_some, Option.elim_some, List.filter_map, List.map_map]
        exact List.map_congr_left fun x _ => addedEntry_read x
    have hfields : { storeHoot f (hootRead f policy recorded legs) Hoot.fresh with legs := new.legs } = new :=
      storeHoot_withLegs ..
    have hquiet : (storeHoot f (hootRead f policy recorded legs) Hoot.fresh).quietS = new.quietS :=
      (congrArg Hoot.quietS hfields :)
    generalize defineHoot b f _ _ = t at hexec hstep hbridges
    rw [hls, hcs] at hstep
    rw [hcs, hquiet] at hbridges
    have hhoots : t.hoots = s.hoots.set b (some new) :=
      hstep.hoots.trans ((congrArg (fun h => Tab.set _ b (some h)) hfields).trans (Tab.set_set ..))
    have hdone := hstep.respond .adm (BitVec.ofNat 8 ReqKind.hootDefine.code) (done (defineBody t b) t).2
    have hperiod : 1000 * new.quietS ≠ 0 := by
      have hmin : 1 ≤ new.quietS := by
        simp only [new, num]
        cases f.quietS with
        | none => decide
        | some v => exact Nat.le_max_left ..
      omega
    refine ⟨_, hexec, hdone.told.notices, answered_defineBody (by rw [hhoots, Tab.get_set_self]), hhoots,
      hbridges.trans ?_, hdone.onlyHoots rfl rfl rfl⟩
    simp only [hperiod, or_false]
    rfl
  · intro b h f legs policy recorded s hlatch hfits huse hh hg hq hl hp hr hn hlegs hcalm hroom num idle kept fresh cs new
    have hexec := exec_hootDefine hlatch hfits hp hr hl (.inr huse)
      (fun g hb => by cases hh.symm.trans hb; exact ⟨hg, hq⟩) hn fun x hx => ⟨(hlegs x hx).1, (hlegs x hx).2.1⟩
    have hls : (hootRead f policy recorded legs).legs.elim h.legs (newLegs (s.begin (some .adm)) h.legs) = new.legs := by
      cases hf : f.legs with
      | none => simp [hootRead, hf, new]
      | some xs =>
        simp only [hootRead, hf, Option.map_some, Option.elim_some, new]
        exact (newLegs_read _ _).trans (if_neg (Option.some_ne_none xs)).symm
    obtain ⟨hstep, hbridge⟩ := (talkStep_begin b s (some .adm)).defineHoot (h := h) hh hcalm f
      (a := hootRead f policy recorded legs) fun xs hxs => by
        rw [hootRead_legs hxs, List.length_map]
        refine ⟨nodup_read hn, fun x hx hnew => ?_, hroom⟩
        obtain ⟨y, hy, rfl⟩ := List.mem_map.mp hx
        exact entries_ne_of_has ((hlegs y hy).2.2 hnew)
    have hfields : { storeHoot f (hootRead f policy recorded legs) h with legs := new.legs } = new := storeHoot_withLegs ..
    have hquiet : (storeHoot f (hootRead f policy recorded legs) h).quietS = new.quietS :=
      (congrArg Hoot.quietS hfields :)
    generalize defineHoot b f _ _ = t at hexec hstep hbridge
    rw [hls] at hstep
    rw [hquiet] at hbridge
    have hhoots : t.hoots = s.hoots.set b (some new) :=
      hstep.hoots.trans (congrArg (fun h => Tab.set _ b (some h)) hfields)
    have hdone := hstep.respond .adm (BitVec.ofNat 8 ReqKind.hootDefine.code) (done (defineBody t b) t).2
    refine ⟨_, hexec, hdone.told.notices, answered_defineBody (by rw [hhoots, Tab.get_set_self]), hhoots,
      hdone.elsewhere, ?_, hdone.onlyHoots rfl rfl rfl⟩
    have hcs := congrArg Bridge.contributors hbridge
    refine ⟨(congrArg Bridge.use hbridge).trans huse, congrArg Bridge.period hbridge, congrArg Bridge.mask hbridge, ?_,
      hcs.trans ?_⟩
    · have hzero : (1000 * new.quietS = 0) = (new.quietS = 0) := propext ⟨by omega, by omega⟩
      refine (congrArg Bridge.idle hbridge).trans ?_
      dsimp only at hcs ⊢
      rw [← hcs]
      simp only [hzero]
      rfl
    · cases hf : f.legs with
      | none =>
        simp only [hootRead, hf]
        rfl
      | some xs =>
        simp only [hootRead, hf]
        exact (newEntries_read h.legs legs cs).trans (if_neg (Option.some_ne_none xs)).symm
  · intro b h s hlatch hh hg hq
    have hmay : mayTake s .adm .hootRemove none := ⟨.inl hlatch, rfl, rfl⟩
    have hexec := takeRequest_owner (n := {}) hmay (hootRemove (idByte b))
    have hpass : hootRemove (idByte b) (s.begin (some .adm)) =
        done (b2 (listeners s b).length) (removeHoot b (s.begin (some .adm))) := by
      simp [hootRemove, hh, hg, hq]
      rfl
    rw [hpass] at hexec
    have honly := removeHoot_only (b := b) (s := s.begin (some .adm))
    refine ⟨_, congrArg Host.Outcome.next hexec, answered_respond .., removeHoot_hoots, removeHoot_bridges,
      (congrArg State.log honly :), (congrArg State.lines honly :), (congrArg State.channels honly :),
      fun p k hk => (removeHoot_binding p k).trans (if_pos hk), fun p k hk => (removeHoot_binding p k).trans (if_neg hk),
      (kept_removeHoot b (s.begin (some .adm))).onlyCalls_begin⟩

end Sys2Proof.Machine
